-- ==== Sys2Proof/Word.lean ====
section
/-! DEFINITION. The byte and the plainest arithmetic on bytes and saturating counts. -/

namespace Sys2Proof

/-- One byte of a frame: bit 7 is the most significant bit (R174). -/
abbrev Byte := BitVec 8

/-- The byte that carries the whole number `n` (R174). -/
def byteOf (n : Nat) : Byte := BitVec.ofNat 8 n

/-- A two-byte field, most significant byte first (R174). -/
def bytes16 (n : Nat) : List Byte := [byteOf (n / 256), byteOf n]

/-- A count that advances by one and saturates at `limit`. -/
def satAdd (limit n : Nat) : Nat := if n < limit then n + 1 else n

end Sys2Proof
end

