-- ==== Sys2Proof/Config.lean ====
section
/-! DEFINITION. What the part fixes once and for all: its identity and the sizes of its stores.
The spec leaves no result of any command open, so there is no free value here. -/

namespace Sys2Proof.Config

/-- The part code that IDENTIFY returns (R173). -/
def partCode : Nat := 0x2648

/-- The revision number that IDENTIFY returns (R173). -/
def revision : Nat := 1

/-- Depth of a port's receive queue (R124). -/
def receiveDepth : Nat := 8

/-- Depth of a port's traffic queue (R132). -/
def trafficDepth : Nat := 6

/-- Depth of the inbound queue (R116). -/
def inboundDepth : Nat := 32

/-- The most records that are pinned at once (R23). -/
def pinnedLimit : Nat := 8

/-- The most summon contexts that exist at once (R88). -/
def summonLimit : Nat := 8

/-- The mismatch count at which a record takes the hard fault IDENTITY (R80). -/
def identityLimit : Nat := 8

/-- The tries after which a retune fails (R72). -/
def retuneTries : Nat := 3

/-- The loans a record may have in one cycle (R65). -/
def loanLimit : Nat := 2

/-- The longest body of a message (R104). -/
def bodyLimit : Nat := 24

/-- The ceiling of the 16-bit counters (R57, R135). -/
def counterLimit : Nat := 65535

/-- The station number that stands for the dispatch gateway (R126). -/
def gateway : Nat := 255

/-- The bytes that an up frame inside the up-window can have at most (section 1.3). -/
def windowBytes : Nat := 64

end Sys2Proof.Config
end

