-- ==== Sys2Proof/Machine/Check.lean ====
section
/-! DEFINITION. The check computations of R178: the 16-bit check word of air and backbone frames and the 8-bit
check byte of the command port. -/

namespace Sys2Proof.Machine

/-- One bit of the 16-bit register: shift left, and apply the polynomial 1021h when the bit shifted out is set. -/
def crc16Shift (r : BitVec 16) : BitVec 16 :=
  if r.msb then (r <<< 1) ^^^ 0x1021#16 else r <<< 1

/-- One byte into the 16-bit register, most significant bit first. -/
def crc16Byte (r : BitVec 16) (b : Byte) : BitVec 16 :=
  Nat.repeat crc16Shift 8 (r ^^^ ((b.setWidth 16) <<< 8))

/-- The check word over the bytes sent before it; the register starts at FFFFh (R178). -/
def crc16 (bytes : List Byte) : BitVec 16 := bytes.foldl crc16Byte 0xFFFF#16

/-- One bit of the 8-bit register, with the polynomial 07h. -/
def crc8Shift (r : BitVec 8) : BitVec 8 :=
  if r.msb then (r <<< 1) ^^^ 0x07#8 else r <<< 1

/-- One byte into the 8-bit register, most significant bit first. -/
def crc8Byte (r : BitVec 8) (b : Byte) : BitVec 8 := Nat.repeat crc8Shift 8 (r ^^^ b)

/-- The check byte of a command port frame; the register starts at FFh (R178). -/
def crc8 (bytes : List Byte) : Byte := bytes.foldl crc8Byte 0xFF#8

/-- The check word as sent, high byte first. -/
def checkWord (covered : List Byte) : List Byte :=
  [(crc16 covered).extractLsb' 8 8, (crc16 covered).extractLsb' 0 8]

/-- A frame's bytes with the check word that closes it. -/
def withCheckWord (covered : List Byte) : List Byte := covered ++ checkWord covered

/-- Whether the bytes that follow `covered` begin with its check word; what comes after them is discarded (R174). -/
def checkWordFollows (covered rest : List Byte) : Bool := rest.take 2 == checkWord covered

/-- A command port frame's bytes with the check byte that closes it. -/
def withCheckByte (covered : List Byte) : List Byte := covered ++ [crc8 covered]

end Sys2Proof.Machine
end

