-- ==== Sys2Proof/Syntax.lean ====
section
/-! DEFINITION. The commands of the part: one constructor for each row of spec/opcode_table.json.
A host command carries the parameter bytes of its request, those between the length byte and the check
byte (R177); an event carries what arrives with it. -/

namespace Sys2Proof

/-- The two backbone ports (R122). -/
inductive Port where
  | inbye
  | outbye
  deriving DecidableEq, Repr

/-- The phases of work in a slot, in their order (R6). -/
inductive SlotPhase where
  | lead
  | head
  | body
  | check
  | turnaround
  | window
  | guard
  deriving DecidableEq, Repr

/-- A command, or an event that reaches the part: the rows of the table, in its order. -/
inductive Instr where
  /-- READ_RECORD (R27): index. -/
  | readRecord (params : List Byte)
  /-- FIND_CAR (R27): car ID. -/
  | findCar (params : List Byte)
  /-- POST (R106): index, urgency, length, body. -/
  | post (params : List Byte)
  /-- RETIRE (R40): index. -/
  | retire (params : List Byte)
  /-- RELEASE (R91): index. -/
  | release (params : List Byte)
  /-- RETUNE (R68): index, period code. -/
  | retune (params : List Byte)
  /-- SUMMON (R88): car ID. -/
  | summon (params : List Byte)
  /-- PIN (R30): index. -/
  | pin (params : List Byte)
  /-- UNPIN (R31): index. -/
  | unpin (params : List Byte)
  /-- SET_KEEP (R32): index. -/
  | setKeep (params : List Byte)
  /-- CLEAR_KEEP (R32): index. -/
  | clearKeep (params : List Byte)
  /-- CLEAR_FAULT (R35): index. -/
  | clearFault (params : List Byte)
  /-- SWEEP_START (R157): first index, last index, deadline, close-entry. -/
  | sweepStart (params : List Byte)
  /-- SWEEP_HALT (R163). -/
  | sweepHalt (params : List Byte)
  /-- SWEEP_RESUME (R163). -/
  | sweepResume (params : List Byte)
  /-- SWEEP_CANCEL (R163). -/
  | sweepCancel (params : List Byte)
  /-- READ_SWEEP (R164). -/
  | readSweep (params : List Byte)
  /-- READ_INBOUND (R119). -/
  | readInbound (params : List Byte)
  /-- FLUSH_INBOUND (R119). -/
  | flushInbound (params : List Byte)
  /-- NEXT_ATTENTION (R168). -/
  | nextAttention (params : List Byte)
  /-- READ_STATION (R173). -/
  | readStation (params : List Byte)
  /-- CLEAR_COUNTS (R173). -/
  | clearCounts (params : List Byte)
  /-- SET_MASK (R169): mask, enables. -/
  | setMask (params : List Byte)
  /-- CLEAR_CONDITION (R171): class. -/
  | clearCondition (params : List Byte)
  /-- FORCE_CONDITION (R171): class, on or off. -/
  | forceCondition (params : List Byte)
  /-- CONFIGURE (R167): parameter, value. -/
  | configure (params : List Byte)
  /-- READ_PARAM (R167): parameter. -/
  | readParam (params : List Byte)
  /-- SET_LANES (R110): lanes. -/
  | setLanes (params : List Byte)
  /-- OPEN_AIR (R2); `rfReady` is RF_READY as it is sampled if the command starts a slot (R13). -/
  | openAir (params : List Byte) (rfReady : Bool)
  /-- CLOSE_AIR (R3). -/
  | closeAir (params : List Byte)
  /-- STATION_RESET (R166). -/
  | stationReset (params : List Byte)
  /-- FLUSH_PORT (R136): port. -/
  | flushPort (params : List Byte)
  /-- CLEAR_PORT_CHECK (R165). -/
  | clearPortCheck (params : List Byte)
  /-- IDENTIFY (R173). -/
  | identify (params : List Byte)
  /-- BAD_CHECK_REQUEST (R165): the request's bytes. -/
  | badCheckRequest (bytes : List Byte)
  /-- BAD_COMMAND_REQUEST (R165): the code that names no command, and the parameters. -/
  | badCommandRequest (code : Byte) (params : List Byte)
  /-- RESET_N_ASSERT (R166). -/
  | resetNAssert
  /-- RESET_N_RELEASE (R166). -/
  | resetNRelease
  /-- STATION_RESET_TAKES_EFFECT (R166). -/
  | stationResetTakesEffect
  /-- SLOT_START (R6, R13): RF_READY as it is sampled at LEAD. -/
  | slotStart (rfReady : Bool)
  /-- UP_FRAME_RECEIVE (R12): the bytes taken before GUARD, and the transceiver's level reading. -/
  | upFrameReceive (bytes : List Byte) (level : Fin 64)
  /-- RF_READY_FALL (R14): the phase of work in which RF_READY falls. -/
  | rfReadyFall (during : SlotPhase)
  /-- SLOT_END (R18). -/
  | slotEnd
  /-- SWEEP_DEADLINE (R161). -/
  | sweepDeadline
  /-- BACKBONE_FRAME_RECEIVE (R124): the port and the frame's bytes. -/
  | backboneFrameReceive (port : Port) (bytes : List Byte)
  /-- RECEIVE_QUEUE_TAKE (R127): the port. -/
  | receiveQueueTake (port : Port)
  /-- HELLO_TIMER_EXPIRY (R123): the port. -/
  | helloTimerExpiry (port : Port)
  /-- SILENCE_TIMEOUT (R125): the port. -/
  | silenceTimeout (port : Port)
  /-- TRANSMIT_COMPLETE (R133): the port. -/
  | transmitComplete (port : Port)
  /-- CLAIM_EXPIRY (R141): the record whose claiming context expires. -/
  | claimExpiry (record : Fin 48)
  /-- HANDING_EXPIRY (R144): the record whose handing context expires. -/
  | handingExpiry (record : Fin 48)
  deriving DecidableEq, Repr

end Sys2Proof
end

