-- ==== Sys2Proof/WellFormed.lean ====
section
/-! DEFINITION. What makes a command well formed: what its sender can put into it by the spec. -/

namespace Sys2Proof

/-- The parameters of a request are at most 255 bytes, for their length stands in one byte (R177). -/
def paramsFit (params : List Byte) : Bool := params.length ≤ 255

/-- The codes that name a command (R177). -/
def commandCodes : List Nat :=
  [0x10, 0x11, 0x12, 0x13, 0x14, 0x15, 0x16, 0x17, 0x18, 0x19, 0x1A, 0x1B, 0x20, 0x21, 0x22, 0x23, 0x24, 0x28, 0x29,
    0x30, 0x31, 0x32, 0x33, 0x34, 0x35, 0x40, 0x41, 0x42, 0x43, 0x44, 0x45, 0x46, 0x47, 0x48]

/-- Whether a request's check byte is right: code, length byte, that many parameters, and the check byte over all of
them; bytes beyond it are discarded, and a request that runs short is not right (R165, R174, R177). -/
def requestCheckRight : List Byte → Bool
  | code :: n :: rest =>
      rest.length > n.toNat && rest[n.toNat]? == some (Machine.crc8 (code :: n :: rest.take n.toNat))
  | _ => false

/-- Well-formedness of a command. -/
def Instr.wf : Instr → Bool
  | .readRecord p | .findCar p | .post p | .retire p | .release p | .retune p | .summon p | .pin p | .unpin p
  | .setKeep p | .clearKeep p | .clearFault p | .sweepStart p | .sweepHalt p | .sweepResume p | .sweepCancel p
  | .readSweep p | .readInbound p | .flushInbound p | .nextAttention p | .readStation p | .clearCounts p
  | .setMask p | .clearCondition p | .forceCondition p | .configure p | .readParam p | .setLanes p
  | .closeAir p | .stationReset p | .flushPort p | .clearPortCheck p | .identify p => paramsFit p
  | .openAir p _ => paramsFit p
  | .badCheckRequest bytes => !bytes.isEmpty && !requestCheckRight bytes
  | .badCommandRequest code p => paramsFit p && !commandCodes.contains code.toNat
  | .upFrameReceive bytes _ => bytes.length ≤ Config.windowBytes
  | .backboneFrameReceive _ bytes => !bytes.isEmpty
  | .resetNAssert | .resetNRelease | .stationResetTakesEffect | .slotStart _ | .rfReadyFall _ | .slotEnd
  | .sweepDeadline | .receiveQueueTake _ | .helloTimerExpiry _ | .silenceTimeout _ | .transmitComplete _
  | .claimExpiry _ | .handingExpiry _ => true

end Sys2Proof
end

