-- ==== Sys2Proof/Decode.lean ====
section
/-! DEFINITION. The command port's reading of a request frame (R165, R174, R177), the frame that carries a command,
and the host's table reader. spec/opcode_table.json gives no row any bits, so no word spells a command there. -/

namespace Sys2Proof

/-- The command that a word spells by the table's bits: the table gives no row bits, so none does. -/
def decodeTableWord (_nbits _w : Nat) : Option Instr := none

/-- The command that a code names (R177), with its parameters; OPEN_AIR with the RF_READY sample that stands beside it. -/
def commandOf (code : Nat) (params : List Byte) (rfReady : Bool) : Option Instr :=
  match code with
  | 0x10 => some (.readRecord params)
  | 0x11 => some (.findCar params)
  | 0x12 => some (.post params)
  | 0x13 => some (.retire params)
  | 0x14 => some (.release params)
  | 0x15 => some (.retune params)
  | 0x16 => some (.summon params)
  | 0x17 => some (.pin params)
  | 0x18 => some (.unpin params)
  | 0x19 => some (.setKeep params)
  | 0x1A => some (.clearKeep params)
  | 0x1B => some (.clearFault params)
  | 0x20 => some (.sweepStart params)
  | 0x21 => some (.sweepHalt params)
  | 0x22 => some (.sweepResume params)
  | 0x23 => some (.sweepCancel params)
  | 0x24 => some (.readSweep params)
  | 0x28 => some (.readInbound params)
  | 0x29 => some (.flushInbound params)
  | 0x30 => some (.nextAttention params)
  | 0x31 => some (.readStation params)
  | 0x32 => some (.clearCounts params)
  | 0x33 => some (.setMask params)
  | 0x34 => some (.clearCondition params)
  | 0x35 => some (.forceCondition params)
  | 0x40 => some (.configure params)
  | 0x41 => some (.readParam params)
  | 0x42 => some (.setLanes params)
  | 0x43 => some (.openAir params rfReady)
  | 0x44 => some (.closeAir params)
  | 0x45 => some (.stationReset params)
  | 0x46 => some (.flushPort params)
  | 0x47 => some (.clearPortCheck params)
  | 0x48 => some (.identify params)
  | _ => none

/-- The request that a frame's bytes make, by the first two tests of R165: the check byte, then the code. -/
def decodeRequest (bytes : List Byte) (rfReady : Bool) : Instr :=
  if requestCheckRight bytes then
    match bytes with
    | code :: n :: rest =>
        match commandOf code.toNat (rest.take n.toNat) rfReady with
        | some i => i
        | none => .badCommandRequest code (rest.take n.toNat)
    | _ => .badCheckRequest bytes
  else .badCheckRequest bytes

/-- The code and the parameters of a host command; none for an event and for a refused request. -/
def requestOf : Instr → Option (Nat × List Byte)
  | .readRecord p => some (0x10, p)
  | .findCar p => some (0x11, p)
  | .post p => some (0x12, p)
  | .retire p => some (0x13, p)
  | .release p => some (0x14, p)
  | .retune p => some (0x15, p)
  | .summon p => some (0x16, p)
  | .pin p => some (0x17, p)
  | .unpin p => some (0x18, p)
  | .setKeep p => some (0x19, p)
  | .clearKeep p => some (0x1A, p)
  | .clearFault p => some (0x1B, p)
  | .sweepStart p => some (0x20, p)
  | .sweepHalt p => some (0x21, p)
  | .sweepResume p => some (0x22, p)
  | .sweepCancel p => some (0x23, p)
  | .readSweep p => some (0x24, p)
  | .readInbound p => some (0x28, p)
  | .flushInbound p => some (0x29, p)
  | .nextAttention p => some (0x30, p)
  | .readStation p => some (0x31, p)
  | .clearCounts p => some (0x32, p)
  | .setMask p => some (0x33, p)
  | .clearCondition p => some (0x34, p)
  | .forceCondition p => some (0x35, p)
  | .configure p => some (0x40, p)
  | .readParam p => some (0x41, p)
  | .setLanes p => some (0x42, p)
  | .openAir p _ => some (0x43, p)
  | .closeAir p => some (0x44, p)
  | .stationReset p => some (0x45, p)
  | .flushPort p => some (0x46, p)
  | .clearPortCheck p => some (0x47, p)
  | .identify p => some (0x48, p)
  | .badCheckRequest _ | .badCommandRequest _ _ | .resetNAssert | .resetNRelease | .stationResetTakesEffect
  | .slotStart _ | .upFrameReceive _ _ | .rfReadyFall _ | .slotEnd | .sweepDeadline | .backboneFrameReceive _ _
  | .receiveQueueTake _ | .helloTimerExpiry _ | .silenceTimeout _ | .transmitComplete _ | .claimExpiry _
  | .handingExpiry _ => none

/-- The request frame of a command code and its parameters: code, length, parameters, check byte (R177, R178). -/
def requestFrame (code : Nat) (params : List Byte) : List Byte :=
  Machine.withCheckByte (byteOf code :: byteOf params.length :: params)

end Sys2Proof
end

