-- ==== Sys2Proof/Machine/State.lean ====
section
/-! DEFINITION. The state of the part as plain data, block by block as 00_scope.md lists the blocks, and its
values after a power-on reset. -/

namespace Sys2Proof.Machine

/-! ## Names of values -/

/-- The contact states of a record (R20, R22). -/
inductive ContactState where
  | free
  | granted
  | present
  | paging
  | dormant
  | outbound
  | releasing
  deriving DecidableEq, Repr

/-- The urgency of a message, which selects its lane (R104). -/
inductive Urgency where
  | routine
  | urgent
  deriving DecidableEq, Repr

/-- The periods of a turn (R59). -/
inductive Period where
  | one
  | two
  | four
  | eight
  deriving DecidableEq, Repr

/-- The kinds of soft fault, in the order of the table of R33. -/
inductive SoftFault where
  | garbled
  | mismatch
  | reentry
  | degraded
  | claimLapsed
  | noRoute
  | retuneFailed
  | dropped
  | partialTransfer
  deriving DecidableEq, Repr

/-- The one hard fault (R34). -/
inductive HardFault where
  | identity
  deriving DecidableEq, Repr

/-- The sweep mark of a record (R21). -/
inductive SweepMark where
  | none
  | marked
  | answered
  | left
  deriving DecidableEq, Repr

/-- The role of a handover context (R138). -/
inductive HandoverRole where
  | claiming
  | handing
  deriving DecidableEq, Repr

/-- The role of a held cell (R58). -/
inductive CellRole where
  | waiting
  | turn
  | pending
  | lent
  deriving DecidableEq, Repr

/-- The air states (R1). -/
inductive AirState where
  | closed
  | opened
  | closing
  deriving DecidableEq, Repr

/-- How the current slot stands for darkness (R13, R14): ready so far, dark from its start, or dark after the
fact, with whether its down frame had begun when RF_READY fell. -/
inductive SlotLight where
  | ready
  | darkFromStart
  | darkAfterFact (begun : Bool)
  deriving DecidableEq, Repr

/-- Where a message came from (R104). -/
inductive Source where
  | host
  | dispatch (relay : Nat)
  deriving DecidableEq, Repr

/-- How a message came onto its list (R104). -/
inductive Placement where
  | transferred
  | posted
  deriving DecidableEq, Repr

/-- The neighbour states of a port (R125). -/
inductive NeighbourState where
  | unknown
  | up
  | down
  deriving DecidableEq, Repr

/-- The sources between which an arbiter chooses (R134). -/
inductive ArbiterSource where
  | handover
  | traffic
  deriving DecidableEq, Repr

/-- The arbiter mode and the delivery mode (R110, R134). -/
inductive ServeMode where
  | fixed
  | rotating
  deriving DecidableEq, Repr

/-- The states of the Sweep Unit (R156). -/
inductive SweepState where
  | idle
  | running
  | halted
  | complete
  deriving DecidableEq, Repr

/-- The outcomes of a sweep (R162). -/
inductive SweepOutcome where
  | allAccounted
  | deadline
  deriving DecidableEq, Repr

/-- The condition classes, in the order of R171. -/
inductive ConditionClass where
  | rosterFull
  | planFull
  | poolLow
  | airCheck
  | airDark
  | linkDown
  | identity
  | portCheck
  deriving DecidableEq, Repr

/-- The actions of a condition class (R171). -/
inductive Action where
  | ignore
  | notify
  | closeEntry
  deriving DecidableEq, Repr

/-- The outcomes of SUMMON_ENDED, in the order of R168. -/
inductive SummonOutcome where
  | contact
  | failed
  | handed
  | cancelled
  deriving DecidableEq, Repr

/-- The outcomes of RETUNE_ENDED, in the order of R168. -/
inductive RetuneOutcome where
  | done
  | failed
  deriving DecidableEq, Repr

/-- The attention reasons, in the order of R168. -/
inductive Reason where
  | contact
  | lapsed
  | dormant
  | retired
  | fading
  | handedOut
  | handedIn
  | softFault
  | hardFault
  | summonEnded (outcome : SummonOutcome)
  | retuneEnded (outcome : RetuneOutcome)
  deriving DecidableEq, Repr

/-- The statuses of a response (R165), in the order of their codes (R177). -/
inductive Status where
  | done
  | busy
  | badIndex
  | badState
  | noRoom
  | badValue
  | badCheck
  | badCommand
  | notHeld
  deriving DecidableEq, Repr

/-- The reasons of a REFUSED frame (R126). -/
inductive RefusedReason where
  | kept
  | contested
  | notHeld
  | busy
  deriving DecidableEq, Repr

/-- The outcomes of a NOTE frame (R126). -/
inductive NoteOutcome where
  | posted
  | delivered
  | dropped
  | full
  | unreachable
  deriving DecidableEq, Repr

/-! ## Frames -/

/-- A turn: a slot 3 to 31, a period, and a starting phase below the period (R59). -/
structure Turn where
  slot : Nat
  period : Period
  phase : Nat
  deriving DecidableEq, Repr

/-- A grant as a BEACON carries it (R8). -/
structure BeaconGrant where
  carId : Nat
  tag : Nat
  turn : Turn
  deriving DecidableEq, Repr

/-- A page of a BEACON: the record chosen and the car ID it held when it was chosen (R83, R84). -/
structure BeaconPage where
  record : Fin 48
  carId : Nat
  deriving DecidableEq, Repr

/-- The contents of a BEACON (R8). -/
structure Beacon where
  station : Nat
  cycle : BitVec 8
  entryOpen : Bool
  sweepActive : Bool
  grants : List BeaconGrant
  pages : List BeaconPage
  deriving DecidableEq, Repr

/-- The message of a POLL (R10). -/
structure PollMessage where
  urgency : Urgency
  body : List Byte
  deriving DecidableEq, Repr

/-- The contents of a POLL (R10); the RETUNE flag is set exactly when the target is present. -/
structure Poll where
  carId : Nat
  tag : Nat
  release : Bool
  scan : Bool
  sweep : Bool
  extension : Bool
  retune : Option Turn
  downBit : Bool
  inboundAck : Bool
  message : Option PollMessage
  deriving DecidableEq, Repr

/-- A down frame (R8, R9, R10). -/
inductive DownFrame where
  | beacon (contents : Beacon)
  | entry (station : Nat) (slotNumber : Nat)
  | poll (contents : Poll)
  deriving DecidableEq, Repr

/-- An up frame as the receiver took it, with the transceiver's level reading (R12). -/
structure UpFrame where
  bytes : List Byte
  level : Nat
  deriving DecidableEq, Repr

/-- One message of a TRANSFER (R126). -/
structure TransferMessage where
  urgency : Urgency
  source : Source
  receipt : Bool
  attempts : Nat
  body : List Byte
  deriving DecidableEq, Repr

/-- The fields of a backbone frame after its header, by kind (R126). In a LOCATED the contact state `none` is
NONE, and the peer is present only with OUTBOUND. -/
inductive Payload where
  | hello (station : Nat)
  | locate (car query : Nat)
  | located (car query reporting : Nat) (contact : Option ContactState) (level : Nat) (peer : Option Nat)
  | relay (car number : Nat) (urgency : Urgency) (receipt : Bool) (body : List Byte)
  | note (car number : Nat) (outcome : NoteOutcome) (reporting : Nat)
  | uplink (car reporting : Nat) (body : List Byte)
  | claim (car tag level try_ : Nat)
  | transfer (car cls : Nat) (messages : List TransferMessage)
  | taken (car accepted : Nat)
  | refused (car : Nat) (reason : RefusedReason)
  deriving DecidableEq, Repr

/-- A backbone frame: its header and its fields (R126). -/
structure BackboneFrame where
  source : Nat
  dest : Nat
  hop : Nat
  payload : Payload
  deriving DecidableEq, Repr

/-! ## The Roster Engine -/

/-- A retune context (R68). -/
structure RetuneContext where
  target : Turn
  tries : Nat
  deriving DecidableEq, Repr

/-- A handover context (R138), with whether its CLAIM or TRANSFER is due and, for a CLAIMING context, the claim
level. The deadline is a point on the millisecond timer. -/
structure HandoverContext where
  role : HandoverRole
  peer : Nat
  tries : Nat
  deadline : Nat
  due : Bool
  claimLevel : Option Nat
  deriving DecidableEq, Repr

/-- A record of the roster (R20, R21). -/
structure Record where
  contact : ContactState
  carId : Nat
  tag : Option Nat
  cls : Option Nat
  pinned : Bool
  keep : Bool
  origin : Option Nat
  lastHanding : Option Nat
  turn : Option Turn
  retune : Option RetuneContext
  missCount : Nat
  grantMisses : Nat
  mismatchCount : Nat
  extensions : Nat
  level : Nat
  lowCount : Nat
  fading : Bool
  downBit : Bool
  upBit : Bool
  messages : List (Fin 64)
  inFlight : Option (Fin 64)
  lastLane : Urgency
  pageCount : Nat
  summoned : Bool
  handover : Option HandoverContext
  mark : SweepMark
  soft : Option SoftFault
  hard : Option HardFault
  deriving DecidableEq, Repr

/-- The values a record holds after a reset, and, but for car ID and mark, whenever it becomes FREE (R20, R21, R41). -/
def Record.free : Record :=
  { contact := .free, carId := 0, tag := none, cls := none, pinned := false, keep := false, origin := none,
    lastHanding := none, turn := none, retune := none, missCount := 0, grantMisses := 0, mismatchCount := 0,
    extensions := 0, level := 0, lowCount := 0, fading := false, downBit := false, upBit := false, messages := [],
    inFlight := none, lastLane := .routine, pageCount := 0, summoned := false, handover := none, mark := .none,
    soft := none, hard := none }

/-- A command held for a record in exchange (R36); RETUNE with its period code. -/
inductive HeldCommand where
  | retire
  | release
  | retune (code : Byte)
  | clearFault
  | pin
  | unpin
  deriving DecidableEq, Repr

/-- Work held for the record in exchange (R36): a frame with the port it arrived on, or a command. -/
inductive HeldWork where
  | frame (port : Port) (contents : BackboneFrame)
  | command (contents : HeldCommand)
  deriving DecidableEq, Repr

/-- The Roster Engine's state (section 2, R41). -/
structure Roster where
  records : Vector Record 48
  tagCounter : Nat
  pagePointer : Fin 48
  /-- The records that left PAGING during the slot 0 whose page list was chosen last: a page of theirs is passed over
  when that BEACON is handed back (R84). -/
  passedOver : List (Fin 48)
  summonCount : Nat
  pinnedCount : Nat
  held : List HeldWork
  deriving DecidableEq, Repr

/-- The roster after either reset (R41). -/
def Roster.reset : Roster :=
  { records := Vector.replicate 48 Record.free, tagCounter := 1, pagePointer := 0, passedOver := [],
    summonCount := 0, pinnedCount := 0, held := [] }

/-! ## The Air Framer -/

/-- A record in exchange: the role of the slot's cell and the POLL built at LEAD (R7, R18). -/
structure Exchange where
  record : Fin 48
  role : CellRole
  poll : Poll
  deriving DecidableEq, Repr

/-- The Air Framer's state. -/
structure Air where
  state : AirState
  cycle : BitVec 8
  slot : Option (Fin 32)
  work : Option SlotPhase
  entryOpen : Bool
  darkCount : Nat
  garbledRun : Nat
  grants : List (Fin 48)
  beacon : Option Beacon
  light : SlotLight
  down : Option DownFrame
  up : Option UpFrame
  exchange : Option Exchange
  deriving DecidableEq, Repr

/-- The Air Framer after either reset (R19). -/
def Air.reset : Air :=
  { state := .closed, cycle := 0#8, slot := none, work := none, entryOpen := false, darkCount := 0, garbledRun := 0,
    grants := [], beacon := none, light := .ready, down := none, up := none, exchange := none }

/-! ## The Turn Plan -/

/-- What a held cell holds (R58). -/
structure CellHolding where
  holder : Fin 48
  role : CellRole
  deriving DecidableEq, Repr

/-- The 232 cells; `none` is a free cell (R58). Slot s and phase p stand at (s − 3) × 8 + p. -/
abbrev Cells := Vector (Option CellHolding) 232

/-- Every cell free (R74). -/
def Cells.reset : Cells := Vector.replicate 232 none

/-! ## The Delivery Engine -/

/-- A message in a pool buffer (R104). -/
structure Message where
  target : Fin 48
  urgency : Urgency
  source : Source
  receipt : Bool
  attempts : Nat
  body : List Byte
  placement : Placement
  deriving DecidableEq, Repr

/-- The 64 buffers; `none` is a free buffer (R104). -/
abbrev Pool := Vector (Option Message) 64

/-- Every buffer free (R121). -/
def Pool.reset : Pool := Vector.replicate 64 none

/-- An entry of the inbound queue (R116). -/
structure InboundEntry where
  carId : Nat
  record : Fin 48
  body : List Byte
  deriving DecidableEq, Repr

/-! ## The Backbone Ports -/

/-- The state of one port (table at the head of Backbone Links). The two timers hold the milliseconds since they
were restarted. -/
structure PortState where
  neighbour : NeighbourState
  neighbourNumber : Option Nat
  helloTimer : Nat
  helloDue : Bool
  silence : Nat
  receive : List BackboneFrame
  traffic : List BackboneFrame
  sending : Option BackboneFrame
  rotation : Fin 48
  lastServed : ArbiterSource
  checkErrors : Nat
  receiveFull : Nat
  trafficFull : Nat
  hopDrops : Nat
  deriving DecidableEq, Repr

/-- A port held in its initial state (R137); the HELLO that is due at once on a port in use is made due where the
reset takes effect. -/
def PortState.reset : PortState :=
  { neighbour := .unknown, neighbourNumber := none, helloTimer := 0, helloDue := false, silence := 0, receive := [],
    traffic := [], sending := none, rotation := 47, lastServed := .traffic, checkErrors := 0, receiveFull := 0,
    trafficFull := 0, hopDrops := 0 }

/-- The two ports. -/
structure Ports where
  inbye : PortState
  outbye : PortState
  deriving DecidableEq, Repr

/-- Both ports in their initial state. -/
def Ports.reset : Ports := { inbye := PortState.reset, outbye := PortState.reset }

/-! ## The Sweep Unit -/

/-- An entry of the unanswered list (R162). -/
structure SweepEntry where
  record : Fin 48
  carId : Nat
  deriving DecidableEq, Repr

/-- The result record of a sweep (R162). -/
structure SweepResult where
  outcome : SweepOutcome
  first : Nat
  last : Nat
  marked : Nat
  answered : Nat
  left : Nat
  entered : Nat
  used : Nat
  unanswered : List SweepEntry
  deriving DecidableEq, Repr

/-- The Sweep Unit's state (R156). -/
structure Sweep where
  state : SweepState
  first : Nat
  last : Nat
  deadline : Nat
  closeEntry : Bool
  haltPending : Bool
  used : Nat
  marked : Nat
  answered : Nat
  left : Nat
  entered : Nat
  result : Option SweepResult
  deriving DecidableEq, Repr

/-- The Sweep Unit IDLE, with no result and no counts (R156). -/
def Sweep.reset : Sweep :=
  { state := .idle, first := 0, last := 0, deadline := 0, closeEntry := false, haltPending := false, used := 0,
    marked := 0, answered := 0, left := 0, entered := 0, result := none }

/-! ## The Command Port and the Condition Unit -/

/-- The set of reasons of an attention entry: one bit for each reason in the order of R168, and the outcomes of
SUMMON_ENDED and RETUNE_ENDED when they are in the set. -/
structure ReasonSet where
  bits : BitVec 11
  summonOutcome : Option SummonOutcome
  retuneOutcome : Option RetuneOutcome
  deriving DecidableEq, Repr

/-- An entry of the attention list (R168). -/
structure AttentionEntry where
  record : Fin 48
  reasons : ReasonSet
  deriving DecidableEq, Repr

/-- A response: its status and its result bytes (R165, R177). -/
structure Response where
  status : Status
  results : List Byte
  deriving DecidableEq, Repr

/-- The Command Port's state (R165, R168, R170, R173). -/
structure HostPort where
  portCheck : Nat
  attention : List AttentionEntry
  sweepEnded : Bool
  hailsRefused : Nat
  hailsHeld : Nat
  garbledFrames : Nat
  deriving DecidableEq, Repr

/-- The Command Port after a power-on reset (R166). -/
def HostPort.reset : HostPort :=
  { portCheck := 0, attention := [], sweepEnded := false, hailsRefused := 0, hailsHeld := 0, garbledFrames := 0 }

/-- The stored flags of a condition class; the active flag is computed from cause and forced (R171). -/
structure ClassFlags where
  cause : Bool
  latched : Bool
  forced : Bool
  deriving DecidableEq, Repr

/-- The eight classes, in the order of R171. -/
abbrev Conditions := Vector ClassFlags 8

/-- Every flag clear (R171). -/
def Conditions.reset : Conditions := Vector.replicate 8 { cause := false, latched := false, forced := false }

/-! ## The parameters -/

/-- The parameters of R167, with the lane enables (R110) and the two masks (R169). -/
structure Params where
  station : Nat
  classPeriods : Vector Period 4
  lapseLimit : Nat
  grantLimit : Nat
  pageLimit : Nat
  attemptLimit : Nat
  recordLimit : Nat
  lo : Nat
  hi : Nat
  fadeCount : Nat
  contestMargin : Nat
  handoverTimeout : Nat
  inbyeUse : Bool
  outbyeUse : Bool
  arbiterMode : ServeMode
  deliveryMode : ServeMode
  inboundLevel : Nat
  entryEnable : Bool
  poolLow : Nat
  airCheck : Nat
  darkLimit : Nat
  portCheckThreshold : Nat
  actions : Vector Action 8
  urgentLane : Bool
  routineLane : Bool
  attentionMask : BitVec 11
  eventMask : BitVec 4
  deriving DecidableEq, Repr

/-- The parameters after a power-on reset (R167, R110, R169). -/
def Params.reset : Params :=
  { station := 0, classPeriods := #v[.four, .two, .one, .eight], lapseLimit := 6, grantLimit := 2, pageLimit := 8,
    attemptLimit := 4, recordLimit := 4, lo := 12, hi := 20, fadeCount := 3, contestMargin := 6,
    handoverTimeout := 2000, inbyeUse := true, outbyeUse := true, arbiterMode := .fixed, deliveryMode := .fixed,
    inboundLevel := 24, entryEnable := true, poolLow := 8, airCheck := 8, darkLimit := 32, portCheckThreshold := 3,
    actions := Vector.replicate 8 .notify, urgentLane := true, routineLane := true, attentionMask := 0#11,
    eventMask := 0#4 }

/-! ## The part -/

/-- The state of the part and the queue of commands that wait for it. -/
structure State where
  air : Air
  roster : Roster
  cells : Cells
  pool : Pool
  inbound : List InboundEntry
  ports : Ports
  sweep : Sweep
  host : HostPort
  conditions : Conditions
  params : Params
  /-- The Handover Controller's millisecond timer (R138). -/
  clock : Nat
  /-- A station reset awaits its slot end (R166). -/
  resetPending : Bool
  /-- RESET_N is asserted (R166). -/
  resetHeld : Bool
  /-- RF_READY as last sampled or seen to fall (R13, R14). -/
  rfReady : Bool
  /-- The last response frame sent (R165). -/
  response : Option Response
  /-- The commands that wait, the oldest first. -/
  pending : List Instr
  deriving DecidableEq, Repr

/-- The part right after a power-on reset, RESET_N released (R166): CLOSED, station number 0, every parameter at its
reset value. The HELLO due at once on each port (R137) has been chosen by its idle arbiter and discarded, because
the station number is 0 (R123, R133); DEDUCED, entry 10. -/
def State.reset : State :=
  { air := Air.reset, roster := Roster.reset, cells := Cells.reset, pool := Pool.reset, inbound := [],
    ports := Ports.reset, sweep := Sweep.reset, host := HostPort.reset, conditions := Conditions.reset,
    params := Params.reset, clock := 0, resetPending := false, resetHeld := false, rfReady := false,
    response := none, pending := [] }

/-! ## The reasons a step can stop -/

/-- No rule of the spec stops the part, so no meaning raises a fault: the type has no constructor, and no step of the
model ends in one. Safe: nothing is cut off by it. -/
inductive Fault where
  deriving DecidableEq, Repr

/-- The refusals of the model. -/
inductive Refusal where
  /-- Raised by an arm of `exec` whose command has no meaning in the model yet; safe, since such a step goes nowhere.
  No arm raises it now. -/
  | notModelled (mnemonic : String)
  deriving DecidableEq, Repr

end Sys2Proof.Machine
end

