-- ==== Sys2Proof/Machine/Operands.lean ====
section
/-! DEFINITION. The operand forms: the coding of every named value (R174 to R177), the reading of a request's
parameter bytes, and the names of the parameters of R167. -/

namespace Sys2Proof.Machine

/-! ## Numbers and bits -/

/-- A two-byte field, most significant byte first (R174). -/
def wordOf (hi lo : Byte) : Nat := hi.toNat * 256 + lo.toNat

/-- Bit `k` of a byte. -/
def bitOf (b : Byte) (k : Nat) : Bool := b.toNat.testBit k

/-- The weight that a flag adds to its byte when it stands in bit `k`. -/
def flagAt (k : Nat) (f : Bool) : Nat := if f then 2 ^ k else 0

/-- A flag as one byte (R177). -/
def flagByte (f : Bool) : Byte := byteOf (flagAt 0 f)

/-- An optional field of a result: 0 when absent, 1 and then the value when present (R177). -/
def optionBytes {α : Type} (f : α → List Byte) : Option α → List Byte
  | none => [byteOf 0]
  | some x => byteOf 1 :: f x

/-- A list of a result: its count in one byte, then its entries (R177). -/
def listBytes {α : Type} (f : α → List Byte) (xs : List α) : List Byte := byteOf xs.length :: xs.flatMap f

/-- A record index in a byte, if it is 0 to 47. -/
def recordIndex (b : Byte) : Option (Fin 48) := if h : b.toNat < 48 then some ⟨b.toNat, h⟩ else none

/-- Whether a number is a car ID, 1 to 4095. -/
def isCarId (n : Nat) : Bool := 1 ≤ n && n ≤ 4095

/-- Whether a number is a station number, 1 to 200. -/
def isStation (n : Nat) : Bool := 1 ≤ n && n ≤ 200

/-- Whether a byte string can be a body, 1 to 24 bytes (R104). -/
def isBody (body : List Byte) : Bool := 1 ≤ body.length && body.length ≤ Config.bodyLimit

/-! ## Codes of named values -/

/-- The cycles of a period (R59). -/
def Period.cycles : Period → Nat
  | .one => 1
  | .two => 2
  | .four => 4
  | .eight => 8

/-- The period code (R174). -/
def Period.code : Period → Nat
  | .one => 0
  | .two => 1
  | .four => 2
  | .eight => 3

/-- The period that a code names, if any (R174). -/
def Period.ofCode (n : Nat) : Option Period :=
  match n with
  | 0 => some .one
  | 1 => some .two
  | 2 => some .four
  | 3 => some .eight
  | _ => none

/-- The periods from this one up, in the order in which an allocation tries them (R61). -/
def Period.andLonger : Period → List Period
  | .one => [.one, .two, .four, .eight]
  | .two => [.two, .four, .eight]
  | .four => [.four, .eight]
  | .eight => [.eight]

/-- The urgency code: 0 ROUTINE, 1 URGENT (R174). -/
def Urgency.code : Urgency → Nat
  | .routine => 0
  | .urgent => 1

/-- The urgency that a bit names (R174). -/
def Urgency.ofBit (b : Bool) : Urgency := if b then .urgent else .routine

/-- The urgency that a code names, if any (R106). -/
def Urgency.ofCode (n : Nat) : Option Urgency :=
  match n with
  | 0 => some .routine
  | 1 => some .urgent
  | _ => none

/-- The contact state in a result: as in the backbone frames, with FREE coded 7 (R177). -/
def ContactState.code : ContactState → Nat
  | .free => 7
  | .granted => 1
  | .present => 2
  | .paging => 3
  | .dormant => 4
  | .outbound => 5
  | .releasing => 6

/-- The contact state of a LOCATED frame, `none` being NONE (R176). -/
def locateCode : Option ContactState → Nat
  | none => 0
  | some c => c.code

/-- The contact state that a LOCATED frame's code names, if any (R176). -/
def locateOfCode (n : Nat) : Option (Option ContactState) :=
  match n with
  | 0 => some none
  | 1 => some (some .granted)
  | 2 => some (some .present)
  | 3 => some (some .paging)
  | 4 => some (some .dormant)
  | 5 => some (some .outbound)
  | 6 => some (some .releasing)
  | _ => none

/-- The NOTE outcome code (R176). -/
def NoteOutcome.code : NoteOutcome → Nat
  | .posted => 1
  | .delivered => 2
  | .dropped => 3
  | .full => 4
  | .unreachable => 5

/-- The NOTE outcome that a code names, if any (R176). -/
def NoteOutcome.ofCode (n : Nat) : Option NoteOutcome :=
  match n with
  | 1 => some .posted
  | 2 => some .delivered
  | 3 => some .dropped
  | 4 => some .full
  | 5 => some .unreachable
  | _ => none

/-- The REFUSED reason code (R176). -/
def RefusedReason.code : RefusedReason → Nat
  | .kept => 1
  | .contested => 2
  | .notHeld => 3
  | .busy => 4

/-- The REFUSED reason that a code names, if any (R176). -/
def RefusedReason.ofCode (n : Nat) : Option RefusedReason :=
  match n with
  | 1 => some .kept
  | 2 => some .contested
  | 3 => some .notHeld
  | 4 => some .busy
  | _ => none

/-- The status code of a response (R177). -/
def Status.code : Status → Nat
  | .done => 0
  | .busy => 1
  | .badIndex => 2
  | .badState => 3
  | .noRoom => 4
  | .badValue => 5
  | .badCheck => 6
  | .badCommand => 7
  | .notHeld => 8

/-- A soft fault's place in the table of R33 (R177). -/
def SoftFault.code : SoftFault → Nat
  | .garbled => 0
  | .mismatch => 1
  | .reentry => 2
  | .degraded => 3
  | .claimLapsed => 4
  | .noRoute => 5
  | .retuneFailed => 6
  | .dropped => 7
  | .partialTransfer => 8

/-- The hard fault's place in R21 (R177). -/
def HardFault.code : HardFault → Nat
  | .identity => 0

/-- A sweep mark's place in R21 (R177). -/
def SweepMark.code : SweepMark → Nat
  | .none => 0
  | .marked => 1
  | .answered => 2
  | .left => 3

/-- A handover role's place in R21 (R177). -/
def HandoverRole.code : HandoverRole → Nat
  | .claiming => 0
  | .handing => 1

/-- A Sweep Unit state's place in R156 (R177). -/
def SweepState.code : SweepState → Nat
  | .idle => 0
  | .running => 1
  | .halted => 2
  | .complete => 3

/-- A sweep outcome's place in R162 (R177). -/
def SweepOutcome.code : SweepOutcome → Nat
  | .allAccounted => 0
  | .deadline => 1

/-- An air state's place in R1 (R177). -/
def AirState.code : AirState → Nat
  | .closed => 0
  | .opened => 1
  | .closing => 2

/-- A neighbour state's place in the port state table (R177). -/
def NeighbourState.code : NeighbourState → Nat
  | .unknown => 0
  | .up => 1
  | .down => 2

/-- The mode code: 0 FIXED, 1 ROTATING (R177). -/
def ServeMode.code : ServeMode → Nat
  | .fixed => 0
  | .rotating => 1

/-- The mode that a code names, if any. -/
def ServeMode.ofCode (n : Nat) : Option ServeMode :=
  match n with
  | 0 => some .fixed
  | 1 => some .rotating
  | _ => none

/-- The action code (R177). -/
def Action.code : Action → Nat
  | .ignore => 0
  | .notify => 1
  | .closeEntry => 2

/-- The action that a code names, if any. -/
def Action.ofCode (n : Nat) : Option Action :=
  match n with
  | 0 => some .ignore
  | 1 => some .notify
  | 2 => some .closeEntry
  | _ => none

/-- A flag that takes 0 and 1 alone (R177). -/
def flagOfCode (n : Nat) : Option Bool :=
  match n with
  | 0 => some false
  | 1 => some true
  | _ => none

/-- The port that a code names: 0 INBYE, 1 OUTBYE (R177). -/
def Port.ofCode (n : Nat) : Option Port :=
  match n with
  | 0 => some .inbye
  | 1 => some .outbye
  | _ => none

/-- The number of a condition class, its place in R171 (R177). -/
def ConditionClass.index : ConditionClass → Fin 8
  | .rosterFull => 0
  | .planFull => 1
  | .poolLow => 2
  | .airCheck => 3
  | .airDark => 4
  | .linkDown => 5
  | .identity => 6
  | .portCheck => 7

/-- The eight classes in their order. -/
def ConditionClass.all : List ConditionClass :=
  [.rosterFull, .planFull, .poolLow, .airCheck, .airDark, .linkDown, .identity, .portCheck]

/-- The class that a number names, if any. -/
def ConditionClass.ofCode (n : Nat) : Option ConditionClass := ConditionClass.all[n]?

/-- The outcome of SUMMON_ENDED, its place in R168 (R177). -/
def SummonOutcome.code : SummonOutcome → Nat
  | .contact => 0
  | .failed => 1
  | .handed => 2
  | .cancelled => 3

/-- The outcome of RETUNE_ENDED, its place in R168 (R177). -/
def RetuneOutcome.code : RetuneOutcome → Nat
  | .done => 0
  | .failed => 1

/-- The bit of a reason in the attention mask and in a set of reasons: its place in R168 (R177). -/
def Reason.bit : Reason → Fin 11
  | .contact => 0
  | .lapsed => 1
  | .dormant => 2
  | .retired => 3
  | .fading => 4
  | .handedOut => 5
  | .handedIn => 6
  | .softFault => 7
  | .hardFault => 8
  | .summonEnded _ => 9
  | .retuneEnded _ => 10

/-! ## The parameters of R167 -/

/-- The parameters, each named by its number of R177. -/
inductive ParamName where
  | station
  | classPeriod (cls : Fin 4)
  | lapseLimit
  | grantLimit
  | pageLimit
  | attemptLimit
  | recordLimit
  | lo
  | hi
  | fadeCount
  | contestMargin
  | handoverTimeout
  | portUse (port : Port)
  | arbiterMode
  | deliveryMode
  | inboundLevel
  | entryEnable
  | poolLow
  | airCheck
  | darkLimit
  | portCheckThreshold
  | action (cls : ConditionClass)
  deriving DecidableEq, Repr

/-- The parameter that a number names, if any (R177). -/
def ParamName.ofCode (n : Nat) : Option ParamName :=
  match n with
  | 0x01 => some .station
  | 0x02 => some (.classPeriod 0)
  | 0x03 => some (.classPeriod 1)
  | 0x04 => some (.classPeriod 2)
  | 0x05 => some (.classPeriod 3)
  | 0x06 => some .lapseLimit
  | 0x07 => some .grantLimit
  | 0x08 => some .pageLimit
  | 0x09 => some .attemptLimit
  | 0x0A => some .recordLimit
  | 0x0B => some .lo
  | 0x0C => some .hi
  | 0x0D => some .fadeCount
  | 0x0E => some .contestMargin
  | 0x0F => some .handoverTimeout
  | 0x10 => some (.portUse .inbye)
  | 0x11 => some (.portUse .outbye)
  | 0x12 => some .arbiterMode
  | 0x13 => some .deliveryMode
  | 0x14 => some .inboundLevel
  | 0x15 => some .entryEnable
  | 0x16 => some .poolLow
  | 0x17 => some .airCheck
  | 0x18 => some .darkLimit
  | 0x19 => some .portCheckThreshold
  | n => if 0x20 ≤ n then (ConditionClass.ofCode (n - 0x20)).map .action else none

/-- Whether a port is in use (R122). -/
def Params.inUse (p : Params) : Port → Bool
  | .inbye => p.inbyeUse
  | .outbye => p.outbyeUse

/-- The action of a class (R171). -/
def Params.actionOf (p : Params) (c : ConditionClass) : Action := p.actions[c.index]

/-- The value of a parameter, coded as CONFIGURE takes it (R167, R177). -/
def Params.value (p : Params) : ParamName → Nat
  | .station => p.station
  | .classPeriod k => p.classPeriods[k].code
  | .lapseLimit => p.lapseLimit
  | .grantLimit => p.grantLimit
  | .pageLimit => p.pageLimit
  | .attemptLimit => p.attemptLimit
  | .recordLimit => p.recordLimit
  | .lo => p.lo
  | .hi => p.hi
  | .fadeCount => p.fadeCount
  | .contestMargin => p.contestMargin
  | .handoverTimeout => p.handoverTimeout
  | .portUse q => flagAt 0 (p.inUse q)
  | .arbiterMode => p.arbiterMode.code
  | .deliveryMode => p.deliveryMode.code
  | .inboundLevel => p.inboundLevel
  | .entryEnable => flagAt 0 p.entryEnable
  | .poolLow => p.poolLow
  | .airCheck => p.airCheck
  | .darkLimit => p.darkLimit
  | .portCheckThreshold => p.portCheckThreshold
  | .action c => (p.actionOf c).code

/-- Whether a value is in a parameter's range; Lo and Hi are weighed against each other as they stand (R99, R167). -/
def Params.inRange (p : Params) (name : ParamName) (v : Nat) : Bool :=
  match name with
  | .station => isStation v
  | .classPeriod _ => v ≤ 3
  | .lapseLimit => 2 ≤ v && v ≤ 15
  | .grantLimit => 1 ≤ v && v ≤ 4
  | .pageLimit => 1 ≤ v && v ≤ 15
  | .attemptLimit => 1 ≤ v && v ≤ 7
  | .recordLimit => 1 ≤ v && v ≤ 8
  | .lo => v ≤ 62 && v < p.hi
  | .hi => v ≤ 63 && p.lo < v
  | .fadeCount => 1 ≤ v && v ≤ 15
  | .contestMargin => v ≤ 15
  | .handoverTimeout => 500 ≤ v && v ≤ 4000 && v % 250 == 0
  | .portUse _ => v ≤ 1
  | .arbiterMode => v ≤ 1
  | .deliveryMode => v ≤ 1
  | .inboundLevel => 1 ≤ v && v ≤ 32
  | .entryEnable => v ≤ 1
  | .poolLow => v ≤ 63
  | .airCheck => 1 ≤ v && v ≤ 31
  | .darkLimit => 1 ≤ v && v ≤ 255
  | .portCheckThreshold => 1 ≤ v && v ≤ 3
  | .action _ => v ≤ 2

/-- The parameters with one of them set to a value that is in its range. -/
def Params.set (p : Params) (name : ParamName) (v : Nat) : Params :=
  match name with
  | .station => { p with station := v }
  | .classPeriod k =>
      match Period.ofCode v with
      | some q => { p with classPeriods := p.classPeriods.set k q }
      | none => p
  | .lapseLimit => { p with lapseLimit := v }
  | .grantLimit => { p with grantLimit := v }
  | .pageLimit => { p with pageLimit := v }
  | .attemptLimit => { p with attemptLimit := v }
  | .recordLimit => { p with recordLimit := v }
  | .lo => { p with lo := v }
  | .hi => { p with hi := v }
  | .fadeCount => { p with fadeCount := v }
  | .contestMargin => { p with contestMargin := v }
  | .handoverTimeout => { p with handoverTimeout := v }
  | .portUse .inbye => { p with inbyeUse := v == 1 }
  | .portUse .outbye => { p with outbyeUse := v == 1 }
  | .arbiterMode =>
      match ServeMode.ofCode v with
      | some m => { p with arbiterMode := m }
      | none => p
  | .deliveryMode =>
      match ServeMode.ofCode v with
      | some m => { p with deliveryMode := m }
      | none => p
  | .inboundLevel => { p with inboundLevel := v }
  | .entryEnable => { p with entryEnable := v == 1 }
  | .poolLow => { p with poolLow := v }
  | .airCheck => { p with airCheck := v }
  | .darkLimit => { p with darkLimit := v }
  | .portCheckThreshold => { p with portCheckThreshold := v }
  | .action c =>
      match Action.ofCode v with
      | some a => { p with actions := p.actions.set c.index a }
      | none => p

end Sys2Proof.Machine
end

