-- ==== Sys2Proof/Machine/Flags.lean ====
section
/-! DEFINITION. The flags of the Condition Unit (R171, R172), the causes that follow a count (R104, R165, R171),
and the station events with ATTN (R170). -/

namespace Sys2Proof.Machine

/-- A class is active while its cause flag or its forced flag is set (R171). -/
def ClassFlags.active (f : ClassFlags) : Bool := f.cause || f.forced

/-- The flags after a change: a class that becomes active from inactive is latched (R171). -/
def ClassFlags.latchRise (old new : ClassFlags) : ClassFlags :=
  { new with latched := new.latched || (new.active && !old.active) }

/-- The flags of a class. -/
def State.classFlags (s : State) (c : ConditionClass) : ClassFlags := s.conditions[c.index]

/-- The flags of a class replaced. -/
def State.setClass (s : State) (c : ConditionClass) (f : ClassFlags) : State :=
  { s with conditions := s.conditions.set c.index f }

/-- A report of a cause from its owner (R172). -/
def State.reportCause (s : State) (c : ConditionClass) (cause : Bool) : State :=
  s.setClass c ((s.classFlags c).latchRise { s.classFlags c with cause := cause })

/-- The forced flag set or cleared (R171). -/
def State.forceClass (s : State) (c : ConditionClass) (forced : Bool) : State :=
  s.setClass c ((s.classFlags c).latchRise { s.classFlags c with forced := forced })

/-- The number of free buffers (R104). -/
def State.freeBuffers (s : State) : Nat := s.pool.toList.countP Option.isNone

/-- The number of free cells (R58). -/
def State.freeCells (s : State) : Nat := s.cells.toList.countP Option.isNone

/-- The Delivery Engine's report of the free buffers for POOL_LOW (R104). -/
def State.reportPool (s : State) : State := s.reportCause .poolLow (s.freeBuffers < s.params.poolLow)

/-- The Air Framer's report of the consecutive-garbled count for AIR_CHECK (R16, R171). -/
def State.reportAirCheck (s : State) : State := s.reportCause .airCheck (s.params.airCheck ≤ s.air.garbledRun)

/-- The Air Framer's report of the dark count for AIR_DARK (R15, R171). -/
def State.reportAirDark (s : State) : State := s.reportCause .airDark (s.params.darkLimit ≤ s.air.darkCount)

/-- Whether a port in use has its neighbour DOWN (R125). -/
def State.linkDown (s : State) : Bool :=
  (s.params.inbyeUse && s.ports.inbye.neighbour == .down) || (s.params.outbyeUse && s.ports.outbye.neighbour == .down)

/-- The ports' report for LINK_DOWN (R125). -/
def State.reportLinkDown (s : State) : State := s.reportCause .linkDown s.linkDown

/-- The Roster Engine's report for IDENTITY: whether a record holds the hard fault (R34, R35). -/
def State.reportIdentity (s : State) : State :=
  s.reportCause .identity (s.roster.records.toList.any fun r => r.hard.isSome)

/-- The Command Port's report of the port check count for PORT_CHECK (R165). -/
def State.reportPortCheck (s : State) : State :=
  s.reportCause .portCheck (s.params.portCheckThreshold ≤ s.host.portCheck)

/-- Whether an active class has the action CLOSE_ENTRY (R17, R171). -/
def State.entryClosedByCondition (s : State) : Bool :=
  ConditionClass.all.any fun c => (s.classFlags c).active && s.params.actionOf c == .closeEntry

/-- ATTENTION is pending while the attention list is not empty (R170). -/
def State.attentionPending (s : State) : Bool := !s.host.attention.isEmpty

/-- INBOUND_LEVEL is pending while the inbound queue holds at least the inbound level (R120, R170). -/
def State.inboundPending (s : State) : Bool := s.params.inboundLevel ≤ s.inbound.length

/-- CONDITION is pending while a class is latched and its action is not IGNORE (R170). -/
def State.conditionPending (s : State) : Bool :=
  ConditionClass.all.any fun c => (s.classFlags c).latched && s.params.actionOf c != .ignore

/-- The pending states of the four station events, in the order of R170. -/
def State.pendingEvents (s : State) : List Bool :=
  [s.attentionPending, s.host.sweepEnded, s.inboundPending, s.conditionPending]

/-- The ATTN output: asserted while at least one pending event is enabled in the event mask (R170); not asserted
while RESET_N is (R166). -/
def State.attn (s : State) : Bool :=
  !s.resetHeld && ((s.attentionPending && s.params.eventMask.getLsbD 0) || (s.host.sweepEnded && s.params.eventMask.getLsbD 1)
    || (s.inboundPending && s.params.eventMask.getLsbD 2) || (s.conditionPending && s.params.eventMask.getLsbD 3))

end Sys2Proof.Machine
end

