-- ==== Sys2Proof/Machine/Format.lean ====
section
/-! DEFINITION. The byte layouts of R175 to R177: the down frames as they are sent, the up frames and backbone
frames as they are read and checked, and the results of the commands. -/

namespace Sys2Proof.Machine

/-! ## Air frames (R175) -/

/-- The turn byte: bits 7–6 period code, bits 2–0 phase. -/
def Turn.turnByte (t : Turn) : Byte := byteOf (t.period.code * 64 + t.phase)

/-- A grant of a BEACON: car ID, tag, slot, turn byte. -/
def BeaconGrant.bytes (g : BeaconGrant) : List Byte :=
  bytes16 g.carId ++ [byteOf g.tag, byteOf g.turn.slot, g.turn.turnByte]

/-- A body after its length byte (R174). -/
def bodyBytes (body : List Byte) : List Byte := byteOf body.length :: body

/-- The fields of a BEACON, kind 01h. -/
def Beacon.bytes (b : Beacon) : List Byte :=
  [byteOf 0x01, byteOf b.station, b.cycle,
    byteOf (flagAt 7 b.entryOpen + flagAt 6 b.sweepActive + b.grants.length * 16 + b.pages.length)]
    ++ b.grants.flatMap BeaconGrant.bytes ++ b.pages.flatMap (fun p => bytes16 p.carId)

/-- The message of a POLL: message byte (bit 7 urgency, bits 4–0 length), body. -/
def PollMessage.bytes (m : PollMessage) : List Byte := byteOf (m.urgency.code * 128 + m.body.length) :: m.body

/-- The fields of a POLL, kind 03h. -/
def Poll.bytes (p : Poll) : List Byte :=
  byteOf 0x03 :: bytes16 p.carId
    ++ [byteOf p.tag,
        byteOf (flagAt 7 p.release + flagAt 6 p.scan + flagAt 5 p.sweep + flagAt 4 p.extension
          + flagAt 3 p.retune.isSome + flagAt 2 p.message.isSome + flagAt 1 p.downBit + flagAt 0 p.inboundAck)]
    ++ (match p.retune with
        | some t => [byteOf t.slot, t.turnByte]
        | none => [])
    ++ (match p.message with
        | some m => m.bytes
        | none => [])

/-- A down frame as it is sent, closed by its check word. -/
def DownFrame.bytes : DownFrame → List Byte
  | .beacon b => withCheckWord b.bytes
  | .entry station slotNumber => withCheckWord [byteOf 0x02, byteOf station, byteOf slotNumber]
  | .poll p => withCheckWord p.bytes

/-- The fields of a HAIL (R11). -/
structure Hail where
  carId : Nat
  previousStation : Nat
  previousTag : Nat
  cls : Fin 4
  paged : Bool
  deriving DecidableEq, Repr

/-- The addressee of a message from a car (R11). -/
inductive Addressee where
  | here
  | dispatch
  deriving DecidableEq, Repr

/-- The message of an ANSWER (R11). -/
structure AnswerMessage where
  addressee : Addressee
  upBit : Bool
  body : List Byte
  deriving DecidableEq, Repr

/-- The fields of an ANSWER (R11). -/
structure Answer where
  carId : Nat
  tag : Nat
  downAck : Bool
  more : Bool
  message : Option AnswerMessage
  deriving DecidableEq, Repr

/-- A HAIL read from the bytes received: it fails when they run short, when the check word or the kind is wrong, or
when a field is out of range (R11, R12, R174). -/
def decodeHail : List Byte → Option Hail
  | k :: c1 :: c0 :: prev :: ptag :: cb :: rest =>
      let h : Hail :=
        { carId := wordOf c1 c0, previousStation := prev.toNat, previousTag := ptag.toNat,
          cls := ⟨cb.toNat % 4, Nat.mod_lt _ (by decide)⟩, paged := bitOf cb 7 }
      if k.toNat = 0x11 ∧ checkWordFollows [k, c1, c0, prev, ptag, cb] rest = true ∧ isCarId h.carId = true
          ∧ h.previousStation ≤ 200 then some h
      else none
  | _ => none

/-- The fields of an ANSWER before its message, if its car ID and tag are in range. -/
def decodeAnswerHead (c1 c0 tag flags : Byte) (message : Option AnswerMessage) : Option Answer :=
  if isCarId (wordOf c1 c0) = true ∧ 1 ≤ tag.toNat then
    some { carId := wordOf c1 c0, tag := tag.toNat, downAck := bitOf flags 7, more := bitOf flags 6,
           message := message }
  else none

/-- An ANSWER read from the bytes received, on the terms of `decodeHail`. -/
def decodeAnswer : List Byte → Option Answer
  | k :: c1 :: c0 :: tag :: flags :: rest =>
      if k.toNat = 0x12 then
        if bitOf flags 5 then
          match rest with
          | mb :: rest' =>
              let body := rest'.take (mb.toNat % 32)
              if body.length = mb.toNat % 32 ∧ isBody body = true
                  ∧ checkWordFollows (k :: c1 :: c0 :: tag :: flags :: mb :: body) (rest'.drop (mb.toNat % 32)) = true then
                decodeAnswerHead c1 c0 tag flags
                  (some { addressee := if bitOf mb 7 then .dispatch else .here, upBit := bitOf mb 6, body := body })
              else none
          | [] => none
        else if checkWordFollows [k, c1, c0, tag, flags] rest = true then decodeAnswerHead c1 c0 tag flags none
        else none
      else none
  | _ => none

/-! ## Backbone frames (R176) -/

/-- One byte off the front. -/
def readByte : List Byte → Option (Nat × List Byte)
  | b :: rest => some (b.toNat, rest)
  | [] => none

/-- A two-byte field off the front. -/
def readWord : List Byte → Option (Nat × List Byte)
  | hi :: lo :: rest => some (wordOf hi lo, rest)
  | _ => none

/-- A length byte and a body of 1 to 24 bytes off the front. -/
def readBody : List Byte → Option (List Byte × List Byte)
  | n :: rest =>
      if (rest.take n.toNat).length = n.toNat ∧ isBody (rest.take n.toNat) = true then
        some (rest.take n.toNat, rest.drop n.toNat)
      else none
  | [] => none

/-- One message of a TRANSFER: options, relay number, length, body. -/
def TransferMessage.bytes (m : TransferMessage) : List Byte :=
  match m.source with
  | .host =>
      byteOf (flagAt 7 (m.urgency == .urgent) + flagAt 6 m.receipt + m.attempts) :: bytes16 0 ++ bodyBytes m.body
  | .dispatch number =>
      byteOf (flagAt 7 (m.urgency == .urgent) + flagAt 6 m.receipt + flagAt 5 true + m.attempts)
        :: bytes16 number ++ bodyBytes m.body

/-- One message of a TRANSFER off the front (R176). A relay number other than 0 with source HOST is read past: the message
is taken, and the number is kept nowhere (DESIGN CHOICE, entry 33). -/
def readTransferMessage : List Byte → Option (TransferMessage × List Byte)
  | options :: rest => do
      let (relay, rest) ← readWord rest
      let (body, rest) ← readBody rest
      return ({ urgency := Urgency.ofBit (bitOf options 7),
                source := if bitOf options 5 then .dispatch relay else .host,
                receipt := bitOf options 6, attempts := options.toNat % 8, body := body }, rest)
  | [] => none

/-- `n` messages of a TRANSFER off the front. -/
def readTransferMessages : Nat → List Byte → Option (List TransferMessage × List Byte)
  | 0, bytes => some ([], bytes)
  | n + 1, bytes => do
      let (m, rest) ← readTransferMessage bytes
      let (ms, rest) ← readTransferMessages n rest
      return (m :: ms, rest)

/-- The kind code of a frame. -/
def Payload.kind : Payload → Nat
  | .hello .. => 0x21
  | .locate .. => 0x22
  | .located .. => 0x23
  | .relay .. => 0x24
  | .note .. => 0x25
  | .uplink .. => 0x26
  | .claim .. => 0x27
  | .transfer .. => 0x28
  | .taken .. => 0x29
  | .refused .. => 0x2A

/-- The fields of a frame after its header. -/
def Payload.bytes : Payload → List Byte
  | .hello station => [byteOf station]
  | .locate car query => bytes16 car ++ bytes16 query
  | .located car query reporting contact level peer =>
      bytes16 car ++ bytes16 query ++ [byteOf reporting, byteOf (locateCode contact), byteOf level]
        ++ (match peer with
            | some p => [byteOf p]
            | none => [])
  | .relay car number urgency receipt body =>
      bytes16 car ++ bytes16 number ++ [byteOf (flagAt 7 (urgency == .urgent) + flagAt 6 receipt)] ++ bodyBytes body
  | .note car number outcome reporting => bytes16 car ++ bytes16 number ++ [byteOf outcome.code, byteOf reporting]
  | .uplink car reporting body => bytes16 car ++ [byteOf reporting] ++ bodyBytes body
  | .claim car tag level try_ => bytes16 car ++ [byteOf tag, byteOf level, byteOf try_]
  | .transfer car cls messages =>
      bytes16 car ++ [byteOf cls, byteOf messages.length] ++ messages.flatMap TransferMessage.bytes
  | .taken car accepted => bytes16 car ++ [byteOf accepted]
  | .refused car reason => bytes16 car ++ [byteOf reason.code]

/-- The bytes of a frame that its check word covers. -/
def BackboneFrame.covered (f : BackboneFrame) : List Byte :=
  [byteOf f.payload.kind, byteOf f.source, byteOf f.dest, byteOf f.hop] ++ f.payload.bytes

/-- A backbone frame as it is sent, closed by its check word. -/
def BackboneFrame.bytes (f : BackboneFrame) : List Byte := withCheckWord f.covered

/-- The fields of a frame of the given kind off the front; none for a kind that is not one of the ten, for a code
that names nothing and for bytes that run short. -/
def readPayload (kind : Nat) (bytes : List Byte) : Option (Payload × List Byte) :=
  match kind with
  | 0x21 => do
      let (station, rest) ← readByte bytes
      return (.hello station, rest)
  | 0x22 => do
      let (car, rest) ← readWord bytes
      let (query, rest) ← readWord rest
      return (.locate car query, rest)
  | 0x23 => do
      let (car, rest) ← readWord bytes
      let (query, rest) ← readWord rest
      let (reporting, rest) ← readByte rest
      let (code, rest) ← readByte rest
      let contact ← locateOfCode code
      let (level, rest) ← readByte rest
      if contact = some .outbound then
        let (peer, rest) ← readByte rest
        return (.located car query reporting contact level (some peer), rest)
      else return (.located car query reporting contact level none, rest)
  | 0x24 => do
      let (car, rest) ← readWord bytes
      let (number, rest) ← readWord rest
      let (options, rest) ← readByte rest
      let (body, rest) ← readBody rest
      return (.relay car number (Urgency.ofBit (options.testBit 7)) (options.testBit 6) body, rest)
  | 0x25 => do
      let (car, rest) ← readWord bytes
      let (number, rest) ← readWord rest
      let (code, rest) ← readByte rest
      let outcome ← NoteOutcome.ofCode code
      let (reporting, rest) ← readByte rest
      return (.note car number outcome reporting, rest)
  | 0x26 => do
      let (car, rest) ← readWord bytes
      let (reporting, rest) ← readByte rest
      let (body, rest) ← readBody rest
      return (.uplink car reporting body, rest)
  | 0x27 => do
      let (car, rest) ← readWord bytes
      let (tag, rest) ← readByte rest
      let (level, rest) ← readByte rest
      let (try_, rest) ← readByte rest
      return (.claim car tag level try_, rest)
  | 0x28 => do
      let (car, rest) ← readWord bytes
      let (cls, rest) ← readByte rest
      let (count, rest) ← readByte rest
      if count ≤ 8 then
        let (messages, rest) ← readTransferMessages count rest
        return (.transfer car cls messages, rest)
      else none
  | 0x29 => do
      let (car, rest) ← readWord bytes
      let (accepted, rest) ← readByte rest
      return (.taken car accepted, rest)
  | 0x2A => do
      let (car, rest) ← readWord bytes
      let (code, rest) ← readByte rest
      let reason ← RefusedReason.ofCode code
      return (.refused car reason, rest)
  | _ => none

/-- Whether every field lies in the range that R126 gives it. -/
def Payload.inRange : Payload → Bool
  | .hello station => 1 ≤ station && station ≤ 255
  | .locate car query => isCarId car && query ≤ 65535
  | .located car query reporting contact level peer =>
      isCarId car && query ≤ 65535 && isStation reporting && contact != some .free && level ≤ 63
        && (match peer with
            | some p => contact == some .outbound && isStation p
            | none => contact != some .outbound)
  | .relay car number _ _ body => isCarId car && number ≤ 65535 && isBody body
  | .note car number _ reporting => isCarId car && number ≤ 65535 && isStation reporting
  | .uplink car reporting body => isCarId car && isStation reporting && isBody body
  | .claim car tag level try_ =>
      isCarId car && 1 ≤ tag && tag ≤ 255 && level ≤ 63 && 1 ≤ try_ && try_ ≤ 3
  | .transfer car cls messages =>
      isCarId car && cls ≤ 3 && messages.length ≤ 8
        && messages.all (fun m => m.attempts ≤ 7 && isBody m.body
            && (match m.source with
                | .host => true
                | .dispatch n => n ≤ 65535))
  | .taken car accepted => isCarId car && accepted ≤ 8
  | .refused car _ => isCarId car

/-- Whether the kind may carry destination 0 (R124). -/
def Payload.mayBeUndirected : Payload → Bool
  | .hello .. => true
  | .locate .. => true
  | .relay .. => true
  | _ => false

/-- Whether a frame passes every test of R124 but the check word. -/
def BackboneFrame.inRange (f : BackboneFrame) : Bool :=
  f.payload.inRange && (1 ≤ f.hop && f.hop ≤ 255) && (isStation f.source || f.source == Config.gateway)
    && (f.dest == 0 || isStation f.dest || f.dest == Config.gateway) && (f.dest != 0 || f.payload.mayBeUndirected)

/-- A backbone frame read from the bytes that arrived, or none when it fails the check of R124. Bytes after the
declared length are discarded (R174). -/
def decodeBackbone : List Byte → Option BackboneFrame
  | k :: src :: dst :: hop :: rest => do
      let (payload, after) ← readPayload k.toNat rest
      let f : BackboneFrame := { source := src.toNat, dest := dst.toNat, hop := hop.toNat, payload := payload }
      if checkWordFollows (k :: src :: dst :: hop :: rest.take (rest.length - after.length)) after = true
          ∧ f.inRange = true then return f
      else none
  | _ => none

/-! ## Results (R177) -/

/-- A turn in a result: slot, period code, phase (entry 13). -/
def Turn.resultBytes (t : Turn) : List Byte := [byteOf t.slot, byteOf t.period.code, byteOf t.phase]

/-- A counter in a result: two bytes. -/
def counterBytes (n : Nat) : List Byte := bytes16 n

/-- A set of reasons: two bytes in the bit order of the attention mask, and the two outcomes, 0 when not in the set. -/
def ReasonSet.bytes (r : ReasonSet) : List Byte :=
  bytes16 r.bits.toNat
    ++ [byteOf (match r.summonOutcome with
                | some o => o.code
                | none => 0),
        byteOf (match r.retuneOutcome with
                | some o => o.code
                | none => 0)]

/-- Every field of R20 and R21 in their order, but for the handover deadline and the claim level; the message list as
the urgency of each entry, and the in-flight message by its position (R27); tags, classes and station numbers as one byte
each, the down sequence bit and the last accepted up bit as one byte each, 0 or 1, and the last lane served by the urgency
code, 0 ROUTINE and 1 URGENT (DESIGN CHOICE, entry 13). -/
def Record.resultBytes (r : Record) (urgencies : List Urgency) (position : Option Nat) : List Byte :=
  [byteOf r.contact.code] ++ bytes16 r.carId ++ optionBytes (fun t => [byteOf t]) r.tag
    ++ optionBytes (fun c => [byteOf c]) r.cls ++ [flagByte r.pinned, flagByte r.keep]
    ++ optionBytes (fun s => [byteOf s]) r.origin ++ optionBytes (fun s => [byteOf s]) r.lastHanding
    ++ optionBytes Turn.resultBytes r.turn
    ++ optionBytes (fun c => Turn.resultBytes c.target ++ [byteOf c.tries]) r.retune
    ++ [byteOf r.missCount, byteOf r.grantMisses, byteOf r.mismatchCount, byteOf r.extensions, byteOf r.level,
        byteOf r.lowCount, flagByte r.fading, flagByte r.downBit, flagByte r.upBit]
    ++ listBytes (fun u : Urgency => [byteOf u.code]) urgencies ++ optionBytes (fun n => [byteOf n]) position
    ++ [byteOf r.lastLane.code, byteOf r.pageCount, flagByte r.summoned]
    ++ optionBytes (fun h : HandoverContext => [byteOf h.role.code, byteOf h.peer, byteOf h.tries]) r.handover
    ++ [byteOf r.mark.code] ++ optionBytes (fun f : SoftFault => [byteOf f.code]) r.soft
    ++ optionBytes (fun f : HardFault => [byteOf f.code]) r.hard

/-- A list of {index, car ID} (R162, R164). -/
def sweepListBytes (entries : List SweepEntry) : List Byte :=
  listBytes (fun e => byteOf e.record.val :: bytes16 e.carId) entries

/-- The result record of a sweep, in the order of R162. -/
def SweepResult.bytes (r : SweepResult) : List Byte :=
  [byteOf r.outcome.code, byteOf r.first, byteOf r.last, byteOf r.marked, byteOf r.answered, byteOf r.left,
    byteOf r.entered, byteOf r.used] ++ sweepListBytes r.unanswered

/-- A response frame as it is sent: status, result length, results, check byte (R177, R178). -/
def Response.frame (r : Response) : List Byte :=
  withCheckByte (byteOf r.status.code :: byteOf r.results.length :: r.results)

end Sys2Proof.Machine
end

