-- ==== Sys2Proof/Machine/Ops.lean ====
section
/-! DEFINITION. The operations that the commands share: records and lookup, the attention list, cells, ports and
their arbiters, the message pool, sweep marks, tags, handover contexts, the return of a record to FREE, and the
answer to a request. -/

namespace Sys2Proof.Machine

/-! ## Requests and responses (R165) -/

/-- A response sent. -/
def State.respond (s : State) (status : Status) (results : List Byte) : State :=
  { s with response := some { status := status, results := results } }

/-- A refusal: every status but DONE carries the status alone (R165). -/
def State.refuse (s : State) (status : Status) : State := s.respond status []

/-- The tests of R165 that follow the check byte and the code: RESET_N (no request is taken, R166), the length of the
parameters, and a station reset awaiting its slot end. -/
def hostRequest (lengthFits : Bool) (command : State → State) (s : State) : Host.Outcome State Fault Refusal :=
  if s.resetHeld then .next s
  else if lengthFits then
    if s.resetPending then .next (s.refuse .busy) else .next (command s)
  else .next (s.refuse .badValue)

/-- An event reaches the part unless RESET_N holds it in its initial state (R166). -/
def unlessHeld (event : State → State) (s : State) : Host.Outcome State Fault Refusal :=
  if s.resetHeld then .next s else .next (event s)

/-! ## Records and lookup -/

/-- The record indices in order. -/
def allRecords : List (Fin 48) := List.finRange 48

/-- A record. -/
def State.record (s : State) (i : Fin 48) : Record := s.roster.records[i]

/-- A record replaced. -/
def State.setRecord (s : State) (i : Fin 48) (r : Record) : State :=
  { s with roster := { s.roster with records := s.roster.records.set i r } }

/-- A record changed. -/
def State.modifyRecord (s : State) (i : Fin 48) (f : Record → Record) : State := s.setRecord i (f (s.record i))

/-- The lookup by car ID: the record that is not FREE and holds it (R26). -/
def State.lookup (s : State) (car : Nat) : Option (Fin 48) :=
  allRecords.find? fun i => (s.record i).contact != .free && (s.record i).carId == car

/-- Whether a record is on the attention list (R168). -/
def State.onAttention (s : State) (i : Fin 48) : Bool := s.host.attention.any fun e => e.record == i

/-- The record that an allocation takes: the lowest index that is FREE and off the attention list (R24). -/
def State.allocatable (s : State) : Option (Fin 48) :=
  allRecords.find? fun i => (s.record i).contact == .free && !s.onAttention i

/-- Whether a record is in its exchange window (section 2.7). -/
def State.inExchange (s : State) (i : Fin 48) : Bool :=
  match s.air.exchange with
  | some x => x.record == i
  | none => false

/-- Work added at the end of what is held for the record in exchange (R36). -/
def State.holdWork (s : State) (w : HeldWork) : State :=
  { s with roster := { s.roster with held := s.roster.held ++ [w] } }

/-! ## The attention list (R168) and soft faults (R33) -/

/-- No reason. -/
def ReasonSet.empty : ReasonSet := { bits := 0#11, summonOutcome := none, retuneOutcome := none }

/-- A reason added; SUMMON_ENDED and RETUNE_ENDED take the outcome of the later offer (R168). -/
def ReasonSet.add (r : ReasonSet) (reason : Reason) : ReasonSet :=
  { bits := r.bits ||| (1#11 <<< reason.bit.val),
    summonOutcome :=
      match reason with
      | .summonEnded o => some o
      | _ => r.summonOutcome,
    retuneOutcome :=
      match reason with
      | .retuneEnded o => some o
      | _ => r.retuneOutcome }

/-- The list with a reason added to the record's entry, or with a new entry at its tail (R168). -/
def addReason (list : List AttentionEntry) (i : Fin 48) (reason : Reason) : List AttentionEntry :=
  if list.any (fun e => e.record == i) then
    list.map fun e => if e.record == i then { e with reasons := e.reasons.add reason } else e
  else list ++ [{ record := i, reasons := ReasonSet.empty.add reason }]

/-- A reason offered for a record: discarded unless the attention mask enables it (R168). -/
def State.offerReason (s : State) (i : Fin 48) (reason : Reason) : State :=
  if s.params.attentionMask.getLsbD reason.bit.val then
    { s with host := { s.host with attention := addReason s.host.attention i reason } }
  else s

/-- A soft fault set on a record, with the reason SOFT_FAULT (R33). -/
def State.setSoft (s : State) (i : Fin 48) (fault : SoftFault) : State :=
  (s.modifyRecord i fun r => { r with soft := some fault }).offerReason i .softFault

/-- The soft fault of a record cleared by a command that names it (R33). -/
def State.clearSoft (s : State) (i : Fin 48) : State := s.modifyRecord i fun r => { r with soft := none }

/-! ## Station counters (R46, R57, R173) -/

/-- A hail refused is counted (R46). -/
def State.countRefused (s : State) : State :=
  { s with host := { s.host with hailsRefused := satAdd Config.counterLimit s.host.hailsRefused } }

/-- A hail held is counted (R43). -/
def State.countHeld (s : State) : State :=
  { s with host := { s.host with hailsHeld := satAdd Config.counterLimit s.host.hailsHeld } }

/-- A garbled frame is counted (R12). -/
def State.countGarbled (s : State) : State :=
  { s with host := { s.host with garbledFrames := satAdd Config.counterLimit s.host.garbledFrames } }

/-! ## Ports, traffic queues and arbiters (R132 to R134) -/

/-- A port's state. -/
def State.port (s : State) : Port → PortState
  | .inbye => s.ports.inbye
  | .outbye => s.ports.outbye

/-- A port's state replaced. -/
def State.setPort (s : State) (p : Port) (q : PortState) : State :=
  match p with
  | .inbye => { s with ports := { s.ports with inbye := q } }
  | .outbye => { s with ports := { s.ports with outbye := q } }

/-- A port's state changed. -/
def State.modifyPort (s : State) (p : Port) (f : PortState → PortState) : State := s.setPort p (f (s.port p))

/-- A check error counted on a port (R135). -/
def State.countCheckError (s : State) (p : Port) : State :=
  s.modifyPort p fun q => { q with checkErrors := satAdd Config.counterLimit q.checkErrors }

/-- The port that leads from station `own` toward station `dest`: OUTBYE toward the gateway, otherwise by number
(R128, R138); none toward the own number. -/
def portToward (own dest : Nat) : Option Port :=
  if dest == Config.gateway then some .outbye
  else if own < dest then some .inbye
  else if dest < own then some .outbye
  else none

/-- A frame that this station originates (R126). -/
def State.originate (s : State) (dest : Nat) (payload : Payload) : BackboneFrame :=
  { source := s.params.station, dest := dest, hop := 255, payload := payload }

/-- The messages of a record's list, in list order. -/
def State.listed (s : State) (r : Record) : List Message := r.messages.filterMap fun b => s.pool[b]

/-- A message as a TRANSFER carries it (R144). -/
def Message.toTransfer (m : Message) : TransferMessage :=
  { urgency := m.urgency, source := m.source, receipt := m.receipt, attempts := m.attempts, body := m.body }

/-- The frame of a handover context, built from the context and the record as they stand (R140, R144). -/
def State.handoverFrame (s : State) (r : Record) (c : HandoverContext) : BackboneFrame :=
  match c.role with
  | .claiming => s.originate c.peer (.claim r.carId (r.tag.getD 0) (c.claimLevel.getD 0) c.tries)
  | .handing => s.originate c.peer (.transfer r.carId (r.cls.getD 0) ((s.listed r).map Message.toTransfer))

/-- Whether a record's handover context has a frame due through a port (R133, R138). -/
def State.dueThrough (s : State) (p : Port) (i : Fin 48) : Bool :=
  match (s.record i).handover with
  | some c => c.due && portToward s.params.station c.peer == some p
  | none => false

/-- The record indices from one above an index up to 47, and then from 0 up to it (R83, R133). -/
def rotationFrom (i : Fin 48) : List (Fin 48) :=
  allRecords.filter (fun j => i.val < j.val) ++ allRecords.filter (fun j => j.val ≤ i.val)

/-- The record whose context the handover source of a port serves next (R133). -/
def State.handoverWaiting (s : State) (p : Port) : Option (Fin 48) :=
  (rotationFrom (s.port p).rotation).find? (s.dueThrough p)

/-- A frame begun on an idle transmitter. -/
def State.beginFrame (s : State) (p : Port) (f : BackboneFrame) : State :=
  s.modifyPort p fun q => { q with sending := some f }

/-- The handover source served: the record's frame begins and is no longer due (R133). -/
def State.serveHandover (s : State) (p : Port) (i : Fin 48) : State :=
  match (s.record i).handover with
  | some c =>
      ((s.beginFrame p (s.handoverFrame (s.record i) c)).modifyRecord i
          fun r => { r with handover := some { c with due := false } }).modifyPort p
        fun q => { q with rotation := i, lastServed := .handover }
  | none => s

/-- The traffic queue served: its head begins (R133). -/
def State.serveTraffic (s : State) (p : Port) : State :=
  match (s.port p).traffic with
  | f :: rest =>
      s.modifyPort p fun q => { q with sending := some f, traffic := rest, lastServed := .traffic }
  | [] => s

/-- The choice between the handover source and the traffic queue, by the arbiter mode (R134). -/
def State.chooseSource (s : State) (p : Port) : State :=
  match s.handoverWaiting p, (s.port p).traffic with
  | none, _ => s.serveTraffic p
  | some i, [] => s.serveHandover p i
  | some i, _ :: _ =>
      match s.params.arbiterMode with
      | .fixed => s.serveHandover p i
      | .rotating =>
          match (s.port p).lastServed with
          | .handover => s.serveTraffic p
          | .traffic => s.serveHandover p i

/-- The HELLO of this station (R123). -/
def State.helloFrame (s : State) : BackboneFrame := s.originate 0 (.hello s.params.station)

/-- The arbiter of a port in use chooses the next frame when its transmitter is free; a HELLO that is due goes first,
and is discarded while the station number is 0 (R123, R133). -/
def State.arbitrate (s : State) (p : Port) : State :=
  if s.params.inUse p && (s.port p).sending.isNone then
    if (s.port p).helloDue then
      if s.params.station == 0 then (s.modifyPort p fun q => { q with helloDue := false }).chooseSource p
      else (s.modifyPort p fun q => { q with helloDue := false }).beginFrame p s.helloFrame
    else s.chooseSource p
  else s

/-- A frame that a port cannot take is discarded and counted (R132). -/
def State.countTrafficFull (s : State) (p : Port) : State :=
  s.modifyPort p fun q => { q with trafficFull := satAdd Config.counterLimit q.trafficFull }

/-- A frame offered to a port's traffic queue (R132); an idle transmitter takes it at once (R133). -/
def State.offerTraffic (s : State) (p : Port) (f : BackboneFrame) : State :=
  if s.params.inUse p && decide ((s.port p).traffic.length < Config.trafficDepth) then
    (s.modifyPort p fun q => { q with traffic := q.traffic ++ [f] }).arbitrate p
  else s.countTrafficFull p

/-- A frame this station originates, offered to the port toward its destination; none leads to the own number. -/
def State.sendToward (s : State) (dest : Nat) (payload : Payload) : State :=
  match portToward s.params.station dest with
  | some p => s.offerTraffic p (s.originate dest payload)
  | none => s

/-- A NOTE toward dispatch, offered to the OUTBYE port (R112, R131). -/
def State.sendNote (s : State) (car number : Nat) (outcome : NoteOutcome) : State :=
  s.offerTraffic .outbye (s.originate Config.gateway (.note car number outcome s.params.station))

/-- The NOTE of a message that leaves its list: only for a DISPATCH message with its receipt flag set (R112). -/
def State.noteFor (s : State) (car : Nat) (source : Source) (receipt : Bool) (outcome : NoteOutcome) : State :=
  match source with
  | .host => s
  | .dispatch number => if receipt then s.sendNote car number outcome else s

/-! ## Cells of the Turn Plan (R58 to R64) -/

/-- The place of a cell in the table. -/
def cellIndex (slot phase : Nat) : Nat := (slot - 3) * 8 + phase

/-- The holding of the cell at a turn slot and a phase (R58). -/
def State.cell (s : State) (slot phase : Nat) : Option CellHolding :=
  if 3 ≤ slot ∧ slot ≤ 31 ∧ phase < 8 then (s.cells[cellIndex slot phase]?).getD none else none

/-- Whether the cell at a turn slot and a phase is free. -/
def State.cellFree (s : State) (slot phase : Nat) : Bool := (s.cell slot phase).isNone

/-- A cell given to a record in a role. -/
def State.giveCell (s : State) (slot phase : Nat) (h : CellHolding) : State :=
  { s with cells := s.cells.setIfInBounds (cellIndex slot phase) (some h) }

/-- The phases at which a turn holds its cells (R59). -/
def Turn.phases (t : Turn) : List Nat :=
  (List.range (8 / t.period.cycles)).map fun k => t.phase + k * t.period.cycles

/-- The places of a period, in the order of the search (R60). -/
def placesOf (p : Period) : List Turn :=
  (List.range 29).flatMap fun s => (List.range p.cycles).map fun f => { slot := s + 3, period := p, phase := f }

/-- Whether every cell of a turn is free. -/
def State.placeFree (s : State) (t : Turn) : Bool := t.phases.all fun f => s.cellFree t.slot f

/-- The first free place of a period (R60). -/
def State.findPlace (s : State) (p : Period) : Option Turn := (placesOf p).find? s.placeFree

/-- The turn that an allocation grants: the first free place of the first period, from the one asked up, that has one
(R61). -/
def State.findTurn (s : State) (p : Period) : Option Turn := p.andLonger.findSome? s.findPlace

/-- The cells of a turn given to a record in a role. -/
def State.giveTurnCells (s : State) (i : Fin 48) (t : Turn) (role : CellRole) : State :=
  t.phases.foldl (fun s f => s.giveCell t.slot f { holder := i, role := role }) s

/-- The cells that a test picks are freed; a freeing ends an active PLAN_FULL (R48, R64). -/
def State.freeCellsWhere (s : State) (test : CellHolding → Bool) : State :=
  if s.cells.toList.any (Option.any test) then
    { s with cells := s.cells.map fun c => if Option.any test c then none else c }.reportCause .planFull false
  else s

/-- Every cell of a record is freed (R64). -/
def State.freeCellsOf (s : State) (i : Fin 48) : State := s.freeCellsWhere fun h => h.holder == i

/-- The cells of a record in one role are freed. -/
def State.freeRoleOf (s : State) (i : Fin 48) (role : CellRole) : State :=
  s.freeCellsWhere fun h => h.holder == i && h.role == role

/-- A retune in progress is cancelled: its PENDING cells are freed and no reason is raised (R73). -/
def State.cancelRetune (s : State) (i : Fin 48) : State :=
  (s.freeRoleOf i .pending).modifyRecord i fun r => { r with retune := none }

/-! ## The message pool and the lists (R104, R105, R113) -/

/-- The buffer that the next message takes: the lowest free one. Which one it is cannot be observed (R104; entry 11). -/
def State.freeBuffer (s : State) : Option (Fin 64) := (List.finRange 64).find? fun b => (s.pool[b]).isNone

/-- A message put in a buffer, or a buffer made free; the number of free buffers is reported (R104). -/
def State.setBuffer (s : State) (b : Fin 64) (m : Option Message) : State :=
  { s with pool := s.pool.set b m }.reportPool

/-- Whether a listed message was placed from a TRANSFER (R105). -/
def State.isTransferred (s : State) (b : Fin 64) : Bool :=
  match s.pool[b] with
  | some m => m.placement == .transferred
  | none => false

/-- A list with a new handle: a local post joins its end; a transferred message goes after the transferred messages
and before the first local post (R105). -/
def State.insertHandle (s : State) (list : List (Fin 64)) (b : Fin 64) : Placement → List (Fin 64)
  | .posted => list ++ [b]
  | .transferred => list.takeWhile s.isTransferred ++ b :: list.dropWhile s.isTransferred

/-- Whether a record's list and the pool have room for one more message (R106, R146). -/
def State.hasRoom (s : State) (i : Fin 48) : Bool :=
  decide ((s.record i).messages.length < s.params.recordLimit) && s.freeBuffer.isSome

/-- A message placed on its target's list in the lowest free buffer. -/
def State.placeMessage (s : State) (m : Message) : State :=
  match s.freeBuffer with
  | some b =>
      (s.modifyRecord m.target fun r => { r with messages := s.insertHandle r.messages b m.placement }).setBuffer b (some m)
  | none => s

/-- A message taken off its list, its buffer freed (R111). -/
def State.removeMessage (s : State) (i : Fin 48) (b : Fin 64) : State :=
  (s.modifyRecord i fun r => { r with messages := r.messages.erase b, inFlight := none }).setBuffer b none

/-- One buffer of a list that is being freed, with its NOTE DROPPED when notes are sent (R113). -/
def State.freeListed (notes : Bool) (car : Nat) (s : State) (b : Fin 64) : State :=
  match s.pool[b] with
  | some m => if notes then (s.setBuffer b none).noteFor car m.source m.receipt .dropped else s.setBuffer b none
  | none => s

/-- A record's messages are freed in list order, with NOTE DROPPED unless the cause is TAKEN (R113). -/
def State.freeMessages (s : State) (i : Fin 48) (notes : Bool) : State :=
  ((s.record i).messages.foldl (State.freeListed notes (s.record i).carId) s).modifyRecord i
    fun r => { r with messages := [], inFlight := none }

/-! ## Sweep marks (R158 to R162) -/

/-- Whether a sweep is in progress, RUNNING or HALTED (R156). -/
def State.sweepInProgress (s : State) : Bool := s.sweep.state == .running || s.sweep.state == .halted

/-- The records whose mark is MARKED, as {index, car ID} in index order (R162, R164). -/
def State.markedList (s : State) : List SweepEntry :=
  (allRecords.filter fun i => (s.record i).mark == .marked).map fun i => { record := i, carId := (s.record i).carId }

/-- A sweep ends COMPLETE: its result record is made up and SWEEP_ENDED becomes pending (R162). -/
def State.endSweep (s : State) (outcome : SweepOutcome) : State :=
  { s with
    sweep :=
      { s.sweep with
        state := .complete, haltPending := false, deadline := 0, closeEntry := false,
        result := some
          { outcome := outcome, first := s.sweep.first, last := s.sweep.last, marked := s.sweep.marked,
            answered := s.sweep.answered, left := s.sweep.left, entered := s.sweep.entered, used := s.sweep.used,
            unanswered := s.markedList } },
    host := { s.host with sweepEnded := true } }

/-- A sweep in progress with no record MARKED ends with ALL_ACCOUNTED (R162). -/
def State.endIfAccounted (s : State) : State :=
  if s.sweepInProgress && s.markedList.isEmpty then s.endSweep .allAccounted else s

/-- A MARKED record that leaves while a sweep is in progress takes the mark LEFT (R159). -/
def State.markLeft (s : State) (i : Fin 48) : State :=
  if s.sweepInProgress && (s.record i).mark == .marked then
    ({ s with sweep := { s.sweep with left := s.sweep.left + 1 } }.modifyRecord i
      fun r => { r with mark := .left }).endIfAccounted
  else s

/-- A MARKED record whose exchange is MATCHED while the sweep is RUNNING is credited (R158). -/
def State.creditSweep (s : State) (i : Fin 48) : State :=
  if s.sweep.state == .running && (s.record i).mark == .marked then
    ({ s with sweep := { s.sweep with answered := s.sweep.answered + 1 } }.modifyRecord i
      fun r => { r with mark := .answered }).endIfAccounted
  else s

/-- A car that joins the roster while the sweep is RUNNING is counted as entered (R160). -/
def State.countEntered (s : State) : State :=
  if s.sweep.state == .running then { s with sweep := { s.sweep with entered := satAdd 255 s.sweep.entered } } else s

/-! ## Tags (R28) -/

/-- Whether a record that is not FREE holds a tag. -/
def State.tagHeld (s : State) (tag : Nat) : Bool :=
  s.roster.records.toList.any fun r => r.contact != .free && r.tag == some tag

/-- The tag after a tag, from 255 to 1. -/
def nextTag (tag : Nat) : Nat := if tag < 255 then tag + 1 else 1

/-- The counter advanced over every tag that is held; at most 48 are, so 49 steps reach one that is not (R28). -/
def State.advanceTag (s : State) : Nat → Nat → Nat
  | 0, tag => tag
  | fuel + 1, tag => if s.tagHeld tag then s.advanceTag fuel (nextTag tag) else tag

/-- A new tag given to a record that is not FREE: the counter's value, after which the counter advances (R28). -/
def State.giveTag (s : State) (i : Fin 48) : State :=
  let t := s.modifyRecord i fun r => { r with tag := some s.roster.tagCounter }
  { t with roster := { t.roster with tagCounter := t.advanceTag 49 (nextTag s.roster.tagCounter) } }

/-! ## Summons, grants and handover contexts -/

/-- The end of a summons: the context is cleared, the count falls, and SUMMON_ENDED is raised (R90). -/
def State.endSummon (s : State) (i : Fin 48) (outcome : SummonOutcome) : State :=
  if (s.record i).summoned then
    ({ s with roster := { s.roster with summonCount := s.roster.summonCount - 1 } }.modifyRecord i
      fun r => { r with summoned := false }).offerReason i (.summonEnded outcome)
  else s

/-- A summon context attached, which adds 1 to the summon count (R88). -/
def State.attachSummon (s : State) (i : Fin 48) : State :=
  { s with roster := { s.roster with summonCount := s.roster.summonCount + 1 } }.modifyRecord i
    fun r => { r with summoned := true }

/-- A record's grant withdrawn from the grant list (R53). -/
def State.withdrawGrant (s : State) (i : Fin 48) : State :=
  { s with air := { s.air with grants := s.air.grants.filter fun j => j != i } }

/-- A grant placed; a record has at most one in the list (R53). -/
def State.placeGrant (s : State) (i : Fin 48) : State :=
  if s.air.grants.any (fun j => j == i) then s else { s with air := { s.air with grants := s.air.grants ++ [i] } }

/-- A record's handover context dropped without a frame. The origin station is left as it is, whatever closed the context
(DESIGN CHOICE, entry 31). -/
def State.dropContext (s : State) (i : Fin 48) : State := s.modifyRecord i fun r => { r with handover := none }

/-- A CLAIMING context of a record dropped without a frame (R34, R56, R91). -/
def State.dropClaim (s : State) (i : Fin 48) : State :=
  match (s.record i).handover with
  | some c => if c.role == .claiming then s.dropContext i else s
  | none => s

/-- The deadline of a context set now (R138). -/
def State.deadlineNow (s : State) : Nat := s.clock + s.params.handoverTimeout

/-- The arbiter of the port toward a peer looks for a frame: one has become due (R133). -/
def State.arbitrateToward (s : State) (peer : Nat) : State :=
  match portToward s.params.station peer with
  | some p => s.arbitrate p
  | none => s

/-- A context given to a record, with its first frame due (R49, R143). -/
def State.openContext (s : State) (i : Fin 48) (role : HandoverRole) (peer : Nat) (claimLevel : Option Nat) : State :=
  (s.modifyRecord i fun r =>
    { r with
      handover := some
        { role := role, peer := peer, tries := 1, deadline := s.deadlineNow, due := true, claimLevel := claimLevel } }
    ).arbitrateToward peer

/-- Whether a record that now leaves its contact state leaves PAGING during slot 0 (R84). -/
def State.leavesPaging (s : State) (i : Fin 48) : Bool :=
  s.air.slot == some 0 && s.air.work.isSome && (s.record i).contact == .paging

/-- A record about to leave its contact state: if it leaves PAGING during slot 0, it is passed over when the BEACON is
handed back, whatever becomes of it by then (R84). -/
def State.passOver (s : State) (i : Fin 48) : State :=
  { s with
    roster :=
      { s.roster with passedOver := if s.leavesPaging i then s.roster.passedOver.insert i else s.roster.passedOver } }

/-- A record enters PAGING with a page count equal to the page limit (R85). -/
def State.enterPaging (s : State) (i : Fin 48) : State :=
  s.modifyRecord i fun r => { r with contact := .paging, pageCount := s.params.pageLimit }

/-- A handover given up: the context is removed, and the OUTBOUND record that held it falls to PAGING and remembers its
last handing peer (R144, R150). -/
def State.fallToPaging (s : State) (i : Fin 48) (peer : Nat) : State :=
  if (s.record i).contact == .outbound then
    (s.enterPaging i).modifyRecord i fun r => { r with handover := none, lastHanding := some peer }
  else s.dropContext i

/-- A CLAIMING context closed unanswered or by the loss of its port, with CLAIM_LAPSED (R141, R150). -/
def State.lapseClaim (s : State) (i : Fin 48) : State := (s.dropContext i).setSoft i .claimLapsed

/-- A record's context ended by the loss of its port (R150). -/
def State.loseContext (s : State) (i : Fin 48) : State :=
  match (s.record i).handover with
  | some c =>
      match c.role with
      | .claiming => s.lapseClaim i
      | .handing => s.fallToPaging i c.peer
  | none => s

/-- Whether a record's context is routed through a port (R138). -/
def State.routedThrough (s : State) (p : Port) (i : Fin 48) : Bool :=
  match (s.record i).handover with
  | some c => portToward s.params.station c.peer == some p
  | none => false

/-- The loss of a port: every context routed through it ends, in index order (R150). -/
def State.losePort (s : State) (p : Port) : State :=
  allRecords.foldl (fun s i => if s.routedThrough p i then s.loseContext i else s) s

/-! ## The return to FREE (R39) and the other ends of a stay -/

/-- A record that is FREE and off the attention list ends an active ROSTER_FULL (R47). -/
def State.reportAllocatable (s : State) (i : Fin 48) : State :=
  if s.onAttention i then s else s.reportCause .rosterFull false

/-- Step 5 of R39: a pinned record that becomes FREE lowers the pinned count. -/
def State.dropPin (s : State) (i : Fin 48) : State :=
  if (s.record i).pinned then
    { s with roster := { s.roster with pinnedCount := s.roster.pinnedCount - 1 } }.modifyRecord i
      fun r => { r with pinned := false }
  else s

/-- Step 7 of R39: every other field takes its FREE value; the car ID and the sweep mark stay. A record that leaves PAGING so
is passed over by the BEACON of its slot 0 (R84). -/
def State.emptyRecord (s : State) (i : Fin 48) : State :=
  ((s.passOver i).modifyRecord i fun r => { Record.free with carId := r.carId, mark := r.mark }).reportIdentity

/-- The reason raised with a change, if there is one. -/
def State.offerReason? (s : State) (i : Fin 48) : Option Reason → State
  | some r => s.offerReason i r
  | none => s

/-- A record becomes FREE (R39): cells and retune, messages (with NOTE DROPPED unless the cause is TAKEN), context,
summons, pin, sweep mark, fields; then the reason of the cause, and ROSTER_FULL by R47. Its grant is withdrawn (R53). -/
def State.becomeFree (s : State) (i : Fin 48) (notes : Bool) (reason : Option Reason) : State :=
  let s := (s.withdrawGrant i).freeCellsOf i
  let s := (s.freeMessages i notes).dropContext i
  let s := ((s.endSummon i .cancelled).dropPin i).markLeft i
  ((s.emptyRecord i).offerReason? i reason).reportAllocatable i

/-- A record gives up its turn: its cells are freed, its turn and any retune context are gone (R64). -/
def State.giveUpTurn (s : State) (i : Fin 48) : State :=
  (s.freeCellsOf i).modifyRecord i fun r => { r with turn := none, retune := none }

/-- A pinned record becomes DORMANT in place of FREE, with the reason DORMANT (R23). -/
def State.becomeDormant (s : State) (i : Fin 48) : State :=
  (s.modifyRecord i fun r => { r with contact := .dormant, pageCount := 0, lastHanding := none }).offerReason i .dormant

/-- The five effects of a release (R91), taken also on a refused claim (R149). -/
def State.releaseRecord (s : State) (i : Fin 48) : State :=
  let s := s.modifyRecord i fun r => { r with contact := .releasing }
  let s := ((s.freeRoleOf i .lent).cancelRetune i).withdrawGrant i
  (s.endSummon i .cancelled).dropClaim i

end Sys2Proof.Machine
end

