-- ==== Sys2Proof/Machine/Clock.lean ====
section
/-! DEFINITION. The passing of time on the part's millisecond timers. -/

namespace Sys2Proof.Machine

/-- One millisecond on a port's timers: a port in use runs its HELLO timer, which stands at 250 ms until its expiry is
taken, and its silence timer, which measures up to 1000 ms (R123, R125); an unused port's timers are stopped (R122). -/
def PortState.passMillisecond (q : PortState) (inUse : Bool) : PortState :=
  if inUse then { q with helloTimer := satAdd 250 q.helloTimer, silence := satAdd 1000 q.silence } else q

/-- One millisecond on the Handover Controller's timer and the ports' timers; RESET_N holds them (R166). -/
def State.passMillisecond (s : State) : State :=
  if s.resetHeld then s
  else
    { s with
      clock := s.clock + 1,
      ports :=
        { inbye := s.ports.inbye.passMillisecond s.params.inbyeUse,
          outbye := s.ports.outbye.passMillisecond s.params.outbyeUse } }

end Sys2Proof.Machine
end

