-- ==== Sys2Proof/Machine/Resets.lean ====
section
/-! DEFINITION. The two resets (R166). -/

namespace Sys2Proof.Machine

/-- A port as a station reset leaves it: a frame being sent goes on, and a HELLO is due on a port in use (R137). -/
def PortState.afterReset (q : PortState) (inUse : Bool) : PortState :=
  { PortState.reset with sending := q.sending, helloDue := inUse }

/-- Every block at its values after a station reset, before the arbiters and the owners of kept counts act (R166). -/
def State.resetBlocks (s : State) : State :=
  { s with
    air := Air.reset, roster := Roster.reset, cells := Cells.reset, pool := Pool.reset, inbound := [],
    ports :=
      { inbye := s.ports.inbye.afterReset s.params.inbyeUse, outbye := s.ports.outbye.afterReset s.params.outbyeUse },
    sweep := Sweep.reset, host := { HostPort.reset with portCheck := s.host.portCheck },
    conditions := Conditions.reset, clock := 0, resetPending := false }

/-- A station reset takes effect: the parameters, the port check count and frames being sent are kept (R166); the
arbiters choose the HELLOs due, and the kept count meets the kept threshold (R137, R171). Where it does, PORT_CHECK is active
and latched, so CONDITION is pending and ATTN can be asserted right after the reset, where R170 has no event pending
(DESIGN CHOICE, entry 12). -/
def State.stationReset (s : State) : State := ((s.resetBlocks.arbitrate .inbye).arbitrate .outbye).reportPortCheck

/-- STATION_RESET taken: at once while the air is CLOSED, otherwise pending (R166). -/
def State.orderReset (s : State) : State :=
  (if s.air.state == .closed then s.stationReset else { s with resetPending := true }).respond .done []

/-- STATION_RESET (R166). -/
def execStationReset (params : List Byte) (s : State) : Host.Outcome State Fault Refusal :=
  hostRequest params.isEmpty State.orderReset s

/-- The pending reset at the end of GUARD of the slot in progress, with no slot-end notice (R18, R166; entry 8). -/
def State.pendingReset (s : State) : State := if s.resetPending && s.air.work.isSome then s.stationReset else s

/-- STATION_RESET_TAKES_EFFECT (R166). -/
def execStationResetTakesEffect (s : State) : Host.Outcome State Fault Refusal := unlessHeld State.pendingReset s

/-- RESET_N_ASSERT: the whole part in its initial state, held there (R166). -/
def execResetNAssert (s : State) : Host.Outcome State Fault Refusal :=
  .next { State.reset with resetHeld := true, pending := s.pending }

/-- RESET_N_RELEASE: the part goes on from its initial state (R166). -/
def execResetNRelease (s : State) : Host.Outcome State Fault Refusal := .next { s with resetHeld := false }

end Sys2Proof.Machine
end

