-- ==== Sys2Proof/Machine/Handover.lean ====
section
/-! DEFINITION. The Handover Controller: the decision of a claim, the placement of a transfer, TAKEN, REFUSED, and the
expiries of its contexts (R138 to R150). -/

namespace Sys2Proof.Machine

/-! ## The claim at the holder (R142 to R145) -/

/-- What a CLAIM is answered with: REFUSED, the TRANSFER again, or acceptance (R142). -/
inductive ClaimDecision where
  | refused (reason : RefusedReason)
  | again (record : Fin 48)
  | accepted (record : Fin 48)
  deriving DecidableEq, Repr

/-- Whether a record is defended against a claim with a hail level (row 8 of R142, R102). -/
def Record.contests (r : Record) (margin level : Nat) : Bool :=
  r.contact == .present && !r.fading && r.missCount == 0 && decide (level ≤ r.level + margin)

/-- A claim decided by the first row of R142 that fits. -/
def State.decideClaim (s : State) (claimant car level : Nat) : ClaimDecision :=
  match s.lookup car with
  | none => .refused .notHeld
  | some i =>
      if (s.record i).hard.isSome || (s.record i).contact == .releasing then .refused .busy
      else
        match (s.record i).handover with
        | some c =>
            match c.role with
            | .claiming => .refused .busy
            | .handing => if c.peer == claimant then .again i else .refused .busy
        | none =>
            if (s.record i).keep then .refused .kept
            else if (s.record i).contests s.params.contestMargin level then .refused .contested
            else .accepted i

/-- A claim accepted (R143); a record that leaves PAGING so is passed over by the BEACON of its slot 0 (R84). -/
def State.acceptClaim (s : State) (i : Fin 48) (claimant : Nat) : State :=
  let s := (s.withdrawGrant i).giveUpTurn i
  let s := (s.passOver i).modifyRecord i fun r => { r with contact := .outbound, pageCount := 0, lastHanding := none }
  ((s.openContext i .handing claimant none).endSummon i .handed).markLeft i

/-- A record's context with its frame made due (R138). -/
def State.makeDue (s : State) (i : Fin 48) : State :=
  match (s.record i).handover with
  | some c => (s.modifyRecord i fun r => { r with handover := some { c with due := true } }).arbitrateToward c.peer
  | none => s

/-- A CLAIM taken (R142). -/
def State.takeClaim (s : State) (claimant car level : Nat) : State :=
  match s.decideClaim claimant car level with
  | .refused reason => s.sendToward claimant (.refused car reason)
  | .again i => s.makeDue i
  | .accepted i => s.acceptClaim i claimant

/-! ## The transfer at the claimant (R146, R147) -/

/-- A message of a TRANSFER as it is placed: its attempts and its receipt flag carried, TRANSFERRED, not in flight (R146).
A flag carried for a message with source HOST stays set, where R104 has it clear for every HOST message (DESIGN CHOICE,
entry 32). -/
def TransferMessage.placed (m : TransferMessage) (i : Fin 48) : Message :=
  { target := i, urgency := m.urgency, source := m.source, receipt := m.receipt, attempts := m.attempts,
    body := m.body, placement := .transferred }

/-- The messages placed in their order while they fit; how many were, and those that were not (R146 step 1). -/
def State.placeMessages (s : State) (i : Fin 48) (placed : Nat) :
    List TransferMessage → State × Nat × List TransferMessage
  | [] => (s, placed, [])
  | m :: rest =>
      if s.hasRoom i then (s.placeMessage (m.placed i)).placeMessages i (placed + 1) rest
      else (s, placed, m :: rest)

/-- The dropped messages of a TRANSFER: their NOTEs, and PARTIAL_TRANSFER if there were any (R146 step 2). -/
def State.dropTransferred (s : State) (i : Fin 48) (car : Nat) (dropped : List TransferMessage) : State :=
  let s := dropped.foldl (fun s m => s.noteFor car m.source m.receipt .dropped) s
  if dropped.isEmpty then s else s.setSoft i .partialTransfer

/-- A placement counted as entered: the sweep RUNNING and the mark NONE (R160). -/
def State.countPlaced (s : State) (i : Fin 48) : State :=
  if (s.record i).mark == .none then s.countEntered else s

/-- A TRANSFER placed for a record that claims from its sender (R146). -/
def State.placeTransfer (s : State) (i : Fin 48) (sender car cls : Nat) (messages : List TransferMessage) : State :=
  match s.placeMessages i 0 messages with
  | (s, placed, dropped) =>
      let s := (s.dropTransferred i car dropped).modifyRecord i
        fun r => { r with cls := some cls, origin := some sender, handover := none }
      ((s.offerReason i .handedIn).countPlaced i).sendToward sender (.taken car placed)

/-- Whether a record holds a CLAIMING context toward a station. -/
def Record.claimsFrom (r : Record) (station : Nat) : Bool :=
  match r.handover with
  | some c => c.role == .claiming && c.peer == station
  | none => false

/-- Whether a record is OUTBOUND with a HANDING context toward a station. -/
def Record.handingTo (r : Record) (station : Nat) : Bool :=
  r.contact == .outbound
    && (match r.handover with
        | some c => c.role == .handing && c.peer == station
        | none => false)

/-- A TRANSFER taken: placed, answered again, or dropped and counted on the port it arrived on (R146, R147). -/
def State.takeTransfer (s : State) (port : Port) (sender car cls : Nat) (messages : List TransferMessage) : State :=
  match s.lookup car with
  | some i =>
      if (s.record i).claimsFrom sender then s.placeTransfer i sender car cls messages
      else if (s.record i).origin == some sender && (s.record i).handover.isNone then s.sendToward sender (.taken car 0)
      else s.countCheckError port
  | none => s.countCheckError port

/-! ## TAKEN and REFUSED (R148, R149) -/

/-- A TAKEN taken (R148). -/
def State.takeTaken (s : State) (sender car : Nat) : State :=
  match s.lookup car with
  | some i =>
      if (s.record i).handingTo sender || ((s.record i).contact == .paging && (s.record i).lastHanding == some sender) then
        s.becomeFree i false (some .handedOut)
      else s
  | none => s

/-- A claiming record refused KEPT or CONTESTED is released if it is GRANTED or PRESENT (R149). -/
def State.refuseClaiming (s : State) (i : Fin 48) : State :=
  let t := s.dropContext i
  if (t.record i).contact == .granted || (t.record i).contact == .present then t.releaseRecord i else t

/-- A REFUSED taken (R149). -/
def State.takeRefused (s : State) (sender car : Nat) (reason : RefusedReason) : State :=
  match s.lookup car with
  | some i =>
      if (s.record i).claimsFrom sender then
        match reason with
        | .notHeld => s.dropContext i
        | .kept | .contested => s.refuseClaiming i
        | .busy => s
      else s
  | none => s

/-- A CLAIM, TRANSFER, TAKEN or REFUSED as it is taken, with the port it arrived on (R128). -/
def State.takeHandoverFrame (s : State) (port : Port) (f : BackboneFrame) : State :=
  match f.payload with
  | .claim car _ level _ => s.takeClaim f.source car level
  | .transfer car cls messages => s.takeTransfer port f.source car cls messages
  | .taken car _ => s.takeTaken f.source car
  | .refused car reason => s.takeRefused f.source car reason
  | .hello _ | .locate _ _ | .located .. | .relay .. | .note .. | .uplink .. => s

/-! ## The expiries (R141, R144) -/

/-- The clock at an expiry: a deadline that expires has been reached (entry 3). -/
def State.reachDeadline (s : State) (c : HandoverContext) : State := { s with clock := Nat.max s.clock c.deadline }

/-- The next try of a context: tries advance, its frame is made due, and the deadline is set afresh. -/
def State.nextTry (s : State) (i : Fin 48) (c : HandoverContext) : State :=
  (s.modifyRecord i fun r =>
    { r with handover := some { c with tries := c.tries + 1, due := true, deadline := s.deadlineNow } }
    ).arbitrateToward c.peer

/-- The expiry of a claiming context (R141). -/
def State.expireClaim (s : State) (i : Fin 48) (c : HandoverContext) : State :=
  if c.tries < 3 then s.nextTry i c else s.lapseClaim i

/-- The expiry of a handing context (R144). -/
def State.expireHanding (s : State) (i : Fin 48) (c : HandoverContext) : State :=
  if c.tries < 2 then s.nextTry i c else s.fallToPaging i c.peer

/-- CLAIM_EXPIRY of a record's context, if the record holds a CLAIMING one (R141). -/
def execClaimExpiry (i : Fin 48) (s : State) : Host.Outcome State Fault Refusal :=
  unlessHeld
    (fun s =>
      match (s.record i).handover with
      | some c => if c.role == .claiming then (s.reachDeadline c).expireClaim i c else s
      | none => s) s

/-- HANDING_EXPIRY of a record's context, if the record holds a HANDING one (R144). -/
def execHandingExpiry (i : Fin 48) (s : State) : Host.Outcome State Fault Refusal :=
  unlessHeld
    (fun s =>
      match (s.record i).handover with
      | some c => if c.role == .handing then (s.reachDeadline c).expireHanding i c else s
      | none => s) s

end Sys2Proof.Machine
end

