-- ==== Sys2Proof/Machine/TurnPlan.lean ====
section
/-! DEFINITION. The Turn Plan's cycle boundaries, loans and retunes (R62, R63, R65, R68 to R72). -/

namespace Sys2Proof.Machine

/-- The role of a cell at a cycle start: WAITING becomes TURN (R62). -/
def CellHolding.aged (h : CellHolding) : CellHolding :=
  { h with
    role :=
      match h.role with
      | .waiting => .turn
      | r => r }

/-- Every WAITING cell becomes TURN (R62). -/
def State.ageCells (s : State) : State := { s with cells := s.cells.map fun c => c.map CellHolding.aged }

/-- The cycle end: every LENT cell is freed and every record's extensions become 0 (R63). -/
def State.endCycle (s : State) : State :=
  let t := s.freeCellsWhere fun h => h.role == .lent
  { t with roster := { t.roster with records := t.roster.records.map fun r => { r with extensions := 0 } } }

/-- The phase of the cycle (R4). -/
def State.phase (s : State) : Nat := s.air.cycle.toNat % 8

/-- The slots after a slot, up to slot 31. -/
def slotsAfter (slot : Nat) : List Nat := (List.range (31 - slot)).map fun k => slot + 1 + k

/-- The slot whose cell at the current phase a loan takes: the first free one later in the cycle (R65). -/
def State.loanSlot (s : State) (slot : Nat) : Option Nat := (slotsAfter slot).find? fun k => s.cellFree k s.phase

/-- A loan asked for by a MATCHED answer with MORE in `slot` (R65). -/
def State.lend (s : State) (i : Fin 48) (slot : Nat) : State :=
  let r := s.record i
  if r.contact == .present && r.hard.isNone && decide (r.extensions < Config.loanLimit) then
    match s.loanSlot slot with
    | some k =>
        (s.giveCell k s.phase { holder := i, role := .lent }).modifyRecord i
          fun r => { r with extensions := r.extensions + 1 }
    | none => s
  else s

/-- A turn reserved for a retune: its cells PENDING, the turn in the context with no tries (R68). -/
def State.reserveRetune (s : State) (i : Fin 48) (t : Turn) : State :=
  (s.giveTurnCells i t .pending).modifyRecord i fun r => { r with retune := some { target := t, tries := 0 } }

/-- The role of a cell of a record when its retune is confirmed: PENDING becomes WAITING (R71). -/
def CellHolding.confirmed (i : Fin 48) (h : CellHolding) : CellHolding :=
  if h.holder == i && h.role == .pending then { h with role := .waiting } else h

/-- A retune confirmed: the old turn's cells freed, the PENDING cells WAITING, the turn the pending turn (R71). -/
def State.confirmRetune (s : State) (i : Fin 48) : State :=
  match (s.record i).retune with
  | some c =>
      let s := s.freeCellsWhere fun h => h.holder == i && (h.role == .turn || h.role == .waiting)
      (({ s with cells := s.cells.map fun x => x.map (CellHolding.confirmed i) } : State).modifyRecord i
        fun r => { r with turn := some c.target, retune := none }).offerReason i (.retuneEnded .done)
  | none => s

/-- A retune failed after its tries (R72). -/
def State.failRetune (s : State) (i : Fin 48) : State :=
  ((s.cancelRetune i).setSoft i .retuneFailed).offerReason i (.retuneEnded .failed)

/-- A RETUNE poll that was not confirmed counts a try; the third fails the retune (R70), also when its exchange has set
IDENTITY (DESIGN CHOICE, entry 19). -/
def State.tryRetune (s : State) (i : Fin 48) : State :=
  match (s.record i).retune with
  | some c =>
      let t := s.modifyRecord i fun r => { r with retune := some { c with tries := satAdd Config.retuneTries c.tries } }
      if Config.retuneTries ≤ satAdd Config.retuneTries c.tries then t.failRetune i else t
  | none => s

end Sys2Proof.Machine
end

