-- ==== Sys2Proof/Machine/RosterCommands.lean ====
section
/-! DEFINITION. The commands that name a record or a car, and the work held for a record in exchange (R27 to R40, R68,
R88, R91). -/

namespace Sys2Proof.Machine

/-! ## Reading (R27) -/

/-- The position of a record's in-flight message in its list. -/
def Record.inFlightPosition (r : Record) : Option Nat := r.inFlight.map fun b => r.messages.idxOf b

/-- The result of READ_RECORD. -/
def State.recordBytes (s : State) (i : Fin 48) : List Byte :=
  let r := s.record i
  r.resultBytes ((s.listed r).map Message.urgency) r.inFlightPosition

/-- A command of one index byte, with its status BAD_INDEX (R27, R30 to R40). -/
def State.onIndex (s : State) (params : List Byte) (command : Fin 48 → State → State) : State :=
  match params.head?.bind recordIndex with
  | some i => command i s
  | none => s.refuse .badIndex

/-- READ_RECORD (R27). -/
def execReadRecord (params : List Byte) (s : State) : Host.Outcome State Fault Refusal :=
  hostRequest (params.length == 1)
    (fun s => s.onIndex params fun i s => s.respond .done (s.recordBytes i)) s

/-- FIND_CAR (R27). -/
def State.findCar (s : State) (car : Nat) : State :=
  if isCarId car then
    match s.lookup car with
    | some i => s.respond .done [byteOf i.val, byteOf (s.record i).contact.code]
    | none => s.refuse .notHeld
  else s.refuse .badValue

/-- FIND_CAR: a car ID of two bytes (R27, R177). -/
def execFindCar (params : List Byte) (s : State) : Host.Outcome State Fault Refusal :=
  match params with
  | [hi, lo] => hostRequest true (fun s => s.findCar (wordOf hi lo)) s
  | _ => hostRequest false id s

/-! ## Keep (R32) -/

/-- The keep flag of a record that is not FREE, set or cleared (R32). -/
def State.keepRecord (s : State) (i : Fin 48) (keep : Bool) : State :=
  if (s.record i).contact == .free then s.refuse .badState
  else (s.modifyRecord i fun r => { r with keep := keep }).respond .done []

/-- SET_KEEP (R32). -/
def execSetKeep (params : List Byte) (s : State) : Host.Outcome State Fault Refusal :=
  hostRequest (params.length == 1) (fun s => s.onIndex params fun i s => (s.clearSoft i).keepRecord i true) s

/-- CLEAR_KEEP (R32). -/
def execClearKeep (params : List Byte) (s : State) : Host.Outcome State Fault Refusal :=
  hostRequest (params.length == 1) (fun s => s.onIndex params fun i s => (s.clearSoft i).keepRecord i false) s

/-! ## The commands that are held for a record in exchange (R36, R37) -/

/-- The refusal of RETUNE by R68, from its second check on. -/
def State.checkRetune (s : State) (i : Fin 48) (code : Byte) : Option Status :=
  match Period.ofCode code.toNat with
  | none => some .badValue
  | some p =>
      let r := s.record i
      if r.contact != .present || r.retune.isSome || r.handover.isSome || r.hard.isSome then some .badState
      else if (s.findPlace p).isNone then some .noRoom
      else none

/-- The refusal of a command for a record as it stands; none when it is accepted (R30, R31, R35, R40, R68, R91). -/
def State.checkCommand (s : State) (i : Fin 48) : HeldCommand → Option Status
  | .retire | .clearFault | .unpin => if (s.record i).contact == .free then some .badState else none
  | .release =>
      if (s.record i).contact == .granted || (s.record i).contact == .present then none else some .badState
  | .retune code => s.checkRetune i code
  | .pin =>
      if (s.record i).contact == .free then some .badState
      else if !(s.record i).pinned && decide (Config.pinnedLimit ≤ s.roster.pinnedCount) then some .noRoom
      else none

/-- The effect of an accepted RETUNE (R68). -/
def State.startRetune (s : State) (i : Fin 48) (code : Byte) : State :=
  match (Period.ofCode code.toNat).bind s.findPlace with
  | some t => s.reserveRetune i t
  | none => s

/-- The effect of an accepted CLEAR_FAULT (R35). -/
def State.clearFault (s : State) (i : Fin 48) : State :=
  (s.modifyRecord i fun r => { r with hard := none, mismatchCount := 0 }).reportIdentity

/-- The effect of an accepted PIN (R30). -/
def State.pinRecord (s : State) (i : Fin 48) : State :=
  if (s.record i).pinned then s
  else
    { s with roster := { s.roster with pinnedCount := s.roster.pinnedCount + 1 } }.modifyRecord i
      fun r => { r with pinned := true }

/-- The effect of an accepted UNPIN: a DORMANT record becomes FREE (R31). -/
def State.unpinRecord (s : State) (i : Fin 48) : State :=
  if (s.record i).pinned then
    let t := s.dropPin i
    if (t.record i).contact == .dormant then t.becomeFree i true none else t
  else s

/-- The effect of an accepted command on its record. -/
def State.applyCommand (s : State) (i : Fin 48) : HeldCommand → State
  | .retire => s.becomeFree i true none
  | .release => s.releaseRecord i
  | .retune code => s.startRetune i code
  | .clearFault => s.clearFault i
  | .pin => s.pinRecord i
  | .unpin => s.unpinRecord i

/-- A command of this kind as it is taken: refused, held when its record is in exchange, or carried out (R36). -/
def State.command (s : State) (i : Fin 48) (c : HeldCommand) : State :=
  match s.checkCommand i c with
  | some status => s.refuse status
  | none => (if s.inExchange i then s.holdWork (.command c) else s.applyCommand i c).respond .done []

/-- One item of held work, taken against the record as it stands (R37). -/
def State.takeHeld (i : Fin 48) (s : State) (w : HeldWork) : State :=
  match w with
  | .frame port f => s.takeHandoverFrame port f
  | .command c =>
      match s.checkCommand i c with
      | some _ => s
      | none => s.applyCommand i c

/-- The end of a record's exchange window: the held work is taken in order of arrival (R37). -/
def State.closeWindow (s : State) (i : Fin 48) : State :=
  s.roster.held.foldl (State.takeHeld i)
    { s with air := { s.air with exchange := none }, roster := { s.roster with held := [] } }

/-- RETIRE (R40). -/
def execRetire (params : List Byte) (s : State) : Host.Outcome State Fault Refusal :=
  hostRequest (params.length == 1) (fun s => s.onIndex params fun i s => (s.clearSoft i).command i .retire) s

/-- RELEASE (R91). -/
def execRelease (params : List Byte) (s : State) : Host.Outcome State Fault Refusal :=
  hostRequest (params.length == 1) (fun s => s.onIndex params fun i s => (s.clearSoft i).command i .release) s

/-- RETUNE: index, period code (R68, R177). -/
def execRetune (params : List Byte) (s : State) : Host.Outcome State Fault Refusal :=
  match params with
  | [_, code] =>
      hostRequest true (fun s => s.onIndex params fun i s => (s.clearSoft i).command i (.retune code)) s
  | _ => hostRequest false id s

/-- PIN (R30). -/
def execPin (params : List Byte) (s : State) : Host.Outcome State Fault Refusal :=
  hostRequest (params.length == 1) (fun s => s.onIndex params fun i s => (s.clearSoft i).command i .pin) s

/-- UNPIN (R31). -/
def execUnpin (params : List Byte) (s : State) : Host.Outcome State Fault Refusal :=
  hostRequest (params.length == 1) (fun s => s.onIndex params fun i s => (s.clearSoft i).command i .unpin) s

/-- CLEAR_FAULT (R35). -/
def execClearFault (params : List Byte) (s : State) : Host.Outcome State Fault Refusal :=
  hostRequest (params.length == 1) (fun s => s.onIndex params fun i s => (s.clearSoft i).command i .clearFault) s

/-! ## Summons (R88, R89) -/

/-- The record of a car that is summoned without being held (R25, R89), before its summon context. -/
def summonedRecord (car : Nat) : Record := { Record.free with carId := car, upBit := true }

/-- SUMMON of a car not held, and a new context wanted (R88, R89). -/
def State.summonNew (s : State) (car : Nat) : State :=
  match s.allocatable with
  | some i => (((s.setRecord i (summonedRecord car)).enterPaging i).attachSummon i).respond .done []
  | none => s.refuse .noRoom

/-- SUMMON of a record that takes a new context (R88). -/
def State.summonHeld (s : State) (i : Fin 48) : State :=
  let t := s.attachSummon i
  (if (s.record i).contact == .granted then t else t.enterPaging i).respond .done []

/-- SUMMON of a car ID in range, by the table of R88 in its order. -/
def State.summonCar (s : State) (car : Nat) : State :=
  match s.lookup car with
  | some i =>
      let s := s.clearSoft i
      if (s.record i).contact == .outbound || (s.record i).contact == .releasing then s.refuse .badState
      else if (s.record i).summoned then
        (if (s.record i).contact == .paging then s.enterPaging i else s).respond .done []
      else if (s.record i).contact == .present then (s.offerReason i (.summonEnded .contact)).respond .done []
      else if Config.summonLimit ≤ s.roster.summonCount then s.refuse .noRoom
      else s.summonHeld i
  | none => if Config.summonLimit ≤ s.roster.summonCount then s.refuse .noRoom else s.summonNew car

/-- SUMMON: a car ID of two bytes (R88, R177). -/
def execSummon (params : List Byte) (s : State) : Host.Outcome State Fault Refusal :=
  match params with
  | [hi, lo] =>
      hostRequest true (fun s => if isCarId (wordOf hi lo) then s.summonCar (wordOf hi lo) else s.refuse .badValue) s
  | _ => hostRequest false id s

end Sys2Proof.Machine
end

