-- ==== Sys2Proof/Machine/Sweeps.lean ====
section
/-! DEFINITION. The Sweep Unit: its commands and its deadline (R156 to R164). -/

namespace Sys2Proof.Machine

/-! ## Starting (R157) -/

/-- Whether a sweep that starts marks a record in its range (R157 step 2). -/
def ContactState.swept : ContactState → Bool
  | .granted | .present | .paging | .dormant | .releasing => true
  | .free | .outbound => false

/-- The mark that a sweep gives the record at an index as it starts (R157). -/
def startMark (first last i : Nat) (c : ContactState) : SweepMark :=
  if decide (first ≤ i) && decide (i ≤ last) && c.swept then .marked else .none

/-- Every record's mark set as a sweep over a range starts (R157). -/
def State.markRange (s : State) (first last : Nat) : State :=
  { s with
    roster :=
      { s.roster with
        records := Vector.ofFn fun i =>
          { s.record i with mark := startMark first last i.val (s.record i).contact } } }

/-- A sweep started; with no record marked it ends at once (R157, R162). -/
def State.startSweep (s : State) (first last deadline : Nat) (closeEntry : Bool) : State :=
  let t := s.markRange first last
  ({ t with
     sweep := { Sweep.reset with state := .running, first := first, last := last, deadline := deadline,
                                 closeEntry := closeEntry, marked := t.markedList.length },
     host := { t.host with sweepEnded := false } } : State).endIfAccounted

/-- The first check of SWEEP_START (R157). -/
def sweepInRange (first last deadline closeEntry : Nat) : Bool :=
  decide (first ≤ last) && decide (last ≤ 47) && decide (1 ≤ deadline) && decide (deadline ≤ 64)
    && decide (closeEntry ≤ 1)

/-- SWEEP_START: first index, last index, deadline, close-entry (R157, R177). -/
def execSweepStart (params : List Byte) (s : State) : Host.Outcome State Fault Refusal :=
  match params with
  | [first, last, deadline, close] =>
      hostRequest true
        (fun s =>
          if !sweepInRange first.toNat last.toNat deadline.toNat close.toNat then s.refuse .badValue
          else if s.sweepInProgress then s.refuse .busy
          else (s.startSweep first.toNat last.toNat deadline.toNat (close.toNat == 1)).respond .done []) s
  | _ => hostRequest false id s

/-! ## Halting, resuming, cancelling (R163) -/

/-- SWEEP_HALT taken: pending within a slot, at once while the air is CLOSED (R163). -/
def State.haltSweep (s : State) : State :=
  match s.sweep.state with
  | .idle | .complete => s.refuse .badState
  | .halted => s.respond .done []
  | .running =>
      (if s.air.state == .closed then { s with sweep := { s.sweep with state := .halted, haltPending := false } }
       else { s with sweep := { s.sweep with haltPending := true } } : State).respond .done []

/-- SWEEP_HALT (R163). -/
def execSweepHalt (params : List Byte) (s : State) : Host.Outcome State Fault Refusal :=
  hostRequest params.isEmpty State.haltSweep s

/-- SWEEP_RESUME taken (R163). -/
def State.resumeSweep (s : State) : State :=
  match s.sweep.state with
  | .idle | .complete => s.refuse .badState
  | .running | .halted =>
      ({ s with sweep := { s.sweep with state := .running, haltPending := false } } : State).respond .done []

/-- SWEEP_RESUME (R163). -/
def execSweepResume (params : List Byte) (s : State) : Host.Outcome State Fault Refusal :=
  hostRequest params.isEmpty State.resumeSweep s

/-- Every record's mark made NONE (R163). -/
def State.clearMarks (s : State) : State :=
  { s with roster := { s.roster with records := s.roster.records.map fun r => { r with mark := .none } } }

/-- SWEEP_CANCEL taken (R163). -/
def State.cancelSweep (s : State) : State :=
  match s.sweep.state with
  | .idle => s.respond .done []
  | .running | .halted | .complete =>
      ({ s.clearMarks with sweep := Sweep.reset, host := { s.host with sweepEnded := false } } : State).respond .done []

/-- SWEEP_CANCEL (R163). -/
def execSweepCancel (params : List Byte) (s : State) : Host.Outcome State Fault Refusal :=
  hostRequest params.isEmpty State.cancelSweep s

/-- A halt pending takes effect as a slot ends (R163). -/
def State.applyHalt (s : State) : State :=
  if s.sweep.state == .running && s.sweep.haltPending then
    { s with sweep := { s.sweep with state := .halted, haltPending := false } }
  else s

/-! ## The deadline (R161) -/

/-- A cycle start handed to the Sweep Unit (R161). -/
def State.countSweepCycle (s : State) : State :=
  if s.sweep.state == .running then
    if s.sweep.used < s.sweep.deadline then { s with sweep := { s.sweep with used := s.sweep.used + 1 } }
    else s.endSweep .deadline
  else s

/-- Whether the air stands between two cycles: slot 31 has ended and slot 0 has not begun. -/
def State.atCycleBoundary (s : State) : Bool :=
  s.air.state != .closed && s.air.slot == some 31 && s.air.work.isNone

/-- The deadline of a sweep run out at a cycle boundary (R161; entry 9). -/
def State.sweepDeadline (s : State) : State :=
  if s.atCycleBoundary && s.sweep.state == .running && decide (s.sweep.deadline ≤ s.sweep.used) then
    s.endSweep .deadline
  else s

/-- SWEEP_DEADLINE (R161). -/
def execSweepDeadline (s : State) : Host.Outcome State Fault Refusal := unlessHeld State.sweepDeadline s

/-! ## READ_SWEEP (R164) -/

/-- The result of READ_SWEEP for a sweep in progress (R164); the deadline as one byte (DESIGN CHOICE, entry 13). -/
def State.sweepProgressBytes (s : State) : List Byte :=
  [byteOf s.sweep.state.code, byteOf s.sweep.first, byteOf s.sweep.last, byteOf s.sweep.deadline,
    flagByte s.sweep.closeEntry, flagByte s.sweep.haltPending, byteOf s.sweep.used, byteOf s.sweep.marked,
    byteOf s.sweep.answered, byteOf s.sweep.left, byteOf s.sweep.entered] ++ sweepListBytes s.markedList

/-- The result record's bytes of a sweep that is COMPLETE. -/
def Sweep.resultBytes (w : Sweep) : List Byte :=
  match w.result with
  | some r => r.bytes
  | none => []

/-- READ_SWEEP taken (R164). -/
def State.readSweep (s : State) : State :=
  match s.sweep.state with
  | .idle => s.respond .done [byteOf s.sweep.state.code]
  | .running | .halted => s.respond .done s.sweepProgressBytes
  | .complete =>
      ({ s with host := { s.host with sweepEnded := false } } : State).respond .done
        (byteOf s.sweep.state.code :: s.sweep.resultBytes)

/-- READ_SWEEP (R164). -/
def execReadSweep (params : List Byte) (s : State) : Host.Outcome State Fault Refusal :=
  hostRequest params.isEmpty State.readSweep s

end Sys2Proof.Machine
end

