-- ==== Sys2Proof/Machine/Delivery.lean ====
section
/-! DEFINITION. The Delivery Engine: the choice of a POLL's message, acknowledgements, attempts and drops, the messages
of the cars, and the commands POST, SET_LANES, READ_INBOUND and FLUSH_INBOUND (R104 to R121). -/

namespace Sys2Proof.Machine

/-! ## The message of a POLL (R108, R109) -/

/-- Whether a lane is enabled (R110). -/
def Params.laneOn (p : Params) : Urgency → Bool
  | .urgent => p.urgentLane
  | .routine => p.routineLane

/-- The urgency of the message in a buffer, if it holds one. -/
def State.urgencyOf (s : State) (b : Fin 64) : Option Urgency := (s.pool[b]).map Message.urgency

/-- The oldest listed message of a lane that is enabled (R105, R108). -/
def State.startable (s : State) (r : Record) (lane : Urgency) : Option (Fin 64) :=
  if s.params.laneOn lane then r.messages.find? fun b => s.urgencyOf b == some lane else none

/-- The lane that is tried first: ROUTINE in ROTATING mode after an URGENT start, otherwise URGENT (R108, R109). -/
def firstLane (mode : ServeMode) (last : Urgency) : Urgency :=
  match mode, last with
  | .rotating, .urgent => .routine
  | _, _ => .urgent

/-- The other lane. -/
def otherLane : Urgency → Urgency
  | .urgent => .routine
  | .routine => .urgent

/-- The message that is started, if there is one (R108 step 3, R109). -/
def State.pickMessage (s : State) (r : Record) : Option (Fin 64) :=
  let lane := firstLane s.params.deliveryMode r.lastLane
  (s.startable r lane).or (s.startable r (otherLane lane))

/-- A message started: it is in flight, and its lane is the last served (R109). -/
def State.startMessage (s : State) (i : Fin 48) (b : Fin 64) : State :=
  s.modifyRecord i fun r => { r with inFlight := some b, lastLane := (s.urgencyOf b).getD r.lastLane }

/-- The start of a message at LEAD of a POLL: none for RELEASE, and none while one is in flight (R108). -/
def State.startForPoll (s : State) (i : Fin 48) : State :=
  if (s.record i).contact == .releasing || (s.record i).inFlight.isSome then s
  else
    match s.pickMessage (s.record i) with
    | some b => s.startMessage i b
    | none => s

/-- The message that a POLL carries: the one in flight, but none with RELEASE (R108). -/
def State.pollMessage (s : State) (i : Fin 48) : Option PollMessage :=
  if (s.record i).contact == .releasing then none
  else
    (s.record i).inFlight.bind fun b => (s.pool[b]).map fun m => { urgency := m.urgency, body := m.body }

/-! ## Acknowledgement, attempts and drops (R111) -/

/-- A message that leaves its list by delivery or drop toggles the down sequence bit. -/
def State.retireMessage (s : State) (i : Fin 48) (b : Fin 64) : State :=
  (s.removeMessage i b).modifyRecord i fun r => { r with downBit := !r.downBit }

/-- The in-flight message delivered, with its NOTE (R111, R112). -/
def State.deliverMessage (s : State) (i : Fin 48) : State :=
  match (s.record i).inFlight with
  | some b =>
      match s.pool[b] with
      | some m => (s.retireMessage i b).noteFor (s.record i).carId m.source m.receipt .delivered
      | none => s
  | none => s

/-- A POLL of the in-flight message that drew no acknowledgement: an attempt, and the drop at the attempt limit
(R111). -/
def State.failMessage (s : State) (i : Fin 48) : State :=
  match (s.record i).inFlight with
  | some b =>
      match s.pool[b] with
      | some m =>
          let attempts := satAdd 7 m.attempts
          if s.params.attemptLimit ≤ attempts then
            ((s.retireMessage i b).setSoft i .dropped).noteFor (s.record i).carId m.source m.receipt .dropped
          else s.setBuffer b (some { m with attempts := attempts })
      | none => s
  | none => s

/-! ## Messages from the cars (R115 to R117) -/

/-- Whether the OUTBYE port can take an UPLINK (R117). -/
def State.canUplink (s : State) : Bool :=
  s.params.outbyeUse && s.ports.outbye.neighbour == .up
    && decide (s.ports.outbye.traffic.length < Config.trafficDepth)

/-- The last accepted up bit set to the bit of an accepted message. -/
def State.acceptUpBit (s : State) (i : Fin 48) (b : Bool) : State := s.modifyRecord i fun r => { r with upBit := b }

/-- A LOCAL message put in the inbound queue (R116). -/
def State.queueInbound (s : State) (i : Fin 48) (body : List Byte) : State :=
  { s with inbound := s.inbound ++ [{ carId := (s.record i).carId, record := i, body := body }] }

/-- A DISPATCH message placed as an UPLINK (R117). -/
def State.placeUplink (s : State) (i : Fin 48) (body : List Byte) : State :=
  s.offerTraffic .outbye (s.originate Config.gateway (.uplink (s.record i).carId s.params.station body))

/-- The message of a MATCHED answer: a repeat changes nothing, and a new message is accepted when it has a place
(R115). -/
def State.takeInbound (s : State) (i : Fin 48) (m : AnswerMessage) : State :=
  if m.upBit == (s.record i).upBit then s
  else
    match m.addressee with
    | .here =>
        if s.inbound.length < Config.inboundDepth then (s.queueInbound i m.body).acceptUpBit i m.upBit else s
    | .dispatch => if s.canUplink then (s.placeUplink i m.body).acceptUpBit i m.upBit else s

/-! ## Posting (R106, R107) -/

/-- The contact states in which a record accepts a post. -/
def ContactState.acceptsPosts : ContactState → Bool
  | .granted | .present | .paging | .dormant => true
  | .free | .outbound | .releasing => false

/-- POST of a body to a record whose index is in range (R106). -/
def State.postTo (s : State) (i : Fin 48) (urgency : Byte) (body : List Byte) : State :=
  match Urgency.ofCode urgency.toNat with
  | none => s.refuse .badValue
  | some u =>
      if !isBody body then s.refuse .badValue
      else if !(s.record i).contact.acceptsPosts then s.refuse .badState
      else if !s.hasRoom i then s.refuse .noRoom
      else
        let t := s.placeMessage
          { target := i, urgency := u, source := .host, receipt := false, attempts := 0, body := body,
            placement := .posted }
        t.respond .done [byteOf (t.record i).messages.length]

/-- POST: index, urgency, length, body; the parameters are of the command's length when the body has the length given
(R106, R177). -/
def execPost (params : List Byte) (s : State) : Host.Outcome State Fault Refusal :=
  match params with
  | index :: urgency :: n :: body =>
      hostRequest (body.length == n.toNat)
        (fun s =>
          match recordIndex index with
          | some i => (s.clearSoft i).postTo i urgency body
          | none => s.refuse .badIndex) s
  | _ => hostRequest false id s

/-- SET_LANES: bit 1 URGENT, bit 0 ROUTINE, the other bits ignored (R110, R177). -/
def execSetLanes (params : List Byte) (s : State) : Host.Outcome State Fault Refusal :=
  match params with
  | [lanes] =>
      hostRequest true
        (fun s =>
          ({ s with params := { s.params with urgentLane := bitOf lanes 1, routineLane := bitOf lanes 0 } } : State).respond
            .done []) s
  | _ => hostRequest false id s

/-! ## The inbound queue and the host (R119) -/

/-- The result of READ_INBOUND: car ID, record index, body and the entries left; an empty queue gives the count 0
(entry 13). -/
def State.readInbound (s : State) : State :=
  match s.inbound with
  | [] => s.respond .done [byteOf 0]
  | e :: rest =>
      ({ s with inbound := rest } : State).respond .done
        (bytes16 e.carId ++ [byteOf e.record.val] ++ bodyBytes e.body ++ [byteOf rest.length])

/-- READ_INBOUND (R119). -/
def execReadInbound (params : List Byte) (s : State) : Host.Outcome State Fault Refusal :=
  hostRequest params.isEmpty State.readInbound s

/-- FLUSH_INBOUND: the number of entries discarded (R119). -/
def execFlushInbound (params : List Byte) (s : State) : Host.Outcome State Fault Refusal :=
  hostRequest params.isEmpty
    (fun s => ({ s with inbound := [] } : State).respond .done [byteOf s.inbound.length]) s

end Sys2Proof.Machine
end

