-- ==== Sys2Proof/Machine/Quality.lean ====
section
/-! DEFINITION. The Quality Monitor: smoothing of level readings, the low count and FADING (R95 to R98). -/

namespace Sys2Proof.Machine

/-- The new S: three quarters of the old and one quarter of the reading, rounded down (R97). -/
def smoothed (old reading : Nat) : Nat := (3 * old + reading) / 4

/-- A record with a reading applied: S, and then the low count and FADING from the new S (R97, R98). -/
def Record.withReading (r : Record) (p : Params) (reading : Nat) : Record :=
  let level := smoothed r.level reading
  if level < p.lo then
    { r with
      level := level, lowCount := satAdd 15 r.lowCount,
      fading := r.fading || decide (p.fadeCount ≤ satAdd 15 r.lowCount) }
  else if level < p.hi then { r with level := level, lowCount := 0 }
  else { r with level := level, lowCount := 0, fading := false }

/-- A reading that reaches the Quality Monitor; FADING set from clear raises the reason FADING (R96, R98). -/
def State.applyReading (s : State) (i : Fin 48) (reading : Nat) : State :=
  let t := s.modifyRecord i fun r => r.withReading s.params reading
  if (t.record i).fading && !(s.record i).fading then t.offerReason i .fading else t

/-- A record whose S is set from a hail that admits, re-enters or revives its car (R95). -/
def Record.withHailLevel (r : Record) (level : Nat) : Record :=
  { r with level := level, lowCount := 0, fading := false }

end Sys2Proof.Machine
end

