-- ==== Sys2Proof/Machine/Entry.lean ====
section
/-! DEFINITION. What becomes of a hail: admission, re-grant, re-entry, revival, the opening of a claim, and the lapse of a
grant (R42 to R57). -/

namespace Sys2Proof.Machine

/-- The claiming context that a hail naming a peer station opens, or NO_ROUTE (R49). -/
def State.openClaim (s : State) (i : Fin 48) (peer level : Nat) : State :=
  if peer == 0 || peer == s.params.station || (s.record i).handover.isSome then s
  else
    match portToward s.params.station peer with
    | some p =>
        if !s.params.inUse p || (s.port p).neighbour == .down then s.setSoft i .noRoute
        else s.openContext i .claiming peer (some level)
    | none => s

/-- A hail refused: counted, and its class made active (R46). -/
def State.refuseHail (s : State) (c : ConditionClass) : State := s.countRefused.reportCause c true

/-- The period that a hail's class asks for (R42, R61). -/
def State.askedPeriod (s : State) (h : Hail) : Period := s.params.classPeriods[h.cls]

/-- A turn allocated to a record: its cells WAITING (R60). -/
def State.allocateTurn (s : State) (i : Fin 48) (t : Turn) : State :=
  (s.giveTurnCells i t .waiting).modifyRecord i fun r => { r with turn := some t }

/-- DEGRADED, when the period granted is longer than the period asked (R61). -/
def State.noteDegrade (s : State) (i : Fin 48) (asked granted : Period) : State :=
  if granted == asked then s else s.setSoft i .degraded

/-- The record of a car newly admitted, before its tag and turn (R25, R45 step 3). -/
def Hail.newRecord (h : Hail) (level : Nat) : Record :=
  { Record.free with contact := .granted, carId := h.carId, cls := some h.cls.val, level := level, upBit := true }

/-- A new admission (R45). -/
def State.admitCar (s : State) (h : Hail) (level : Nat) : State :=
  match s.allocatable with
  | none => s.refuseHail .rosterFull
  | some i =>
      match s.findTurn (s.askedPeriod h) with
      | none => s.refuseHail .planFull
      | some t =>
          let s := ((s.setRecord i (h.newRecord level)).giveTag i).allocateTurn i t
          let s := (s.noteDegrade i (s.askedPeriod h) t.period).placeGrant i
          (s.openClaim i h.previousStation level).countEntered

/-- A re-grant (R50). -/
def State.regrant (s : State) (i : Fin 48) (level : Nat) : State :=
  (s.modifyRecord i fun r => { r with grantMisses := 0, level := level }).placeGrant i

/-- What a re-entry and a revival alike make of a record's fields (R51, R52). -/
def Record.takenAfresh (r : Record) (h : Hail) (level : Nat) : Record :=
  { r.withHailLevel level with
    contact := .granted, cls := some h.cls.val, missCount := 0, grantMisses := 0, mismatchCount := 0, downBit := false,
    upBit := true }

/-- A re-entry (R51). -/
def State.reenter (s : State) (i : Fin 48) (h : Hail) (level : Nat) : State :=
  let s := (s.giveTag i).modifyRecord i fun r => r.takenAfresh h level
  let s := (s.freeRoleOf i .lent).cancelRetune i
  (s.setSoft i .reentry).placeGrant i

/-- A revival (R52). -/
def State.revive (s : State) (i : Fin 48) (h : Hail) (level : Nat) : State :=
  match s.findTurn (s.askedPeriod h) with
  | none => s.refuseHail .planFull
  | some t =>
      let s := (s.giveTag i).modifyRecord i
        fun r => { r.takenAfresh h level with pageCount := 0, lastHanding := none }
      let s := ((s.allocateTurn i t).noteDegrade i (s.askedPeriod h) t.period).placeGrant i
      s.openClaim i h.previousStation level

/-- A good hail decided by the record that the lookup finds and by the cycle's entry-open decision (R43, R44). -/
def State.decideHail (s : State) (h : Hail) (level : Nat) : State :=
  match s.lookup h.carId with
  | none => if s.air.entryOpen then s.admitCar h level else s.countHeld
  | some i =>
      if (s.record i).hard.isSome then s.countHeld
      else
        match (s.record i).contact with
        | .granted => if s.air.entryOpen then s.regrant i level else s.countHeld
        | .present => if s.air.entryOpen then s.reenter i h level else s.countHeld
        | .paging | .dormant => if s.air.entryOpen || h.paged then s.revive i h level else s.countHeld
        | .free | .outbound | .releasing => s.countHeld

/-- A grant lapse: the summons fails, the claim is dropped, and the record becomes FREE, or DORMANT if it is pinned
(R56, R23). -/
def State.lapseGrant (s : State) (i : Fin 48) : State :=
  let s := (s.endSummon i .failed).dropClaim i
  if (s.record i).pinned then ((s.withdrawGrant i).giveUpTurn i).becomeDormant i
  else s.becomeFree i true (some .retired)

end Sys2Proof.Machine
end

