-- ==== Sys2Proof/Machine/Turns.lean ====
section
/-! DEFINITION. The judging of a polled record's exchange, lapse, paging, exhaustion and the end of a release (R75 to
R86, R93). -/

namespace Sys2Proof.Machine

/-- The five outcomes of an exchange (R75); a MATCHED one carries the ANSWER and its level reading. -/
inductive ExchangeOutcome where
  | matched (answer : Answer) (level : Nat)
  | mismatched
  | garbled
  | absent
  | dark
  deriving DecidableEq, Repr

/-! ## Lapse, grant lapse and the hard fault -/

/-- A lapse from PRESENT into PAGING (R82). -/
def State.lapse (s : State) (i : Fin 48) : State := ((s.giveUpTurn i).enterPaging i).offerReason i .lapsed

/-- The hard fault IDENTITY taken: HARD_FAULT raised, the class made active, a claiming context dropped (R34, R80). -/
def State.takeIdentity (s : State) (i : Fin 48) : State :=
  (((s.modifyRecord i fun r => { r with hard := some .identity }).offerReason i .hardFault).reportIdentity).dropClaim i

/-! ## A MATCHED exchange (R76) -/

/-- The counts of a MATCHED exchange (R75). -/
def State.clearMisses (s : State) (i : Fin 48) : State :=
  s.modifyRecord i fun r => { r with missCount := 0, mismatchCount := 0, grantMisses := 0 }

/-- Contact: a GRANTED record becomes PRESENT (R77). -/
def State.makeContact (s : State) (i : Fin 48) : State :=
  if (s.record i).contact == .granted then
    ((s.modifyRecord i fun r => { r with contact := .present }).offerReason i .contact).endSummon i .contact
  else s

/-- The acknowledgement of a message that the POLL carried (R111). -/
def State.judgeAck (s : State) (i : Fin 48) (poll : Poll) (downAck : Bool) : State :=
  if poll.message.isSome then
    if downAck == poll.downBit then s.deliverMessage i else s.failMessage i
  else s

/-- The message of the ANSWER, if it carries one (R115). -/
def State.takeAnswerMessage (s : State) (i : Fin 48) (a : Answer) : State :=
  match a.message with
  | some m => s.takeInbound i m
  | none => s

/-- The seven effects of a MATCHED exchange in `slot`, in their order (R76). -/
def State.matchedExchange (s : State) (i : Fin 48) (poll : Poll) (a : Answer) (level slot : Nat) : State :=
  let s := (s.clearMisses i).makeContact i
  let s := s.applyReading i level
  let s := (s.judgeAck i poll a.downAck).takeAnswerMessage i a
  let s := s.creditSweep i
  let s := if poll.retune.isSome then s.confirmRetune i else s
  if a.more then s.lend i slot else s

/-! ## A MISMATCHED, GARBLED or ABSENT exchange (R75, R78, R79, R66) -/

/-- A miss counted: in the record's own turn for every outcome, and a grant miss in GRANTED, counted up to the grant
limit (R55, R75); in a LENT cell none (R66). -/
def State.countMiss (s : State) (i : Fin 48) (own : Bool) : State :=
  if own then
    s.modifyRecord i fun r =>
      { r with
        missCount := satAdd 15 r.missCount,
        grantMisses := if r.contact == .granted then satAdd s.params.grantLimit r.grantMisses else r.grantMisses }
  else s

/-- A mismatch counted, with the soft fault MISMATCH, and IDENTITY at 8 (R75, R80). -/
def State.countMismatch (s : State) (i : Fin 48) : State :=
  let t := (s.modifyRecord i fun r =>
      { r with mismatchCount := satAdd Config.identityLimit r.mismatchCount }).setSoft i .mismatch
  if (t.record i).mismatchCount == Config.identityLimit then t.takeIdentity i else t

/-- What the outcome itself does beyond the miss: a mismatch, or GARBLED in the record's own turn (R66, R75). -/
def State.noteOutcome (s : State) (i : Fin 48) (own : Bool) (o : ExchangeOutcome) : State :=
  match o with
  | .mismatched => s.countMismatch i
  | .garbled => if own then s.setSoft i .garbled else s
  | .matched _ _ | .absent | .dark => s

/-- Whether a record lapses at the end of an exchange that counted a miss (R80, R81). -/
def State.lapseDue (s : State) (i : Fin 48) : Bool :=
  (s.record i).contact == .present && (s.record i).hard.isNone && decide (s.params.lapseLimit ≤ (s.record i).missCount)

/-- Whether a grant lapses at the end of an exchange that counted a grant miss (R56, R80). -/
def State.grantLapseDue (s : State) (i : Fin 48) : Bool :=
  (s.record i).contact == .granted && (s.record i).hard.isNone
    && decide (s.params.grantLimit ≤ (s.record i).grantMisses)

/-- An exchange without a matched answer: counts and faults, the message's attempt, then the lapse, or the try of a
retune and the lapse of a grant (R56, R70, R75 to R82, R111; entry 5). An exchange that sets IDENTITY is a try of the
retune all the same, and as the third try it fails the retune (DESIGN CHOICE, entry 19). -/
def State.missedExchange (s : State) (i : Fin 48) (own : Bool) (poll : Poll) (o : ExchangeOutcome) : State :=
  let s := (s.countMiss i own).noteOutcome i own o
  let s := if poll.message.isSome then s.failMessage i else s
  if own && s.lapseDue i then s.lapse i
  else
    let s := if poll.retune.isSome then s.tryRetune i else s
    if own && s.grantLapseDue i then s.lapseGrant i else s

/-! ## The release exchange (R93) -/

/-- The completion of a release: FREE, or DORMANT when pinned (R93, R23). -/
def State.completeRelease (s : State) (i : Fin 48) : State :=
  if (s.record i).pinned then
    let s := ((s.withdrawGrant i).giveUpTurn i).modifyRecord i fun r => { r with inFlight := none }
    (s.markLeft i).becomeDormant i
  else s.becomeFree i true (some .retired)

/-! ## The judgement -/

/-- The exchange of a record polled in `slot`, acted on at the slot end (R75). The release exchange completes if its
POLL was sent, whatever the result (R93). -/
def State.judgeExchange (s : State) (x : Exchange) (sent : Bool) (slot : Nat) (o : ExchangeOutcome) : State :=
  if x.poll.release then
    if sent && (s.record x.record).contact == .releasing then s.completeRelease x.record else s
  else
    match o with
    | .matched a level => s.matchedExchange x.record x.poll a level slot
    | .dark => s
    | .mismatched | .garbled | .absent => s.missedExchange x.record (x.role != .lent) x.poll o

/-! ## Paging (R83 to R86) -/

/-- The page list chosen at a cycle start (R83). -/
def State.pageList (s : State) : List BeaconPage :=
  (((rotationFrom s.roster.pagePointer).filter fun i =>
      (s.record i).contact == .paging && decide (0 < (s.record i).pageCount)).take 4).map
    fun i => { record := i, carId := (s.record i).carId }

/-- One page that went out: the count of a record that is still PAGING with that car ID falls by 1. One that left PAGING
during slot 0 is passed over, even if it is PAGING again with that car ID (R84). -/
def State.usePage (s : State) (p : BeaconPage) : State :=
  if (s.record p.record).contact == .paging && (s.record p.record).carId == p.carId
      && !s.roster.passedOver.contains p.record then
    s.modifyRecord p.record fun r => { r with pageCount := r.pageCount - 1 }
  else s

/-- A page list handed back SENT: the counts fall and the pointer moves to the last record named (R84). -/
def State.usePages (s : State) (pages : List BeaconPage) : State :=
  let s := pages.foldl State.usePage s
  match pages.getLast? with
  | some p => { s with roster := { s.roster with pagePointer := p.record } }
  | none => s

/-- A PAGING record with its pages used up: retired, or set aside DORMANT when pinned (R86). -/
def State.exhaust (s : State) (i : Fin 48) : State :=
  let s := s.endSummon i .failed
  if (s.record i).pinned then s.becomeDormant i else s.becomeFree i true (some .retired)

/-- Page exhaustion at the end of slot 2, in index order (R86). -/
def State.exhaustPages (s : State) : State :=
  allRecords.foldl
    (fun s i => if (s.record i).contact == .paging && (s.record i).pageCount == 0 then s.exhaust i else s) s

end Sys2Proof.Machine
end

