-- ==== Sys2Proof/Machine/AirCycle.lean ====
section
/-! DEFINITION. The Air Framer: opening and closing the air, slot starts, up frames, falls of RF_READY, and slot ends with
all that follows from their notices (R1 to R18). -/

namespace Sys2Proof.Machine

/-! ## Darkness and the entry-open decision (R15, R17) -/

/-- The dark count set, and reported for AIR_DARK (R15, R171). -/
def State.setDarkCount (s : State) (n : Nat) : State := { s with air := { s.air with darkCount := n } }.reportAirDark

/-- The consecutive-garbled count set, and reported for AIR_CHECK (R16, R171). -/
def State.setGarbledRun (s : State) (n : Nat) : State := { s with air := { s.air with garbledRun := n } }.reportAirCheck

/-- Whether a sweep RUNNING with the close-entry option closes entry (R17, R157). -/
def State.entryClosedBySweep (s : State) : Bool := s.sweep.state == .running && s.sweep.closeEntry

/-- The entry-open decision as it is taken (R17). -/
def State.decideEntry (s : State) : Bool :=
  s.params.entryEnable && !s.entryClosedByCondition && !s.entryClosedBySweep

/-! ## Down frames (R7 to R10) -/

/-- The grant of a record as a BEACON carries it; a record in the grant list holds a tag and a turn (entry 24). -/
def State.beaconGrant (s : State) (i : Fin 48) : Option BeaconGrant :=
  (s.record i).turn.map fun t => { carId := (s.record i).carId, tag := (s.record i).tag.getD 0, turn := t }

/-- The BEACON of this cycle (R8). -/
def State.buildBeacon (s : State) : Beacon :=
  { station := s.params.station, cycle := s.air.cycle, entryOpen := s.air.entryOpen, sweepActive := s.sweepInProgress,
    grants := s.air.grants.filterMap s.beaconGrant, pages := s.pageList }

/-- The POLL of a record in a cell of the given role, its message already chosen (R10). A RELEASE poll carries no
EXTENSION (R92), and a RELEASING record holds no LENT cell (R91). -/
def State.buildPoll (s : State) (i : Fin 48) (role : CellRole) : Poll :=
  let r := s.record i
  { carId := r.carId, tag := r.tag.getD 0, release := r.contact == .releasing, scan := r.fading,
    sweep := s.sweep.state == .running && r.mark == .marked, extension := role == .lent,
    retune := r.retune.map RetuneContext.target, downBit := r.downBit, inboundAck := r.upBit,
    message := s.pollMessage i }

/-- The contact states in which a record is polled in its turn (R22). -/
def ContactState.polled : ContactState → Bool
  | .granted | .present | .releasing => true
  | .free | .paging | .dormant | .outbound => false

/-- Whether the Roster Engine has the holder of a cell polled: its state is polled, and it has no hard fault (R7, R22). -/
def Record.polled (r : Record) : Bool := r.contact.polled && r.hard.isNone

/-- The record polled in a turn slot: the holder in role TURN or LENT, if it is to be polled (R7, R59). -/
def State.polledHolder (s : State) (slot : Nat) : Option CellHolding :=
  (s.cell slot s.phase).bind fun h =>
    if (h.role == .turn || h.role == .lent) && (s.record h.holder).polled then some h else none

/-- A POLL begun: its message chosen, its frame built, its record in exchange (R7, R10, R108). -/
def State.beginPoll (s : State) (h : CellHolding) : State :=
  let t := s.startForPoll h.holder
  let poll := t.buildPoll h.holder h.role
  { t with
    air := { t.air with down := some (.poll poll),
                        exchange := some { record := h.holder, role := h.role, poll := poll } } }

/-- The down frame of a slot that is not dark at its start (R7). -/
def State.chooseDown (s : State) (slot : Nat) : State :=
  if slot = 0 then { s with air := { s.air with down := s.air.beacon.map .beacon } }
  else if slot ≤ 2 then
    if s.air.entryOpen then { s with air := { s.air with down := some (.entry s.params.station slot) } } else s
  else
    match s.polledHolder slot with
    | some h => s.beginPoll h
    | none => s

/-! ## The start of a slot (R4, R6, R13) -/

/-- The cycle start: the cycle number, the cells' ageing, the sweep's count (R4, R62, R161). -/
def State.startCycle (s : State) : State :=
  ({ s with air := { s.air with cycle := s.air.cycle + 1 } }.ageCells).countSweepCycle

/-- The entry-open decision taken and the beacon built, at LEAD of slot 0 (R8, R17, R83); of its page list no record has
left PAGING yet (R84). -/
def State.prepareBeacon (s : State) : State :=
  let t : State :=
    { s with air := { s.air with entryOpen := s.decideEntry }, roster := { s.roster with passedOver := [] } }
  { t with air := { t.air with beacon := some t.buildBeacon } }

/-- RF_READY sampled at LEAD: the slot is dark from its start when it is low (R13, R15). -/
def State.sampleReady (s : State) (ready : Bool) : State :=
  { s with rfReady := ready, air := { s.air with light := if ready then .ready else .darkFromStart } }.setDarkCount
    (if ready then 0 else satAdd 255 s.air.darkCount)

/-- A slot begun at LEAD (R6). -/
def State.beginSlot (s : State) (slot : Fin 32) : State :=
  { s with air := { s.air with slot := some slot, work := some .lead, down := none, up := none, exchange := none } }

/-- The start of a slot with the RF_READY sample: in slot 0 the cycle start, then the sample, in slot 0 the decision and
the beacon, and the down frame when the slot is not dark (R4 to R17; entry 4). -/
def State.startSlot (s : State) (slot : Fin 32) (ready : Bool) : State :=
  let s := s.beginSlot slot
  let s := if slot.val = 0 then s.startCycle else s
  let s := s.sampleReady ready
  let s := if slot.val = 0 then s.prepareBeacon else s
  if ready then s.chooseDown slot.val else s

/-- The slot that follows a slot (R4, R5). -/
def nextSlot (slot : Fin 32) : Fin 32 := slot + 1

/-- The next slot begun, when the air runs and no slot is in progress (entry 2). -/
def State.slotStart (s : State) (ready : Bool) : State :=
  match s.air.slot, s.air.work with
  | some k, none => s.startSlot (nextSlot k) ready
  | _, _ => s

/-- SLOT_START (R6, R13). -/
def execSlotStart (ready : Bool) (s : State) : Host.Outcome State Fault Refusal :=
  unlessHeld (fun s => s.slotStart ready) s

/-! ## Opening and closing the air (R2, R3) -/

/-- OPEN_AIR taken (R2). -/
def State.openAir (s : State) (ready : Bool) : State :=
  match s.air.state with
  | .closed =>
      if s.params.station == 0 then s.refuse .badState
      else (({ s with air := { s.air with state := .opened } } : State).startSlot 0 ready).respond .done []
  | .opened | .closing => ({ s with air := { s.air with state := .opened } } : State).respond .done []

/-- OPEN_AIR (R2). -/
def execOpenAir (params : List Byte) (ready : Bool) (s : State) : Host.Outcome State Fault Refusal :=
  hostRequest params.isEmpty (fun s => s.openAir ready) s

/-- CLOSE_AIR taken (R3). -/
def State.closeAir (s : State) : State :=
  (match s.air.state with
   | .opened => { s with air := { s.air with state := .closing } }
   | .closed | .closing => s : State).respond .done []

/-- CLOSE_AIR (R3). -/
def execCloseAir (params : List Byte) (s : State) : Host.Outcome State Fault Refusal :=
  hostRequest params.isEmpty State.closeAir s

/-! ## Within a slot (R12, R14) -/

/-- Whether the up-window of the slot in progress is opened: an entry slot, or a turn slot with a POLL, that is not dark
(R5, R13, R14). -/
def State.windowOpen (s : State) : Bool :=
  s.air.light == .ready && s.air.work.isSome
    && (match s.air.slot with
        | some k => k.val == 1 || k.val == 2 || s.air.exchange.isSome
        | none => false)

/-- The first up frame whose start the receiver finds in the window; the rest of the window is ignored (R12). -/
def State.receiveUp (s : State) (bytes : List Byte) (level : Nat) : State :=
  if s.windowOpen && s.air.up.isNone then
    { s with air := { s.air with work := some .window, up := some { bytes := bytes, level := level } } }
  else s

/-- UP_FRAME_RECEIVE (R12). -/
def execUpFrameReceive (bytes : List Byte) (level : Fin 64) (s : State) : Host.Outcome State Fault Refusal :=
  unlessHeld (fun s => s.receiveUp bytes level.val) s

/-- A phase of work's place in the order of R6. -/
def phaseRank : SlotPhase → Nat
  | .lead => 0
  | .head => 1
  | .body => 2
  | .check => 3
  | .turnaround => 4
  | .window => 5
  | .guard => 6

/-- The later of two phases of work. -/
def laterPhase (a b : SlotPhase) : SlotPhase := if phaseRank a ≤ phaseRank b then b else a

/-- RF_READY falls in a phase of work: a slot that was ready becomes dark after the fact. A down frame has begun unless
the fall comes in LEAD; the up-window's result is discarded (R14). -/
def State.readyFalls (s : State) (during : SlotPhase) : State :=
  match s.air.work with
  | some w =>
      let now := laterPhase w during
      { s with
        rfReady := false,
        air :=
          { s.air with
            work := some now, up := none,
            light :=
              match s.air.light with
              | .ready => .darkAfterFact (s.air.down.isSome && now != .lead)
              | l => l } }
  | none => s

/-- RF_READY_FALL (R14). -/
def execRfReadyFall (during : SlotPhase) (s : State) : Host.Outcome State Fault Refusal :=
  unlessHeld (fun s => s.readyFalls during) s

/-! ## The judgement of the up-window (R12, R16) -/

/-- The result of an up-window for a slot kind whose frames are of type `α` (R12, R18). -/
inductive WindowResult (α : Type) where
  | good (contents : α) (level : Nat)
  | garbled
  | absent
  | dark
  deriving DecidableEq, Repr

/-- An up-window judged: DARK in a dark slot, ABSENT with no frame, GOOD when the frame passes every test, else GARBLED
(R12, R14). -/
def Air.judge {α : Type} (a : Air) (decode : List Byte → Option α) : WindowResult α :=
  if a.light == .ready then
    match a.up with
    | some u =>
        match decode u.bytes with
        | some contents => .good contents u.level
        | none => .garbled
    | none => .absent
  else .dark

/-- The judgement of a turn slot that sent a POLL, on the station's counts of garbled frames (R12, R16). -/
def State.countWindow (s : State) (w : WindowResult Answer) : State :=
  match w with
  | .good _ _ => s.setGarbledRun 0
  | .garbled => s.countGarbled.setGarbledRun (satAdd 255 s.air.garbledRun)
  | .absent | .dark => s

/-- The outcome of an exchange from the window's result and what the POLL carried (R75). -/
def Poll.outcome (p : Poll) (w : WindowResult Answer) : ExchangeOutcome :=
  match w with
  | .good a level => if a.carId == p.carId && a.tag == p.tag then .matched a level else .mismatched
  | .garbled => .garbled
  | .absent => .absent
  | .dark => .dark

/-! ## The end of a slot (R18, R37) -/

/-- Whether the slot's down frame was sent: in a ready slot, or begun before the fall (R14). -/
def SlotLight.sent : SlotLight → Bool
  | .ready => true
  | .darkFromStart => false
  | .darkAfterFact begun => begun

/-- A slot made dark after the fact adds to the dark count at its end (R15). -/
def State.countDarkEnd (s : State) : State :=
  match s.air.light with
  | .darkAfterFact _ => s.setDarkCount (satAdd 255 s.air.darkCount)
  | .ready | .darkFromStart => s

/-- The BEACON handed back: its pages used if it was SENT, and the grant list emptied (R8, R54, R84). -/
def State.endBeacon (s : State) : State :=
  let t :=
    match s.air.light, s.air.beacon with
    | .ready, some b => s.usePages b.pages
    | _, _ => s
  { t with air := { t.air with grants := [] } }

/-- The notice of an entry slot: the hail decided, and in slot 2 page exhaustion judged after it (R42, R86). -/
def State.endEntry (s : State) (slot : Nat) : State :=
  let t :=
    match s.air.judge decodeHail with
    | .good h level => s.decideHail h level
    | .garbled => s.countGarbled
    | .absent | .dark => s
  if slot = 2 then t.exhaustPages else t

/-- The notice of a turn slot: the polled record's exchange judged, then its held work taken (R37, R75). -/
def State.endTurn (s : State) (slot : Nat) : State :=
  match s.air.exchange with
  | some x =>
      let w := s.air.judge decodeAnswer
      ((s.countWindow w).judgeExchange x s.air.light.sent slot (x.poll.outcome w)).closeWindow x.record
  | none => s

/-- The slot-end notice acted on, by slot kind (R18). -/
def State.endNotice (s : State) (slot : Nat) : State :=
  if slot = 0 then s.endBeacon else if slot ≤ 2 then s.endEntry slot else s.endTurn slot

/-- A cycle in CLOSING ends: the grant list is emptied and the air is CLOSED, with no slot (R3). -/
def State.finishClosing (s : State) : State :=
  if s.air.state == .closing then { s with air := { s.air with state := .closed, slot := none, grants := [] } } else s

/-- What a slot leaves behind: no work in progress, no frame, no exchange, no beacon. -/
def State.clearSlot (s : State) : State :=
  { s with air := { s.air with work := none, down := none, up := none, exchange := none, beacon := none, light := .ready } }

/-- The end of GUARD: the notice, a pending halt, after slot 31 the cycle end, and the passage to CLOSED (R3, R4, R18,
R163; entries 5, 6). -/
def State.finishSlot (s : State) (slot : Nat) : State :=
  let s := s.countDarkEnd.endNotice slot
  let s := s.applyHalt.clearSlot
  if slot = 31 then s.endCycle.finishClosing else s

/-- The slot in progress ends; a station reset that awaits the end takes effect in place of the notice (R18, R166). -/
def State.slotEnd (s : State) : State :=
  match s.air.slot, s.air.work with
  | some k, some _ => if s.resetPending then s.stationReset else s.finishSlot k.val
  | _, _ => s

/-- SLOT_END (R18). -/
def execSlotEnd (s : State) : Host.Outcome State Fault Refusal := unlessHeld State.slotEnd s

end Sys2Proof.Machine
end

