-- ==== Sys2Proof/Machine/Backbone.lean ====
section
/-! DEFINITION. The Backbone Ports: arriving frames, neighbours, routing, LOCATE and RELAY, the HELLO and silence
timers, the transmitter, and FLUSH_PORT (R122 to R137). -/

namespace Sys2Proof.Machine

/-! ## Arriving frames (R124, R125) -/

/-- A good frame restarts the silence timer and makes the neighbour UP (R124, R125). -/
def State.hearNeighbour (s : State) (p : Port) : State :=
  (s.modifyPort p fun q => { q with silence := 0, neighbour := .up }).reportLinkDown

/-- A good frame that is not a HELLO joins the receive queue, or is dropped and counted (R124). -/
def PortState.enqueue (q : PortState) (f : BackboneFrame) : PortState :=
  if q.receive.length < Config.receiveDepth then { q with receive := q.receive ++ [f] }
  else { q with receiveFull := satAdd Config.counterLimit q.receiveFull }

/-- A good frame taken in: a HELLO teaches the neighbour's number at once, every other kind is queued (R124). -/
def State.admitFrame (s : State) (p : Port) (f : BackboneFrame) : State :=
  (s.hearNeighbour p).modifyPort p fun q =>
    match f.payload with
    | .hello station => { q with neighbourNumber := some station }
    | _ => q.enqueue f

/-- A frame whose last byte has arrived on a port: nothing on an unused port (R122), else checked (R124). -/
def State.receiveFrame (s : State) (p : Port) (bytes : List Byte) : State :=
  if s.params.inUse p then
    match decodeBackbone bytes with
    | some f => s.admitFrame p f
    | none => s.countCheckError p
  else s

/-- BACKBONE_FRAME_RECEIVE (R124). -/
def execBackboneFrameReceive (p : Port) (bytes : List Byte) (s : State) : Host.Outcome State Fault Refusal :=
  unlessHeld (fun s => s.receiveFrame p bytes) s

/-! ## Forwarding (R129) -/

/-- A frame passed on from the port it arrived on, its hop limit lowered, or dropped at hop limit 1 (R129). -/
def State.forward (s : State) (arrived leaves : Port) (f : BackboneFrame) : State :=
  if f.hop ≤ 1 then s.modifyPort arrived fun q => { q with hopDrops := satAdd Config.counterLimit q.hopDrops }
  else s.offerTraffic leaves { f with hop := f.hop - 1 }

/-- Whether a frame by car may be forwarded through a port: in use, neighbour not DOWN, hop limit above 1 (R130,
R131). -/
def State.canForward (s : State) (p : Port) (f : BackboneFrame) : Bool :=
  s.params.inUse p && (s.port p).neighbour != .down && decide (1 < f.hop)

/-! ## LOCATE (R130) -/

/-- A LOCATED toward the source of a LOCATE, routed by its destination as in R128; one that leads to the own number is
counted on the receiving port (entry 15). -/
def State.sendLocated (s : State) (arrived : Port) (dest : Nat) (payload : Payload) : State :=
  match portToward s.params.station dest with
  | some p => s.offerTraffic p (s.originate dest payload)
  | none => s.countCheckError arrived

/-- The contents of the LOCATED for a record found, its peer with OUTBOUND (R103, R130). -/
def State.locatedRecord (s : State) (i : Fin 48) (car query : Nat) : Payload :=
  let r := s.record i
  .located car query s.params.station (some r.contact) r.level
    (if r.contact == .outbound then r.handover.map HandoverContext.peer else none)

/-- The LOCATED of a car not held (R103, R130). -/
def State.locatedNone (s : State) (car query : Nat) : Payload := .located car query s.params.station none 0 none

/-- A LOCATE handled by car (R130). -/
def State.locate (s : State) (arrived : Port) (f : BackboneFrame) (car query : Nat) : State :=
  match s.lookup car with
  | some i => s.sendLocated arrived f.source (s.locatedRecord i car query)
  | none =>
      if f.dest == 0 && s.canForward .inbye f then s.forward arrived .inbye f
      else s.sendLocated arrived f.source (s.locatedNone car query)

/-! ## RELAY (R107, R131) -/

/-- The message that a RELAY posts (R107). -/
def relayMessage (i : Fin 48) (number : Nat) (urgency : Urgency) (receipt : Bool) (body : List Byte) : Message :=
  { target := i, urgency := urgency, source := .dispatch number, receipt := receipt, attempts := 0, body := body,
    placement := .posted }

/-- A RELAY for a record that accepts posts: posted, with NOTE POSTED when its receipt flag is set, or NOTE FULL
(R131). -/
def State.relayPost (s : State) (car number : Nat) (m : Message) : State :=
  if s.hasRoom m.target then
    let t := s.placeMessage m
    if m.receipt then t.sendNote car number .posted else t
  else s.sendNote car number .full

/-- A RELAY passed on through a port, or NOTE UNREACHABLE when it cannot be (R131). -/
def State.relayOn (s : State) (arrived leaves : Port) (f : BackboneFrame) (car number : Nat) : State :=
  if s.canForward leaves f then s.forward arrived leaves f else s.sendNote car number .unreachable

/-- A RELAY re-addressed to the peer of an OUTBOUND record's context (R131). Where the peer is the own number no port leads
there, and NOTE UNREACHABLE is sent (DESIGN CHOICE, entry 15). -/
def State.relayToPeer (s : State) (arrived : Port) (f : BackboneFrame) (i : Fin 48) (car number : Nat) : State :=
  match (s.record i).handover with
  | some c =>
      match portToward s.params.station c.peer with
      | some p => s.relayOn arrived p { f with dest := c.peer } car number
      | none => s.sendNote car number .unreachable
  | none => s.sendNote car number .unreachable

/-- A RELAY handled by car (R131). -/
def State.relay (s : State) (arrived : Port) (f : BackboneFrame) (car number : Nat) (urgency : Urgency)
    (receipt : Bool) (body : List Byte) : State :=
  match s.lookup car with
  | some i =>
      if (s.record i).contact.acceptsPosts then s.relayPost car number (relayMessage i number urgency receipt body)
      else if (s.record i).contact == .outbound then s.relayToPeer arrived f i car number
      else s.sendNote car number .unreachable
  | none =>
      if f.dest == 0 then s.relayOn arrived .inbye f car number else s.sendNote car number .unreachable

/-! ## Routing (R127, R128) -/

/-- The car that a CLAIM, TRANSFER, TAKEN or REFUSED names. -/
def Payload.handoverCar : Payload → Option Nat
  | .claim car .. => some car
  | .transfer car .. => some car
  | .taken car _ => some car
  | .refused car _ => some car
  | .hello _ | .locate _ _ | .located .. | .relay .. | .note .. | .uplink .. => none

/-- Whether the car of a handover frame is held by the record in exchange (R36). -/
def State.holdsFrame (s : State) (car : Nat) : Bool :=
  match s.lookup car with
  | some i => s.inExchange i
  | none => false

/-- A CLAIM, TRANSFER, TAKEN or REFUSED for this station: held for a record in exchange, else taken at once (R36,
R128). -/
def State.handoverArrival (s : State) (arrived : Port) (f : BackboneFrame) (car : Nat) : State :=
  if s.holdsFrame car then s.holdWork (.frame arrived f) else s.takeHandoverFrame arrived f

/-- A frame whose destination is this station or none (R128). -/
def State.handleHere (s : State) (arrived : Port) (f : BackboneFrame) : State :=
  match f.payload with
  | .locate car query => s.locate arrived f car query
  | .relay car number urgency receipt body => s.relay arrived f car number urgency receipt body
  | .claim car .. | .transfer car .. | .taken car _ | .refused car _ => s.handoverArrival arrived f car
  | .located .. | .note .. | .uplink .. | .hello _ => s.countCheckError arrived

/-- A frame taken from a receive queue, routed by its destination (R128). -/
def State.route (s : State) (arrived : Port) (f : BackboneFrame) : State :=
  if s.params.station == 0 then s.countCheckError arrived
  else if f.dest == 0 || f.dest == s.params.station then s.handleHere arrived f
  else
    match portToward s.params.station f.dest with
    | some p => s.forward arrived p f
    | none => s

/-- The frame at the head of a receive queue taken and routed (R127). -/
def State.takeReceived (s : State) (p : Port) : State :=
  match (s.port p).receive with
  | f :: rest => (s.modifyPort p fun q => { q with receive := rest }).route p f
  | [] => s

/-- RECEIVE_QUEUE_TAKE (R127). -/
def execReceiveQueueTake (p : Port) (s : State) : Host.Outcome State Fault Refusal :=
  unlessHeld (fun s => s.takeReceived p) s

/-! ## Timers and the transmitter (R123, R125, R133) -/

/-- A HELLO due on a port, its timer restarted (R123). -/
def State.helloDue (s : State) (p : Port) : State :=
  if s.params.inUse p then (s.modifyPort p fun q => { q with helloTimer := 0, helloDue := true }).arbitrate p else s

/-- HELLO_TIMER_EXPIRY (R123). -/
def execHelloTimerExpiry (p : Port) (s : State) : Host.Outcome State Fault Refusal :=
  unlessHeld (fun s => s.helloDue p) s

/-- The silence timer at its end: the neighbour becomes DOWN, LINK_DOWN is told, and the port is lost (R125, R150). -/
def State.silenceEnds (s : State) (p : Port) : State :=
  if s.params.inUse p then
    let t := s.modifyPort p fun q => { q with silence := 1000, neighbour := .down }
    if (s.port p).neighbour == .down then t else t.reportLinkDown.losePort p
  else s

/-- SILENCE_TIMEOUT (R125). -/
def execSilenceTimeout (p : Port) (s : State) : Host.Outcome State Fault Refusal :=
  unlessHeld (fun s => s.silenceEnds p) s

/-- A frame sent to its end; the arbiter chooses the next one (R133). -/
def State.transmitted (s : State) (p : Port) : State :=
  if (s.port p).sending.isSome then (s.modifyPort p fun q => { q with sending := none }).arbitrate p else s

/-- TRANSMIT_COMPLETE (R133). -/
def execTransmitComplete (p : Port) (s : State) : Host.Outcome State Fault Refusal :=
  unlessHeld (fun s => s.transmitted p) s

/-! ## FLUSH_PORT (R136) -/

/-- Both queues of a port emptied, and the number of frames discarded answered (R136). -/
def State.flushPort (s : State) (p : Port) : State :=
  (s.modifyPort p fun q => { q with receive := [], traffic := [] }).respond .done
    [byteOf ((s.port p).receive.length + (s.port p).traffic.length)]

/-- FLUSH_PORT (R136). -/
def execFlushPort (params : List Byte) (s : State) : Host.Outcome State Fault Refusal :=
  match params with
  | [port] =>
      hostRequest true
        (fun s =>
          match Port.ofCode port.toNat with
          | some p => s.flushPort p
          | none => s.refuse .badValue) s
  | _ => hostRequest false id s

end Sys2Proof.Machine
end

