-- ==== Sys2Proof/Machine/HostPort.lean ====
section
/-! DEFINITION. The Command Port and the Condition Unit: reports, masks, conditions, parameters, refused requests and
identity (R165 to R173). -/

namespace Sys2Proof.Machine

/-! ## The attention list (R168) -/

/-- The head entry removed and answered; a FREE record becomes allocatable, which ends ROSTER_FULL (R168, R47). -/
def State.nextAttention (s : State) : State :=
  match s.host.attention with
  | [] => s.respond .done []
  | e :: rest =>
      let t : State := { s with host := { s.host with attention := rest } }
      let t := if (s.record e.record).contact == .free then t.reportCause .rosterFull false else t
      t.respond .done
        ([byteOf e.record.val] ++ e.reasons.bytes ++ bytes16 (s.record e.record).carId
          ++ [byteOf (s.record e.record).contact.code])

/-- NEXT_ATTENTION (R168). -/
def execNextAttention (params : List Byte) (s : State) : Host.Outcome State Fault Refusal :=
  hostRequest params.isEmpty State.nextAttention s

/-! ## READ_STATION and CLEAR_COUNTS (R173) -/

/-- A port's part of READ_STATION: use, neighbour state, learned number in one byte, the four drop counters (entry 13). -/
def PortState.reportBytes (q : PortState) (inUse : Bool) : List Byte :=
  [flagByte inUse, byteOf q.neighbour.code] ++ optionBytes (fun n => [byteOf n]) q.neighbourNumber
    ++ counterBytes q.checkErrors ++ counterBytes q.receiveFull ++ counterBytes q.trafficFull
    ++ counterBytes q.hopDrops

/-- A class's part of READ_STATION: active, latched, forced, action, cause (entry 13). -/
def State.classBytes (s : State) (c : ConditionClass) : List Byte :=
  let f := s.classFlags c
  [flagByte f.active, flagByte f.latched, flagByte f.forced, byteOf (s.params.actionOf c).code, flagByte f.cause]

/-- The result of READ_STATION, in the order of R173; the station number and the cycle number as one byte each, the event
mask as two bytes, the values of INBYE before those of OUTBYE (DESIGN CHOICE, entry 13). -/
def State.stationBytes (s : State) : List Byte :=
  [byteOf s.air.state.code, s.air.cycle, byteOf s.params.station, byteOf s.freeCells, byteOf s.freeBuffers,
    byteOf s.inbound.length, byteOf s.roster.pinnedCount, byteOf s.roster.summonCount, byteOf s.sweep.state.code]
    ++ s.ports.inbye.reportBytes s.params.inbyeUse ++ s.ports.outbye.reportBytes s.params.outbyeUse
    ++ counterBytes s.host.hailsRefused ++ counterBytes s.host.hailsHeld ++ counterBytes s.host.garbledFrames
    ++ [byteOf s.host.portCheck] ++ s.pendingEvents.map flagByte ++ bytes16 s.params.eventMask.toNat
    ++ ConditionClass.all.flatMap s.classBytes

/-- READ_STATION (R173). -/
def execReadStation (params : List Byte) (s : State) : Host.Outcome State Fault Refusal :=
  hostRequest params.isEmpty (fun s => s.respond .done s.stationBytes) s

/-- A port's drop counters set to 0. -/
def PortState.clearCounts (q : PortState) : PortState :=
  { q with checkErrors := 0, receiveFull := 0, trafficFull := 0, hopDrops := 0 }

/-- The three station counters and the eight drop counters set to 0 (R173). -/
def State.clearCounts (s : State) : State :=
  { s with
    host := { s.host with hailsRefused := 0, hailsHeld := 0, garbledFrames := 0 },
    ports := { inbye := s.ports.inbye.clearCounts, outbye := s.ports.outbye.clearCounts } }

/-- CLEAR_COUNTS (R173). -/
def execClearCounts (params : List Byte) (s : State) : Host.Outcome State Fault Refusal :=
  hostRequest params.isEmpty (fun s => s.clearCounts.respond .done []) s

/-! ## Masks (R169) -/

/-- A mask replaced whole; a mask or an item that names nothing is BAD_VALUE (R169, R177). -/
def State.setMask (s : State) (mask : Byte) (enables : Nat) : State :=
  match mask.toNat with
  | 0 =>
      if enables < 2 ^ 11 then
        ({ s with params := { s.params with attentionMask := BitVec.ofNat 11 enables } } : State).respond .done []
      else s.refuse .badValue
  | 1 =>
      if enables < 2 ^ 4 then
        ({ s with params := { s.params with eventMask := BitVec.ofNat 4 enables } } : State).respond .done []
      else s.refuse .badValue
  | _ => s.refuse .badValue

/-- SET_MASK: mask, enables (R169, R177). -/
def execSetMask (params : List Byte) (s : State) : Host.Outcome State Fault Refusal :=
  match params with
  | [mask, hi, lo] => hostRequest true (fun s => s.setMask mask (wordOf hi lo)) s
  | _ => hostRequest false id s

/-! ## Conditions (R171) -/

/-- A class's latch cleared, unless the class is active (R171). -/
def State.clearLatch (s : State) (c : ConditionClass) : State :=
  if (s.classFlags c).active then s.refuse .badState
  else (s.setClass c { s.classFlags c with latched := false }).respond .done []

/-- CLEAR_CONDITION: class (R171). -/
def execClearCondition (params : List Byte) (s : State) : Host.Outcome State Fault Refusal :=
  match params with
  | [cls] =>
      hostRequest true
        (fun s =>
          match ConditionClass.ofCode cls.toNat with
          | some c => s.clearLatch c
          | none => s.refuse .badValue) s
  | _ => hostRequest false id s

/-- FORCE_CONDITION: class, on or off (R171). -/
def execForceCondition (params : List Byte) (s : State) : Host.Outcome State Fault Refusal :=
  match params with
  | [cls, on] =>
      hostRequest true
        (fun s =>
          match ConditionClass.ofCode cls.toNat, flagOfCode on.toNat with
          | some c, some forced => (s.forceClass c forced).respond .done []
          | _, _ => s.refuse .badValue) s
  | _ => hostRequest false id s

/-! ## Parameters (R167) -/

/-- A port made unused: its neighbour unknown and unlearned, its queues emptied, the HELLO due dropped, and the port
lost (R122, R150; entry 26). -/
def State.closePort (s : State) (p : Port) : State :=
  ((s.modifyPort p fun q =>
      { q with neighbour := .unknown, neighbourNumber := none, receive := [], traffic := [], helloDue := false }
    ).losePort p).reportLinkDown

/-- A port made used: its timers restarted and a HELLO due at once (R122). -/
def State.openPort (s : State) (p : Port) : State :=
  ((s.modifyPort p fun q =>
      { q with neighbour := .unknown, helloTimer := 0, silence := 0, helloDue := true }).arbitrate p).reportLinkDown

/-- Every context ended by a new station number, in index order (R138). -/
def State.endContexts (s : State) : State := allRecords.foldl State.loseContext s

/-- What an accepted change does at once, `old` being the parameters before it (R122, R138, R167). -/
def State.parameterChanged (s : State) (old : Params) (name : ParamName) : State :=
  match name with
  | .station => if s.params.station == old.station then s else s.endContexts
  | .portUse p =>
      if s.params.inUse p == old.inUse p then s else if s.params.inUse p then s.openPort p else s.closePort p
  | .poolLow => s.reportPool
  | .airCheck => s.reportAirCheck
  | .darkLimit => s.reportAirDark
  | .portCheckThreshold => s.reportPortCheck
  | .classPeriod _ | .lapseLimit | .grantLimit | .pageLimit | .attemptLimit | .recordLimit | .lo | .hi | .fadeCount
  | .contestMargin | .handoverTimeout | .arbiterMode | .deliveryMode | .inboundLevel | .entryEnable | .action _ => s

/-- CONFIGURE of a parameter (R167); out of range is tested before the state (entry 14). -/
def State.configure (s : State) (name : ParamName) (v : Nat) : State :=
  if !s.params.inRange name v then s.refuse .badValue
  else if name == .station && s.air.state != .closed then s.refuse .badState
  else (({ s with params := s.params.set name v } : State).parameterChanged s.params name).respond .done []

/-- CONFIGURE: parameter, value (R167, R177). -/
def execConfigure (params : List Byte) (s : State) : Host.Outcome State Fault Refusal :=
  match params with
  | [number, hi, lo] =>
      hostRequest true
        (fun s =>
          match ParamName.ofCode number.toNat with
          | some name => s.configure name (wordOf hi lo)
          | none => s.refuse .badValue) s
  | _ => hostRequest false id s

/-- READ_PARAM: parameter; the value as two bytes (R167, R177; entry 13). -/
def execReadParam (params : List Byte) (s : State) : Host.Outcome State Fault Refusal :=
  match params with
  | [number] =>
      hostRequest true
        (fun s =>
          match ParamName.ofCode number.toNat with
          | some name => s.respond .done (bytes16 (s.params.value name))
          | none => s.refuse .badValue) s
  | _ => hostRequest false id s

/-! ## Refused requests, the port check count, identity (R165, R173) -/

/-- The port check count set, and reported for PORT_CHECK (R165). -/
def State.setPortCheck (s : State) (n : Nat) : State := { s with host := { s.host with portCheck := n } }.reportPortCheck

/-- CLEAR_PORT_CHECK (R165). -/
def execClearPortCheck (params : List Byte) (s : State) : Host.Outcome State Fault Refusal :=
  hostRequest params.isEmpty (fun s => (s.setPortCheck 0).respond .done []) s

/-- A request with a wrong check byte (R165, R174). -/
def execBadCheckRequest (_bytes : List Byte) (s : State) : Host.Outcome State Fault Refusal :=
  unlessHeld (fun s => (s.setPortCheck (satAdd 3 s.host.portCheck)).refuse .badCheck) s

/-- A request whose code names no command (R165). -/
def execBadCommandRequest (_code : Byte) (_params : List Byte) (s : State) : Host.Outcome State Fault Refusal :=
  unlessHeld (fun s => s.refuse .badCommand) s

/-- The result of IDENTIFY: the part code and the revision number (R173). -/
def identityBytes : List Byte := bytes16 Config.partCode ++ [byteOf Config.revision]

/-- IDENTIFY: taken also while a station reset awaits its slot end (R165, R173). -/
def execIdentify (params : List Byte) (s : State) : Host.Outcome State Fault Refusal :=
  unlessHeld (fun s => if params.isEmpty then s.respond .done identityBytes else s.refuse .badValue) s

end Sys2Proof.Machine
end

