-- ==== Sys2Proof/Machine/Dispatch.lean ====
section
/-! DEFINITION. One arm for each command. -/

namespace Sys2Proof.Machine

def exec (i : Instr) (s : State) : Host.Outcome State Fault Refusal :=
  match i with
  | .readRecord params => Sys2Proof.Machine.execReadRecord params s
  | .findCar params => Sys2Proof.Machine.execFindCar params s
  | .post params => Sys2Proof.Machine.execPost params s
  | .retire params => Sys2Proof.Machine.execRetire params s
  | .release params => Sys2Proof.Machine.execRelease params s
  | .retune params => Sys2Proof.Machine.execRetune params s
  | .summon params => Sys2Proof.Machine.execSummon params s
  | .pin params => Sys2Proof.Machine.execPin params s
  | .unpin params => Sys2Proof.Machine.execUnpin params s
  | .setKeep params => Sys2Proof.Machine.execSetKeep params s
  | .clearKeep params => Sys2Proof.Machine.execClearKeep params s
  | .clearFault params => Sys2Proof.Machine.execClearFault params s
  | .sweepStart params => Sys2Proof.Machine.execSweepStart params s
  | .sweepHalt params => Sys2Proof.Machine.execSweepHalt params s
  | .sweepResume params => Sys2Proof.Machine.execSweepResume params s
  | .sweepCancel params => Sys2Proof.Machine.execSweepCancel params s
  | .readSweep params => Sys2Proof.Machine.execReadSweep params s
  | .readInbound params => Sys2Proof.Machine.execReadInbound params s
  | .flushInbound params => Sys2Proof.Machine.execFlushInbound params s
  | .nextAttention params => Sys2Proof.Machine.execNextAttention params s
  | .readStation params => Sys2Proof.Machine.execReadStation params s
  | .clearCounts params => Sys2Proof.Machine.execClearCounts params s
  | .setMask params => Sys2Proof.Machine.execSetMask params s
  | .clearCondition params => Sys2Proof.Machine.execClearCondition params s
  | .forceCondition params => Sys2Proof.Machine.execForceCondition params s
  | .configure params => Sys2Proof.Machine.execConfigure params s
  | .readParam params => Sys2Proof.Machine.execReadParam params s
  | .setLanes params => Sys2Proof.Machine.execSetLanes params s
  | .openAir params rfReady => Sys2Proof.Machine.execOpenAir params rfReady s
  | .closeAir params => Sys2Proof.Machine.execCloseAir params s
  | .stationReset params => Sys2Proof.Machine.execStationReset params s
  | .flushPort params => Sys2Proof.Machine.execFlushPort params s
  | .clearPortCheck params => Sys2Proof.Machine.execClearPortCheck params s
  | .identify params => Sys2Proof.Machine.execIdentify params s
  | .badCheckRequest bytes => Sys2Proof.Machine.execBadCheckRequest bytes s
  | .badCommandRequest code params => Sys2Proof.Machine.execBadCommandRequest code params s
  | .resetNAssert => Sys2Proof.Machine.execResetNAssert s
  | .resetNRelease => Sys2Proof.Machine.execResetNRelease s
  | .stationResetTakesEffect => Sys2Proof.Machine.execStationResetTakesEffect s
  | .slotStart rfReady => Sys2Proof.Machine.execSlotStart rfReady s
  | .upFrameReceive bytes level => Sys2Proof.Machine.execUpFrameReceive bytes level s
  | .rfReadyFall during => Sys2Proof.Machine.execRfReadyFall during s
  | .slotEnd => Sys2Proof.Machine.execSlotEnd s
  | .sweepDeadline => Sys2Proof.Machine.execSweepDeadline s
  | .backboneFrameReceive port bytes => Sys2Proof.Machine.execBackboneFrameReceive port bytes s
  | .receiveQueueTake port => Sys2Proof.Machine.execReceiveQueueTake port s
  | .helloTimerExpiry port => Sys2Proof.Machine.execHelloTimerExpiry port s
  | .silenceTimeout port => Sys2Proof.Machine.execSilenceTimeout port s
  | .transmitComplete port => Sys2Proof.Machine.execTransmitComplete port s
  | .claimExpiry record => Sys2Proof.Machine.execClaimExpiry record s
  | .handingExpiry record => Sys2Proof.Machine.execHandingExpiry record s

end Sys2Proof.Machine
end

