-- ==== Sys2Proof/Machine/Step.lean ====
section
/-! DEFINITION. One step: the command at the front of the queue, or one millisecond when none waits. -/

namespace Sys2Proof.Machine

/-- One step: the oldest waiting command is taken and carried out on the state with the queue's rest. When none waits
the part idles, and the step is one millisecond on its timers (DESIGN CHOICE, entry 3). -/
def step (s : State) : Host.Outcome State Fault Refusal :=
  match s.pending with
  | c :: rest => exec c { s with pending := rest }
  | [] => .next s.passMillisecond

/-- The state with the command that a table word spells put at the front of its queue. -/
def State.withFetchWord (s : State) (nbits w : Nat) : State :=
  match decodeTableWord nbits w with
  | some c => { s with pending := c :: s.pending }
  | none => s

end Sys2Proof.Machine
end

