-- ==== Sys2Proof/Safety.lean ====
section
/-! DEFINITION. The terms in which the statements speak: what counts as a safe step, when requests are taken, what the
return of a record to FREE and a station reset leave, and the invariants of the part. -/

namespace Sys2Proof.Machine

/-! ## Steps and requests -/

/-- A step that goes on: neither a fault nor a refusal. -/
def goesOn (o : Host.Outcome State Fault Refusal) : Bool :=
  match o with
  | .next _ => true
  | .fault _ => false
  | .refused _ => false

/-- The part carries out requests: RESET_N is released and no station reset awaits its slot end (R165, R166). -/
def State.takesRequests (s : State) : Bool := !s.resetHeld && !s.resetPending

/-- The number of parameter bytes of a command by the table of R177; none for POST, whose body has a length byte. -/
def parameterCount (code : Nat) : Option Nat :=
  match code with
  | 0x10 | 0x13 | 0x14 | 0x17 | 0x18 | 0x19 | 0x1A | 0x1B | 0x34 | 0x41 | 0x42 | 0x46 => some 1
  | 0x11 | 0x15 | 0x16 | 0x35 => some 2
  | 0x33 | 0x40 => some 3
  | 0x20 => some 4
  | 0x21 | 0x22 | 0x23 | 0x24 | 0x28 | 0x29 | 0x30 | 0x31 | 0x32 | 0x43 | 0x44 | 0x45 | 0x47 | 0x48 => some 0
  | _ => none

/-- Whether the parameters are as many as the command takes (R165, R177). -/
def lengthRight (code : Nat) (params : List Byte) : Bool :=
  match parameterCount code with
  | some n => params.length == n
  | none =>
      match params with
      | _ :: _ :: n :: body => body.length == n.toNat
      | _ => false

/-! ## Effects named in several statements -/

/-- A record that is as it was, but that a frame due in its handover context may have begun (R133). -/
def Record.sameButSent (r t : Record) : Prop :=
  t = r ∨ ∃ c, r.handover = some c ∧ t = { r with handover := some { c with due := false } }

/-- Whether a cell is held by a record. -/
def heldBy (i : Fin 48) (c : Option CellHolding) : Bool :=
  match c with
  | some h => h.holder == i
  | none => false

/-- Whether a sweep in progress has a record MARKED (R159). -/
def State.sweepAwaits (s : State) (i : Fin 48) : Bool := s.sweepInProgress && (s.record i).mark == .marked

/-- A reason was offered for a record: it stands in the record's entry, if the attention mask enables it, with the outcome
that it carries (R168). -/
def State.told (s t : State) (i : Fin 48) (reason : Reason) : Prop :=
  s.params.attentionMask.getLsbD reason.bit.val = true →
    ∃ e ∈ t.host.attention, e.record = i ∧ e.reasons.bits.getLsbD reason.bit.val = true
      ∧ (∀ o, reason = .summonEnded o → e.reasons.summonOutcome = some o)
      ∧ (∀ o, reason = .retuneEnded o → e.reasons.retuneOutcome = some o)

/-- A class after one or more reports of its cause, the last of them `cause` (R171, R172): the forced flag stands, and the
latch is kept, and is set if the class has become active. -/
def State.classReported (s t : State) (c : ConditionClass) (cause : Bool) : Prop :=
  (t.classFlags c).cause = cause ∧ (t.classFlags c).forced = (s.classFlags c).forced
    ∧ ((s.classFlags c).latched = true → (t.classFlags c).latched = true)
    ∧ ((t.classFlags c).active = true → (s.classFlags c).active = false → (t.classFlags c).latched = true)

/-- No class moves but those named. -/
def State.onlyClasses (s t : State) (moved : List ConditionClass) : Prop :=
  ∀ c, c ∉ moved → t.classFlags c = s.classFlags c

/-- A class whose cause has ended, if the event that ends it took place, and which is else as it was (R47, R48, R171). -/
def State.causeEnded (s t : State) (c : ConditionClass) (event : Prop) : Prop :=
  (event → t.classFlags c = { s.classFlags c with cause := false }) ∧ (¬ event → t.classFlags c = s.classFlags c)

/-- PLAN_FULL after the cells of `s` that a test picks were freed: it has ended if there were any (R48). -/
def State.planFreed (s t : State) (picked : Option CellHolding → Bool) : Prop :=
  s.causeEnded t .planFull (∃ k : Fin 232, picked s.cells[k] = true)

/-- POOL_LOW after a change of the free buffers, or without one (R104). -/
def State.poolReported (s t : State) (changed : Prop) : Prop :=
  (changed → s.classReported t .poolLow (decide (t.freeBuffers < s.params.poolLow)))
    ∧ (¬ changed → t.classFlags .poolLow = s.classFlags .poolLow)

/-- Whether a cell is LENT to a record or PENDING for it: the cells that a release and a re-entry free (R64, R73, R91). -/
def lentOrPendingOf (i : Fin 48) (c : Option CellHolding) : Bool :=
  c == some { holder := i, role := .lent } || c == some { holder := i, role := .pending }

/-- The condition classes after record `i` became FREE: PLAN_FULL ended by its cells (R48), POOL_LOW by its buffers (R104),
IDENTITY reported without it (R35), and ROSTER_FULL ended if it is off the attention list (R39, R47). -/
def State.classesFreed (s t : State) (i : Fin 48) : Prop :=
  s.planFreed t (heldBy i) ∧ s.poolReported t (∃ b ∈ (s.record i).messages, s.pool[b] ≠ none)
    ∧ s.classReported t .identity (decide (∃ j, j ≠ i ∧ (s.record j).hard ≠ none))
    ∧ s.causeEnded t .rosterFull (t.onAttention i = false)
    ∧ t.classFlags .linkDown = s.classFlags .linkDown ∧ t.classFlags .portCheck = s.classFlags .portCheck

/-- Record `i`, which leaves its contact state, is passed over by the BEACON of the slot 0 in progress if it leaves PAGING, and
no other record is so anew (R84). -/
def State.passedOverIn (s t : State) (i : Fin 48) : Prop :=
  ∀ j, j ∈ t.roster.passedOver ↔ j ∈ s.roster.passedOver ∨
    (j = i ∧ s.air.slot = some 0 ∧ s.air.work ≠ none ∧ (s.record i).contact = .paging)

/-- `t` is `s` after record `i` became FREE, but for the air: what R39 makes of the record, its cells, its messages and the
counts, that it is passed over if it leaves PAGING during slot 0 (R84), what becomes of the condition classes, and what is
left alone. -/
def State.recordFreed (s t : State) (i : Fin 48) : Prop :=
  t.record i =
      { Record.free with
        carId := (s.record i).carId, mark := if s.sweepAwaits i then .left else (s.record i).mark }
    ∧ (∀ j, j ≠ i → (s.record j).sameButSent (t.record j))
    ∧ (∀ k : Fin 232, t.cells[k] = if heldBy i s.cells[k] then none else s.cells[k])
    ∧ (∀ b : Fin 64, t.pool[b] = if b ∈ (s.record i).messages then none else s.pool[b])
    ∧ t.roster.summonCount = s.roster.summonCount - (if (s.record i).summoned then 1 else 0)
    ∧ t.roster.pinnedCount = s.roster.pinnedCount - (if (s.record i).pinned then 1 else 0)
    ∧ t.sweep.left = s.sweep.left + (if s.sweepAwaits i then 1 else 0)
    ∧ t.roster.tagCounter = s.roster.tagCounter ∧ t.roster.pagePointer = s.roster.pagePointer
    ∧ s.passedOverIn t i ∧ s.classesFreed t i
    ∧ t.roster.held = s.roster.held ∧ t.params = s.params ∧ t.inbound = s.inbound ∧ t.clock = s.clock
    ∧ t.resetPending = s.resetPending ∧ t.resetHeld = s.resetHeld ∧ t.rfReady = s.rfReady ∧ t.pending = s.pending

/-- `t` is `s` after record `i` became FREE between slots' ends: its grant is withdrawn, and the air is otherwise as it
was (R39, R53). -/
def State.freed (s t : State) (i : Fin 48) : Prop :=
  s.recordFreed t i ∧ t.air = { s.air with grants := s.air.grants.filter fun j => j != i }
    ∧ s.onlyClasses t [.planFull, .poolLow, .identity, .rosterFull]

/-- A port after a station reset: the table's values, a frame being sent going on, and on an idle port in use whose
station number is set the HELLO that is due at once (R137). -/
def State.portReset (s : State) (p : Port) (q : PortState) : Prop :=
  q.neighbour = .unknown ∧ q.neighbourNumber = none ∧ q.helloTimer = 0 ∧ q.silence = 0 ∧ q.receive = [] ∧ q.traffic = []
    ∧ q.rotation = 47 ∧ q.lastServed = .traffic ∧ q.checkErrors = 0 ∧ q.receiveFull = 0 ∧ q.trafficFull = 0
    ∧ q.hopDrops = 0
    ∧ (if s.params.inUse p = true ∧ (s.port p).sending = none then
         q.helloDue = false ∧ q.sending = if s.params.station = 0 then none else some s.helloFrame
       else q.helloDue = s.params.inUse p ∧ q.sending = (s.port p).sending)

/-- `t` is `s` after a station reset took effect (R166), but for the response. -/
def State.stationWasReset (s t : State) : Prop :=
  t.air = Air.reset ∧ t.roster = Roster.reset ∧ t.cells = Cells.reset ∧ t.pool = Pool.reset ∧ t.inbound = []
    ∧ t.sweep = Sweep.reset ∧ t.host = { HostPort.reset with portCheck := s.host.portCheck }
    ∧ (∀ p, s.portReset p (t.port p)) ∧ t.params = s.params ∧ t.clock = 0 ∧ t.resetPending = false
    ∧ (∀ c, c ≠ .portCheck → t.classFlags c = { cause := false, latched := false, forced := false })
    ∧ (t.classFlags .portCheck).cause = decide (s.params.portCheckThreshold ≤ s.host.portCheck)
    ∧ (t.classFlags .portCheck).forced = false
    ∧ t.resetHeld = s.resetHeld ∧ t.rfReady = s.rfReady ∧ t.pending = s.pending

/-- A frame of record `i`'s context toward a peer is due, or the idle transmitter of the port that leads there has begun it
(R133, R138): it is due while that port is unused or busy, and begun when nothing else waits there. The other port is as it
was. -/
def State.dueOrBegun (s t : State) (i : Fin 48) (peer : Nat) (due : Bool) (f : BackboneFrame) : Prop :=
  (due = true ∨ ∃ p, portToward s.params.station peer = some p ∧ s.params.inUse p = true ∧ (s.port p).sending = none
      ∧ (t.port p).sending = some f)
    ∧ ∀ p, portToward s.params.station peer = some p →
        (∀ q, q ≠ p → t.port q = s.port q)
        ∧ (s.params.inUse p = false ∨ (s.port p).sending ≠ none → due = true ∧ t.port p = s.port p)
        ∧ (s.params.inUse p = true → (s.port p).sending = none → (s.port p).helloDue = false → (s.port p).traffic = [] →
            (∀ j, j ≠ i → s.dueThrough p j = false) →
            due = false ∧ t.port p = { s.port p with sending := some f, rotation := i, lastServed := .handover })

/-- Every context of the records that a test picks has ended as the loss of its port ends it (R150): a claim with
CLAIM_LAPSED and SOFT_FAULT, a handing by the fall to PAGING. The other records are as they were. -/
def State.contextsEnded (s t : State) (lost : Fin 48 → Bool) : Prop :=
  (∀ i, lost i = true → (t.record i).handover = none)
    ∧ (∀ i, lost i = false ∨ (s.record i).handover = none → t.record i = s.record i)
    ∧ (∀ i c, lost i = true → (s.record i).handover = some c → c.role = .claiming →
        t.record i = { s.record i with handover := none, soft := some .claimLapsed } ∧ s.told t i .softFault)
    ∧ (∀ i c, lost i = true → (s.record i).handover = some c → c.role = .handing → (s.record i).contact = .outbound →
        t.record i = { s.record i with handover := none, contact := .paging, pageCount := s.params.pageLimit,
                                       lastHanding := some c.peer })

/-- LINK_DOWN has its cause exactly while a port in use other than `p` has its neighbour DOWN (R125), and no other class
moves. -/
def State.linkDownElsewhere (s t : State) (p : Port) : Prop :=
  s.onlyClasses t [.linkDown] ∧
    ∃ down, s.classReported t .linkDown down ∧
      (down = true ↔ ∃ q, q ≠ p ∧ s.params.inUse q = true ∧ (s.port q).neighbour = .down)

/-- A slot of `t` has begun at LEAD with the sample `ready` of RF_READY: its light, and the dark count with its report (R6,
R13, R15). -/
def State.slotSampled (s t : State) (ready : Bool) : Prop :=
  t.air.work = some .lead ∧ t.air.up = none ∧ t.rfReady = ready
    ∧ t.air.light = (if ready then .ready else .darkFromStart)
    ∧ t.air.darkCount = (if ready then 0 else if s.air.darkCount < 255 then s.air.darkCount + 1 else s.air.darkCount)
    ∧ s.classReported t .airDark (decide (s.params.darkLimit ≤ t.air.darkCount)) ∧ s.onlyClasses t [.airDark]

/-- Slot 0 of a new cycle has begun in `t`, `b` being its BEACON: the cycle number, the aged cells and the sweep's cycle (R4,
R62, R161), the sample (R13), the entry-open decision (R17), and every field of the BEACON, sent when the slot is ready (R8,
R83). The page list is the first four records PAGING with pages left, from the index one above the pointer on and wrapping
to the pointer itself, and none of them has left PAGING yet (R84). -/
def State.cycleBegun (s t : State) (ready : Bool) (b : Beacon) : Prop :=
  t.air.slot = some 0 ∧ t.air.cycle = s.air.cycle + 1 ∧ t.air.exchange = none ∧ s.slotSampled t ready
    ∧ (∀ k : Fin 232, t.cells[k] = s.cells[k].map fun h => if h.role = .waiting then { h with role := .turn } else h)
    ∧ t.sweep = s.countSweepCycle.sweep ∧ t.host = s.countSweepCycle.host
    ∧ (t.air.entryOpen = true ↔ s.params.entryEnable = true ∧
        (∀ c, (t.classFlags c).active = true → s.params.actionOf c ≠ .closeEntry) ∧
        ¬ (t.sweep.state = .running ∧ t.sweep.closeEntry = true))
    ∧ t.air.beacon = some b ∧ t.air.down = (if ready then some (.beacon b) else none)
    ∧ b.station = s.params.station ∧ b.cycle = s.air.cycle + 1 ∧ b.entryOpen = t.air.entryOpen
    ∧ (b.sweepActive = true ↔ t.sweep.state = .running ∨ t.sweep.state = .halted)
    ∧ b.grants = s.air.grants.filterMap s.beaconGrant ∧ b.pages.length ≤ 4
    ∧ b.pages = ((((List.finRange 48).map fun n => s.roster.pagePointer + 1 + n).filter fun i =>
        (s.record i).contact == .paging && decide (0 < (s.record i).pageCount)).take 4).map
          (fun i => { record := i, carId := (s.record i).carId })
    ∧ t.roster = { s.roster with passedOver := [] } ∧ t.air.grants = s.air.grants ∧ t.air.garbledRun = s.air.garbledRun

/-- The tag counter of `t` rests where a tag given at its value in `s` leaves it (R28): on the first value after it, from 255
on to 1, that no record of `t` not FREE holds. -/
def State.tagMoved (s t : State) : Prop :=
  1 ≤ s.roster.tagCounter → s.roster.tagCounter ≤ 255 → ∃ k, 1 ≤ k ∧
    t.roster.tagCounter = (s.roster.tagCounter - 1 + k) % 255 + 1
    ∧ (∀ j, (t.record j).contact ≠ .free → (t.record j).tag ≠ some t.roster.tagCounter)
    ∧ ∀ n, 1 ≤ n → n < k → ∃ j, (t.record j).contact ≠ .free
        ∧ (t.record j).tag = some ((s.roster.tagCounter - 1 + n) % 255 + 1)

/-- A frame was offered to a port's traffic queue (R132, R133): discarded and counted when the port is unused or the queue
full; else queued on a busy transmitter; on an idle one it waits or is begun, and is begun when nothing else waits. The
other port is as it was. -/
def State.offered (s t : State) (p : Port) (f : BackboneFrame) : Prop :=
  (s.params.inUse p = false ∨ 6 ≤ (s.port p).traffic.length → t.port p =
      { s.port p with
        trafficFull := if (s.port p).trafficFull < 65535 then (s.port p).trafficFull + 1 else (s.port p).trafficFull })
    ∧ (s.params.inUse p = true → (s.port p).traffic.length < 6 →
        ((s.port p).sending ≠ none → t.port p = { s.port p with traffic := (s.port p).traffic ++ [f] })
        ∧ ((s.port p).sending = none → f ∈ (t.port p).traffic ∨ (t.port p).sending = some f)
        ∧ ((s.port p).sending = none → (s.port p).helloDue = false → (s.port p).traffic = [] →
            s.handoverWaiting p = none → t.port p = { s.port p with sending := some f, lastServed := .traffic }))
    ∧ ∀ q, q ≠ p → t.port q = s.port q

/-- The NOTE of a message that left its list (R112): offered to the OUTBYE port for a DISPATCH message with its receipt flag
set, and none for any other. -/
def State.noteSent (s t : State) (m : Message) (note : BackboneFrame) : Prop :=
  (m.source = .host ∨ m.receipt = false → t.ports = s.ports)
    ∧ (m.source ≠ .host → m.receipt = true → s.offered t .outbye note)

/-- What R49 makes of a record that has completed the fields `r` from a hail with a previous station and a level: nothing
without a peer or with a context; NO_ROUTE when the port toward the peer is unused or its neighbour DOWN; otherwise a
claiming context with its CLAIM due or begun. -/
def State.claimAsked (s t : State) (i : Fin 48) (peer level : Nat) (r : Record) : Prop :=
  (peer = 0 ∨ peer = s.params.station ∨ r.handover ≠ none → t.record i = r ∧ t.ports = s.ports)
    ∧ ∀ p, peer ≠ 0 → peer ≠ s.params.station → r.handover = none → portToward s.params.station peer = some p →
        (s.params.inUse p = false ∨ (s.port p).neighbour = .down →
          t.record i = { r with soft := some .noRoute } ∧ s.told t i .softFault ∧ t.ports = s.ports)
        ∧ (s.params.inUse p = true → (s.port p).neighbour ≠ .down → ∃ due,
          t.record i =
              { r with
                handover := some
                  { role := .claiming, peer := peer, tries := 1, deadline := s.clock + s.params.handoverTimeout,
                    due := due, claimLevel := some level } }
            ∧ s.dueOrBegun t i peer due
                { source := s.params.station, dest := peer, hop := 255,
                  payload := .claim r.carId (r.tag.getD 0) level 1 })

/-- A ready turn slot 3 to 30 ends in which the exchange `x` stands, its POLL without RELEASE, with no work held and no
reset awaited. -/
def State.endsExchange (s : State) (k : Fin 32) (x : Exchange) : Prop :=
  s.resetHeld = false ∧ s.resetPending = false ∧ s.air.slot = some k ∧ 3 ≤ k.val ∧ k.val ≤ 30 ∧ s.air.work ≠ none
    ∧ s.air.light = .ready ∧ s.air.exchange = some x ∧ x.poll.release = false ∧ s.roster.held = []

/-- The window of an exchange holds a good ANSWER with the car ID and the tag of its POLL, at a level (R75). -/
def State.matchedBy (s : State) (x : Exchange) (a : Answer) (level : Nat) : Prop :=
  ∃ u, s.air.up = some u ∧ decodeAnswer u.bytes = some a ∧ a.carId = x.poll.carId ∧ a.tag = x.poll.tag ∧ u.level = level

/-- The window of an exchange is ABSENT, GARBLED or MISMATCHED below the eighth mismatch, with the soft fault and the
mismatch count that it leaves (R66, R75). -/
def State.missedBy (s : State) (x : Exchange) (soft : Option SoftFault) (mismatches : Nat) : Prop :=
  (s.air.up = none ∧ soft = (s.record x.record).soft ∧ mismatches = (s.record x.record).mismatchCount)
    ∨ (∃ u, s.air.up = some u ∧ decodeAnswer u.bytes = none
        ∧ soft = (if x.role = .lent then (s.record x.record).soft else some .garbled)
        ∧ mismatches = (s.record x.record).mismatchCount)
    ∨ (∃ u a, s.air.up = some u ∧ decodeAnswer u.bytes = some a ∧ (a.carId ≠ x.poll.carId ∨ a.tag ≠ x.poll.tag)
        ∧ soft = some .mismatch ∧ mismatches = (s.record x.record).mismatchCount + 1 ∧ mismatches < 8)

/-- The dark count and AIR_DARK after the end of a slot, which move when the slot was made dark after the fact (R15, R171). -/
def State.darkCounted (s t : State) : Prop :=
  match s.air.light with
  | .darkAfterFact _ =>
      t.air.darkCount = (if s.air.darkCount < 255 then s.air.darkCount + 1 else s.air.darkCount)
        ∧ s.classReported t .airDark (decide (s.params.darkLimit ≤ t.air.darkCount))
  | .ready | .darkFromStart => t.air.darkCount = s.air.darkCount ∧ t.classFlags .airDark = s.classFlags .airDark

/-- The counts of garbled frames with AIR_CHECK, and the dark count with AIR_DARK, after the end of a turn slot whose POLL was
chosen: a good frame ends the run, a garbled one is counted, and without a frame, or in a dark slot, nothing moves (R12,
R15, R16, R171). -/
def State.windowCounted (s t : State) : Prop :=
  s.darkCounted t ∧
    match s.air.light, s.air.up with
    | .ready, some u =>
        (if decodeAnswer u.bytes = none then
            t.air.garbledRun = (if s.air.garbledRun < 255 then s.air.garbledRun + 1 else s.air.garbledRun)
              ∧ t.host.garbledFrames =
                (if s.host.garbledFrames < 65535 then s.host.garbledFrames + 1 else s.host.garbledFrames)
          else t.air.garbledRun = 0 ∧ t.host.garbledFrames = s.host.garbledFrames)
          ∧ s.classReported t .airCheck (decide (s.params.airCheck ≤ t.air.garbledRun))
    | _, _ =>
        t.air.garbledRun = s.air.garbledRun ∧ t.host.garbledFrames = s.host.garbledFrames
          ∧ t.classFlags .airCheck = s.classFlags .airCheck

/-- The miss count and the grant misses of a record after an exchange that was not MATCHED: a miss in its own turn, none in
a LENT cell (R55, R66, R75; entry 29). -/
def Record.missed (r : Record) (p : Params) (role : CellRole) : Nat × Nat :=
  if role = .lent then (r.missCount, r.grantMisses)
  else
    (if r.missCount < 15 then r.missCount + 1 else r.missCount,
      if r.contact = .granted ∧ r.grantMisses < p.grantLimit then r.grantMisses + 1 else r.grantMisses)

/-- A record keeps its turn in an exchange that was not MATCHED: in a LENT cell, under a hard fault, or with the count that
would end its stay below its limit, which is the miss count in PRESENT and the grant misses in GRANTED (R55, R66, R80,
R81). -/
def Record.keepsTurn (r : Record) (p : Params) (role : CellRole) : Prop :=
  role = .lent ∨ r.hard ≠ none ∨
    ((r.contact = .present → (r.missed p role).1 < p.lapseLimit) ∧ (r.contact = .granted → (r.missed p role).2 < p.grantLimit))

/-- A message after one more attempt (R111). -/
def Message.tried (m : Message) : Message :=
  { m with attempts := if m.attempts < 7 then m.attempts + 1 else m.attempts }

/-- A record after an exchange in its own turn that was not MATCHED and whose POLL carried the message in buffer `b`, but for
its mismatch count and soft fault: the miss counted, and the message off the list with the down sequence bit toggled if it
was dropped (R75, R111). -/
def Record.tried (r : Record) (p : Params) (b : Fin 64) (dropped : Bool) : Record :=
  let r := { r with missCount := (r.missed p .turn).1, grantMisses := (r.missed p .turn).2 }
  if dropped then { r with messages := r.messages.erase b, inFlight := none, downBit := !r.downBit } else r

/-- What `t` holds beside record `i` after that exchange, in which the record lost its turn but did not become FREE: the
message in buffer `b` tried, or dropped with SOFT_FAULT and its NOTE, the record's cells freed, and PLAN_FULL and POOL_LOW
after it (R48, R64, R104, R111, R112). -/
def State.turnLost (s t : State) (i : Fin 48) (b : Fin 64) (m : Message) (dropped : Bool) : Prop :=
  t.pool = s.pool.set b (if dropped then none else some m.tried)
    ∧ (dropped = false → t.ports = s.ports)
    ∧ (dropped = true → s.told t i .softFault ∧ s.noteSent t m
        { source := s.params.station, dest := 255, hop := 255,
          payload := .note (s.record i).carId (match m.source with
            | .host => 0
            | .dispatch number => number) .dropped s.params.station })
    ∧ (∀ j, j ≠ i → (s.record j).sameButSent (t.record j))
    ∧ (∀ c : Fin 232, t.cells[c] = if heldBy i s.cells[c] then none else s.cells[c])
    ∧ s.planFreed t (heldBy i)
    ∧ s.poolReported t True ∧ s.onlyClasses t [.planFull, .poolLow, .airCheck]
    ∧ t.sweep.left = s.sweep.left ∧ t.inbound = s.inbound

/-! ## Invariants -/

/-- A port's queues are within their depths, and an unused port holds nothing (R122, R124, R132). -/
def PortState.bounded (q : PortState) (inUse : Bool) : Prop :=
  q.receive.length ≤ 8 ∧ q.traffic.length ≤ 6
    ∧ (inUse = false → q.neighbour = .unknown ∧ q.receive = [] ∧ q.traffic = [] ∧ q.helloDue = false)

/-- The queues of the part are within their depths (R116, R122, R124, R132). -/
def State.queuesBounded (s : State) : Prop :=
  s.inbound.length ≤ 32 ∧ s.ports.inbye.bounded s.params.inbyeUse ∧ s.ports.outbye.bounded s.params.outbyeUse

/-- The air hangs together: a slot exists exactly while the air is not CLOSED, work only within a slot, an exchange only
in a turn slot in progress, work held only for an exchange, and a reset waits only for a slot end (R1, R5, R7, R36,
R166). -/
def State.airConsistent (s : State) : Prop :=
  (s.air.state = .closed ↔ s.air.slot = none) ∧ (s.air.slot = none → s.air.work = none)
    ∧ (s.air.work = none → s.air.exchange = none ∧ s.air.down = none ∧ s.air.up = none)
    ∧ (s.air.exchange ≠ none → ∃ k : Fin 32, s.air.slot = some k ∧ 3 ≤ k.val)
    ∧ (s.air.exchange = none → s.roster.held = []) ∧ (s.resetPending = true → s.air.state ≠ .closed)

/-- The idle transmitter of a port in use leaves nothing waiting: no HELLO due, no frame in the traffic queue, no handover
frame due through the port (R133). -/
def State.transmittersServed (s : State) : Prop :=
  ∀ p, s.params.inUse p = true → (s.port p).sending = none →
    (s.port p).helloDue = false ∧ (s.port p).traffic = [] ∧ ∀ i, s.dueThrough p i = false

/-- No two records that are not FREE hold the same car ID (R26). -/
def State.carIdsUnique (s : State) : Prop :=
  ∀ i j, (s.record i).contact ≠ .free → (s.record j).contact ≠ .free → (s.record i).carId = (s.record j).carId → i = j

/-- No two records that are not FREE hold the same tag, every tag is 1 to 255, and the counter rests on a value 1 to 255
that none of them holds (R28). -/
def State.tagsUnique (s : State) : Prop :=
  (∀ i j t, (s.record i).contact ≠ .free → (s.record j).contact ≠ .free → (s.record i).tag = some t →
      (s.record j).tag = some t → i = j)
    ∧ (∀ i t, (s.record i).contact ≠ .free → (s.record i).tag = some t → 1 ≤ t ∧ t ≤ 255)
    ∧ 1 ≤ s.roster.tagCounter ∧ s.roster.tagCounter ≤ 255
    ∧ ∀ i, (s.record i).contact ≠ .free → (s.record i).tag ≠ some s.roster.tagCounter

/-- Every parameter is in its range, the station number being 0 while it is unset (R167). -/
def Params.valid (p : Params) : Prop :=
  ∀ name, p.inRange name (p.value name) = true ∨ (name = .station ∧ p.station = 0)

/-- A turn lies in the plan: its slot is 3 to 31 and its phase is below its period (R59). -/
def Turn.inPlan (t : Turn) : Prop := 3 ≤ t.slot ∧ t.slot ≤ 31 ∧ t.phase < t.period.cycles

/-- The Turn Plan and the records agree (R58, R59): a record has a turn exactly in GRANTED, PRESENT and RELEASING, and a
retune only in PRESENT; it holds every cell of its turn in role TURN or WAITING and every cell of its pending turn in role
PENDING; and every held cell is one of these, or is LENT to a PRESENT record. -/
def State.planConsistent (s : State) : Prop :=
  (∀ i, (s.record i).turn ≠ none ↔ (s.record i).contact = .granted ∨ (s.record i).contact = .present
      ∨ (s.record i).contact = .releasing)
    ∧ (∀ i, (s.record i).retune ≠ none → (s.record i).contact = .present)
    ∧ (∀ i t, (s.record i).turn = some t → t.inPlan ∧ ∀ f ∈ t.phases,
        s.cell t.slot f = some { holder := i, role := .turn } ∨ s.cell t.slot f = some { holder := i, role := .waiting })
    ∧ (∀ i c, (s.record i).retune = some c → c.target.inPlan ∧ ∀ f ∈ c.target.phases,
        s.cell c.target.slot f = some { holder := i, role := .pending })
    ∧ (∀ slot phase h, s.cell slot phase = some h →
        match h.role with
        | .turn | .waiting => ∃ t, (s.record h.holder).turn = some t ∧ t.slot = slot ∧ phase ∈ t.phases
        | .pending => ∃ c, (s.record h.holder).retune = some c ∧ c.target.slot = slot ∧ phase ∈ c.target.phases
        | .lent => (s.record h.holder).contact = .present)

/-- The pool and the lists agree (R104, R105, R106): a buffer holds a message for a record exactly when the record lists it,
once and at most 8 in all; the message in flight is listed; a FREE record lists none. -/
def State.poolConsistent (s : State) : Prop :=
  (∀ i b, b ∈ (s.record i).messages ↔ ∃ m, s.pool[b] = some m ∧ m.target = i)
    ∧ (∀ i, (s.record i).messages.Nodup ∧ (s.record i).messages.length ≤ 8)
    ∧ (∀ i b, (s.record i).inFlight = some b → b ∈ (s.record i).messages)
    ∧ (∀ i, (s.record i).contact = .free → (s.record i).messages = []) ∧ s.params.recordLimit ≤ 8

/-- The number of records that meet a test. -/
def State.countRecords (s : State) (test : Record → Bool) : Nat := allRecords.countP fun i => test (s.record i)

/-- The pinned count and the summon count are the numbers of pinned and of summoned records, each at most 8, and a FREE
record is neither (R20, R21, R23, R88). -/
def State.countsAgree (s : State) : Prop :=
  s.roster.pinnedCount = s.countRecords Record.pinned ∧ s.roster.pinnedCount ≤ 8
    ∧ s.roster.summonCount = s.countRecords Record.summoned ∧ s.roster.summonCount ≤ 8
    ∧ ∀ i, (s.record i).contact = .free → (s.record i).pinned = false ∧ (s.record i).summoned = false

/-- The counts of the sweep agree with the marks (R162): while it is RUNNING or HALTED, marked is answered plus left plus
the records MARKED, of which there are some and none is FREE; a result has marked equal to answered plus left plus its
unanswered records, none of them under ALL_ACCOUNTED, and exists exactly in COMPLETE. -/
def State.sweepAgrees (s : State) : Prop :=
  (s.sweep.state = .running ∨ s.sweep.state = .halted →
      s.sweep.marked = s.sweep.answered + s.sweep.left + s.countRecords (fun r => r.mark == .marked)
        ∧ s.countRecords (fun r => r.mark == .marked) ≠ 0
        ∧ ∀ i, (s.record i).mark = .marked → (s.record i).contact ≠ .free)
    ∧ (s.sweep.state = .complete ↔ s.sweep.result ≠ none)
    ∧ ∀ r, s.sweep.result = some r →
        r.marked = r.answered + r.left + r.unanswered.length ∧ (r.outcome = .allAccounted → r.unanswered = [])

/-- The attention list holds no index twice (R168). -/
def State.attentionDistinct (s : State) : Prop := (s.host.attention.map AttentionEntry.record).Nodup

/-! ## The messages of a record that becomes FREE -/

/-- `s` after NOTE DROPPED for each of some messages of a car, in their order: one for every DISPATCH message with its
receipt flag set, and none for any other (R112, R113). -/
def State.noteEachDropped (s : State) (car : Nat) (ms : List Message) : State :=
  ms.foldl (fun w m => w.noteFor car m.source m.receipt .dropped) s

/-- The NOTEs that record `i`'s return to FREE sends for the messages on its list (R39 step 2, R113), where pool and lists
agree and no frame waits on an idle transmitter. -/
def State.notesDropped (s t : State) (i : Fin 48) : Prop :=
  s.poolConsistent → s.transmittersServed →
    t.ports = (s.noteEachDropped (s.record i).carId (s.listed (s.record i))).ports

end Sys2Proof.Machine
end

