-- ==== Sys2Proof/Certificates/Slice0/Obligations.lean ====
section
/-! DEFINITION. The statements about the part that the provers prove or refute. -/

section
open Sys2Proof Sys2Proof.Machine

/-! ## The step, the queue and the resets -/

/-- The queue is first in, first out: a step takes the command at its front and carries it out on the state with the
queue's rest. With no command waiting a step is one millisecond on the running timers (the model's choice, entry 3);
RESET_N holds them. -/
def Obligations.StepTakesTheFrontCommandOrTicks : Prop :=
  (∀ (c : Instr) (rest : List Instr) (s : State),
     step { s with pending := c :: rest } = exec c { s with pending := rest }) ∧
  (∀ s : State, s.pending = [] →
     (s.resetHeld = true → step s = .next s) ∧
     (s.resetHeld = false → ∃ t : State, step s = .next t ∧
       t = { s with clock := s.clock + 1, ports := t.ports } ∧
       ∀ p : Port, t.port p =
         if s.params.inUse p then
           { s.port p with
             helloTimer := if (s.port p).helloTimer < 250 then (s.port p).helloTimer + 1 else (s.port p).helloTimer,
             silence := if (s.port p).silence < 1000 then (s.port p).silence + 1 else (s.port p).silence }
         else s.port p))

/-- Every step serves the transmitters (R133): when no frame waits on an idle transmitter of a port in use before it, none
does after it. A frame that becomes waiting is begun at once on an idle transmitter, and the next one is chosen when a frame
is sent. -/
def Obligations.NoFrameWaitsOnAnIdleTransmitter : Prop :=
  ∀ s t : State, s.transmittersServed → step s = .next t → t.transmittersServed

/-- Every command, in every state, is carried out: none ends in a fault or a refusal. No command changes the queue of
the commands that wait behind it. -/
def Obligations.EveryCommandGoesOn : Prop :=
  (∀ (c : Instr) (s : State), goesOn (exec c s) = true) ∧
  (∀ (c : Instr) (s t : State), exec c s = .next t → t.pending = s.pending)

/-- RESET_N (R166): asserted, it holds the whole part in its initial state and no command acts; released, the part
stands as after a power-on reset. What a power-on reset leaves, as the tables of R19, R41, R74, R94, R121, R137, R156,
R166, R167, R110, R169 and R171 give it, each port with both timers at 0 and nothing being sent. The HELLO that R137
makes due has been chosen and discarded, since the station number is 0, so helloDue is clear: that clause is the
model's choice, entry 10. -/
def Obligations.PowerOnResetLeavesTheStatedValues : Prop :=
  ((∀ s : State, exec .resetNAssert s = .next { State.reset with resetHeld := true, pending := s.pending }) ∧
   (∀ (c : Instr) (s : State), s.resetHeld = true → c ≠ .resetNAssert → c ≠ .resetNRelease → exec c s = .next s) ∧
   (∀ s : State, exec .resetNRelease s = .next { s with resetHeld := false }) ∧
   (∀ (s t : State), exec .resetNAssert s = .next t →
     exec .resetNRelease t = .next { State.reset with pending := s.pending })) ∧
  (State.reset.air.state = .closed ∧ State.reset.air.cycle = 0 ∧ State.reset.air.slot = none ∧
   State.reset.air.work = none ∧ State.reset.air.entryOpen = false ∧ State.reset.air.darkCount = 0 ∧
   State.reset.air.garbledRun = 0 ∧ State.reset.air.grants = [] ∧ State.reset.air.beacon = none ∧
   (∀ i, State.reset.record i = Record.free) ∧ State.reset.roster.tagCounter = 1 ∧
   State.reset.roster.pagePointer = 0 ∧ State.reset.roster.passedOver = [] ∧
   State.reset.roster.summonCount = 0 ∧ State.reset.roster.pinnedCount = 0 ∧
   State.reset.roster.held = [] ∧ State.reset.freeCells = 232 ∧ State.reset.freeBuffers = 64 ∧
   State.reset.inbound = [] ∧
   (∀ p, (State.reset.port p).neighbour = .unknown ∧ (State.reset.port p).neighbourNumber = none ∧
     (State.reset.port p).receive = [] ∧ (State.reset.port p).traffic = [] ∧ (State.reset.port p).rotation = 47 ∧
     (State.reset.port p).lastServed = .traffic ∧ (State.reset.port p).checkErrors = 0 ∧
     (State.reset.port p).receiveFull = 0 ∧ (State.reset.port p).trafficFull = 0 ∧ (State.reset.port p).hopDrops = 0 ∧
     (State.reset.port p).helloTimer = 0 ∧ (State.reset.port p).silence = 0 ∧ (State.reset.port p).helloDue = false ∧
     (State.reset.port p).sending = none) ∧
   State.reset.sweep.state = .idle ∧ State.reset.sweep.result = none ∧ State.reset.host.portCheck = 0 ∧
   State.reset.host.attention = [] ∧ State.reset.host.sweepEnded = false ∧ State.reset.host.hailsRefused = 0 ∧
   State.reset.host.hailsHeld = 0 ∧ State.reset.host.garbledFrames = 0 ∧
   (∀ c, State.reset.classFlags c = { cause := false, latched := false, forced := false }) ∧
   State.reset.params.station = 0 ∧ State.reset.params.classPeriods = #v[.four, .two, .one, .eight] ∧
   State.reset.params.lapseLimit = 6 ∧ State.reset.params.grantLimit = 2 ∧ State.reset.params.pageLimit = 8 ∧
   State.reset.params.attemptLimit = 4 ∧ State.reset.params.recordLimit = 4 ∧ State.reset.params.lo = 12 ∧
   State.reset.params.hi = 20 ∧ State.reset.params.fadeCount = 3 ∧ State.reset.params.contestMargin = 6 ∧
   State.reset.params.handoverTimeout = 2000 ∧ State.reset.params.inbyeUse = true ∧
   State.reset.params.outbyeUse = true ∧ State.reset.params.arbiterMode = .fixed ∧
   State.reset.params.deliveryMode = .fixed ∧ State.reset.params.inboundLevel = 24 ∧
   State.reset.params.entryEnable = true ∧ State.reset.params.poolLow = 8 ∧ State.reset.params.airCheck = 8 ∧
   State.reset.params.darkLimit = 32 ∧ State.reset.params.portCheckThreshold = 3 ∧
   (∀ c, State.reset.params.actionOf c = .notify) ∧ State.reset.params.urgentLane = true ∧
   State.reset.params.routineLane = true ∧ State.reset.params.attentionMask = 0 ∧ State.reset.params.eventMask = 0 ∧
   State.reset.attn = false)

/-- STATION_RESET (R166): at once while the air is CLOSED; otherwise pending, and then taken at the end of the slot in
progress, in place of the slot-end notice. The model's choices in it: both rows that end the slot take the reset
(entry 8), the HELLO due is chosen at once (entry 10), the kept port check count is reported at once (entry 12), the
handover clock becomes 0 (entry 16), and the fields of the Sweep Unit in IDLE hold 0 and clear (entry 21). -/
def Obligations.StationResetTakesEffect : Prop :=
  (∀ s : State, s.takesRequests = true → s.air.state = .closed →
    ∃ t, exec (.stationReset []) s = .next t ∧ s.stationWasReset t ∧
      t.response = some { status := .done, results := [] }) ∧
  (∀ s : State, s.takesRequests = true → s.air.state ≠ .closed →
    exec (.stationReset []) s = .next ({ s with resetPending := true }.respond .done [])) ∧
  (∀ s : State, s.resetHeld = false → s.resetPending = true → s.air.slot ≠ none → s.air.work ≠ none →
    ∃ t, exec .stationResetTakesEffect s = .next t ∧ exec .slotEnd s = .next t ∧ s.stationWasReset t ∧
      t.response = s.response)

/-! ## Requests -/

/-- The tests of R165 that come after the check byte and the code: a request of the wrong length is answered
BAD_VALUE, and while a station reset awaits its slot end every request but IDENTIFY is answered BUSY; neither changes
anything else. Requests refused by the first two tests of R165, the port check count with its class, and IDENTIFY
(R173), which is answered while a station reset is pending too. -/
def Obligations.RequestTestsComeInOrder : Prop :=
  (∀ (c : Instr) (code : Nat) (params : List Byte) (s : State),
     requestOf c = some (code, params) → s.resetHeld = false →
       (lengthRight code params = false → exec c s = .next (s.refuse .badValue)) ∧
       (lengthRight code params = true → s.resetPending = true → code ≠ 0x48 → exec c s = .next (s.refuse .busy))) ∧
  (∀ s : State, s.resetHeld = false →
     (∀ bytes : List Byte, exec (.badCheckRequest bytes) s =
       .next ((({ s with host := { s.host with
             portCheck := if s.host.portCheck < 3 then s.host.portCheck + 1 else s.host.portCheck } } : State).reportCause
           .portCheck (decide (s.params.portCheckThreshold ≤
             if s.host.portCheck < 3 then s.host.portCheck + 1 else s.host.portCheck))).refuse .badCheck)) ∧
     (∀ (code : Byte) (params : List Byte), exec (.badCommandRequest code params) s = .next (s.refuse .badCommand)) ∧
     exec (.identify []) s = .next (s.respond .done [0x26#8, 0x48#8, 0x01#8]) ∧
     (s.resetPending = false → exec (.clearPortCheck []) s =
       .next ((({ s with host := { s.host with portCheck := 0 } } : State).reportCause .portCheck
         (decide (s.params.portCheckThreshold ≤ 0))).respond .done [])))

/-- A report of a cause (R171, R172): the cause becomes what is reported, the forced flag stays, the class is latched
exactly when it was or when it becomes active from inactive, and no other class changes. CLEAR_CONDITION and
FORCE_CONDITION (R171). ATTN is asserted exactly while a pending station event is enabled in the event mask and
RESET_N is released (R166, R170); the four events are pending as R170 says. -/
def Obligations.ConditionsAndAttnFollowTheirRules : Prop :=
  ((∀ (s : State) (c d : ConditionClass) (cause : Bool),
      ((s.reportCause c cause).classFlags c).cause = cause ∧
      ((s.reportCause c cause).classFlags c).forced = (s.classFlags c).forced ∧
      (((s.reportCause c cause).classFlags c).latched = true ↔
        (s.classFlags c).latched = true ∨ ((cause || (s.classFlags c).forced) = true ∧ (s.classFlags c).active = false)) ∧
      (d ≠ c → (s.reportCause c cause).classFlags d = s.classFlags d)) ∧
   (∀ (s : State) (k : Byte), s.takesRequests = true →
      (8 ≤ k.toNat → exec (.clearCondition [k]) s = .next (s.refuse .badValue) ∧
        ∀ on, exec (.forceCondition [k, on]) s = .next (s.refuse .badValue)) ∧
      (∀ c : ConditionClass, k.toNat = c.index.val →
        ((s.classFlags c).active = true → exec (.clearCondition [k]) s = .next (s.refuse .badState)) ∧
        ((s.classFlags c).active = false →
          exec (.clearCondition [k]) s =
            .next ((s.setClass c { s.classFlags c with latched := false }).respond .done [])) ∧
        (∀ on : Byte, 1 < on.toNat → exec (.forceCondition [k, on]) s = .next (s.refuse .badValue)) ∧
        exec (.forceCondition [k, 0#8]) s =
          .next ((s.setClass c { s.classFlags c with forced := false }).respond .done []) ∧
        exec (.forceCondition [k, 1#8]) s =
          .next ((s.setClass c
            { cause := (s.classFlags c).cause, forced := true,
              latched := (s.classFlags c).latched || !(s.classFlags c).active }).respond .done [])))) ∧
  (∀ s : State,
     (s.attn = true ↔ s.resetHeld = false ∧
       ((s.host.attention ≠ [] ∧ s.params.eventMask.getLsbD 0 = true) ∨
        (s.host.sweepEnded = true ∧ s.params.eventMask.getLsbD 1 = true) ∨
        (s.params.inboundLevel ≤ s.inbound.length ∧ s.params.eventMask.getLsbD 2 = true) ∨
        ((∃ c, (s.classFlags c).latched = true ∧ s.params.actionOf c ≠ .ignore) ∧
           s.params.eventMask.getLsbD 3 = true))))

/-- SET_MASK (R169): the named mask replaced whole, BAD_VALUE for a mask or an item that names nothing; offers follow the
attention mask, the reasons already on the list stay, ATTN follows the event mask at once, and both masks are empty after
power-on and kept by a station reset. -/
def Obligations.SetMaskReplacesAMask : Prop :=
  (∀ (s : State) (mask hi lo : Byte), s.takesRequests = true →
    (mask = 0#8 → hi.toNat * 256 + lo.toNat < 2048 → exec (.setMask [mask, hi, lo]) s =
      .next (({ s with params := { s.params with
        attentionMask := BitVec.ofNat 11 (hi.toNat * 256 + lo.toNat) } } : State).respond .done [])) ∧
    (mask = 1#8 → hi.toNat * 256 + lo.toNat < 16 → ∃ t, exec (.setMask [mask, hi, lo]) s = .next t ∧
      t = ({ s with params := { s.params with
        eventMask := BitVec.ofNat 4 (hi.toNat * 256 + lo.toNat) } } : State).respond .done [] ∧
      (t.attn = true ↔ ((s.host.attention ≠ [] ∧ lo.toNat.testBit 0 = true) ∨
        (s.host.sweepEnded = true ∧ lo.toNat.testBit 1 = true) ∨
        (s.params.inboundLevel ≤ s.inbound.length ∧ lo.toNat.testBit 2 = true) ∨
        ((∃ c, (s.classFlags c).latched = true ∧ s.params.actionOf c ≠ .ignore) ∧ lo.toNat.testBit 3 = true)))) ∧
    ((mask = 0#8 ∧ 2048 ≤ hi.toNat * 256 + lo.toNat) ∨ (mask = 1#8 ∧ 16 ≤ hi.toNat * 256 + lo.toNat) ∨
        1 < mask.toNat → exec (.setMask [mask, hi, lo]) s = .next (s.refuse .badValue))) ∧
  (∀ (s : State) (i : Fin 48) (r : Reason),
    (s.params.attentionMask.getLsbD r.bit.val = false → s.offerReason i r = s) ∧
    (s.params.attentionMask.getLsbD r.bit.val = true → (s.offerReason i r).onAttention i = true)) ∧
  State.reset.params.attentionMask = 0 ∧ State.reset.params.eventMask = 0 ∧
  (∀ s : State, s.stationReset.params.attentionMask = s.params.attentionMask ∧
    s.stationReset.params.eventMask = s.params.eventMask)

/-- A reason that is offered (R168): discarded when its enable is clear; otherwise added to the record's entry, which
keeps its place, or put in a new entry at the tail; SUMMON_ENDED and RETUNE_ENDED take the outcome of the later offer.
NEXT_ATTENTION (R168): the head entry removed and answered with the record's car ID and contact state; a FREE record
ends an active ROSTER_FULL (R47). That an empty list answers DONE with no result bytes is the model's layout, entry
13. -/
def Obligations.TheAttentionListIsServed : Prop :=
  (∀ (s : State) (i : Fin 48) (r : Reason),
     (s.params.attentionMask.getLsbD r.bit.val = false → s.offerReason i r = s) ∧
     (s.params.attentionMask.getLsbD r.bit.val = true →
       (s.onAttention i = false → (s.offerReason i r).host.attention =
         s.host.attention ++ [{ record := i, reasons := ReasonSet.empty.add r }]) ∧
       (s.onAttention i = true → (s.offerReason i r).host.attention =
         s.host.attention.map fun e => if e.record = i then { e with reasons := e.reasons.add r } else e) ∧
       s.offerReason i r = { s with host := { s.host with attention := (s.offerReason i r).host.attention } }) ∧
     (∀ (q : ReasonSet) (k : Nat), k < 11 → (q.add r).bits.getLsbD k = (q.bits.getLsbD k || decide (k = r.bit.val))) ∧
     (∀ (q : ReasonSet) (o : SummonOutcome), (q.add (.summonEnded o)).summonOutcome = some o) ∧
     (∀ (q : ReasonSet) (o : RetuneOutcome), (q.add (.retuneEnded o)).retuneOutcome = some o)) ∧
  (∀ s : State, s.takesRequests = true →
     (s.host.attention = [] → exec (.nextAttention []) s = .next (s.respond .done [])) ∧
     (∀ e rest, s.host.attention = e :: rest → ∃ t, exec (.nextAttention []) s = .next t ∧
       t.host = { s.host with attention := rest } ∧
       t.response = some ⟨.done, [byteOf e.record.val] ++ e.reasons.bytes
         ++ bytes16 (s.record e.record).carId ++ [byteOf (s.record e.record).contact.code]⟩ ∧
       s.causeEnded t .rosterFull ((s.record e.record).contact = .free) ∧ s.onlyClasses t [.rosterFull] ∧
       t = { s with host := t.host, response := t.response, conditions := t.conditions }))

/-- READ_STATION (R173): the values in the order of the rule, coded as R177 codes counts, counters, flags and places
in a list, with the free cells and free buffers counted; that the station number, the cycle number and a learned
number are one byte each and the event mask two, that INBYE comes before OUTBYE, and the order of a class's flags, are the
model's layout, entry 13.
CLEAR_COUNTS (R173) sets the three station counters and the eight drop counters to 0. READ_INBOUND and FLUSH_INBOUND
(R119): the head entry removed and answered, an empty queue answered with the one byte 0 (entry 13), and the whole
queue discarded with its count answered. -/
def Obligations.CountsAndInboundAreRead : Prop :=
  (∀ (s : State) (port : Port → List Byte) (cls : ConditionClass → List Byte), s.takesRequests = true →
     (∀ p, port p =
       [byteOf (s.params.inUse p).toNat,
         match (s.port p).neighbour with
         | .unknown => 0#8
         | .up => 1#8
         | .down => 2#8]
       ++ (match (s.port p).neighbourNumber with
           | none => [0#8]
           | some n => [1#8, byteOf n])
       ++ bytes16 (s.port p).checkErrors ++ bytes16 (s.port p).receiveFull ++ bytes16 (s.port p).trafficFull
       ++ bytes16 (s.port p).hopDrops) →
     (∀ c, cls c =
       [byteOf ((s.classFlags c).cause || (s.classFlags c).forced).toNat, byteOf (s.classFlags c).latched.toNat,
         byteOf (s.classFlags c).forced.toNat,
         match s.params.actionOf c with
         | .ignore => 0#8
         | .notify => 1#8
         | .closeEntry => 2#8,
         byteOf (s.classFlags c).cause.toNat]) →
     exec (.readStation []) s = .next (s.respond .done
       ([match s.air.state with
         | .closed => 0#8
         | .opened => 1#8
         | .closing => 2#8,
         s.air.cycle, byteOf s.params.station,
         byteOf ((List.finRange 232).countP fun k => (s.cells[k]).isNone),
         byteOf ((List.finRange 64).countP fun b => (s.pool[b]).isNone),
         byteOf s.inbound.length, byteOf s.roster.pinnedCount, byteOf s.roster.summonCount,
         match s.sweep.state with
         | .idle => 0#8
         | .running => 1#8
         | .halted => 2#8
         | .complete => 3#8]
       ++ port .inbye ++ port .outbye
       ++ bytes16 s.host.hailsRefused ++ bytes16 s.host.hailsHeld ++ bytes16 s.host.garbledFrames
       ++ [byteOf s.host.portCheck,
           if s.host.attention = [] then 0#8 else 1#8, byteOf s.host.sweepEnded.toNat,
           if s.params.inboundLevel ≤ s.inbound.length then 1#8 else 0#8,
           if ConditionClass.all.any (fun c => (s.classFlags c).latched && s.params.actionOf c != .ignore) then 1#8
           else 0#8]
       ++ bytes16 s.params.eventMask.toNat
       ++ cls .rosterFull ++ cls .planFull ++ cls .poolLow ++ cls .airCheck ++ cls .airDark ++ cls .linkDown
       ++ cls .identity ++ cls .portCheck))) ∧
  (∀ s : State, s.takesRequests = true →
     ∃ t, exec (.clearCounts []) s = .next t ∧
       t = ({ s with host := { s.host with hailsRefused := 0, hailsHeld := 0, garbledFrames := 0 },
                     ports := t.ports } : State).respond .done [] ∧
       ∀ p, t.port p = { s.port p with checkErrors := 0, receiveFull := 0, trafficFull := 0, hopDrops := 0 }) ∧
  (∀ s : State, s.takesRequests = true →
     (s.inbound = [] → exec (.readInbound []) s = .next (s.respond .done [0#8])) ∧
     (∀ e rest, s.inbound = e :: rest → exec (.readInbound []) s =
       .next (({ s with inbound := rest } : State).respond .done
         (bytes16 e.carId ++ [byteOf e.record.val] ++ (byteOf e.body.length :: e.body) ++ [byteOf rest.length]))) ∧
     exec (.flushInbound []) s = .next (({ s with inbound := [] } : State).respond .done [byteOf s.inbound.length]))

/-! ## Parameters -/

/-- CONFIGURE and READ_PARAM (R167): a number that names no parameter and a value out of range are BAD_VALUE, the
station number is BAD_STATE while the air is not CLOSED, and an accepted value is the one READ_PARAM then answers,
every other parameter keeping its own. The ranges are those of R167, and the numbers and codes those of R177. That the
range is tested before the air state is the model's choice, entry 14, and that READ_PARAM answers two bytes is the
model's layout, entry 13. -/
def Obligations.ConfigureSetsOneParameter : Prop :=
  (∀ (s : State) (k hi lo : Byte), s.takesRequests = true →
     (ParamName.ofCode k.toNat = none → exec (.configure [k, hi, lo]) s = .next (s.refuse .badValue) ∧
       exec (.readParam [k]) s = .next (s.refuse .badValue)) ∧
     (∀ name, ParamName.ofCode k.toNat = some name →
       exec (.readParam [k]) s = .next (s.respond .done (bytes16 (s.params.value name))) ∧
       (s.params.inRange name (hi.toNat * 256 + lo.toNat) = false →
         exec (.configure [k, hi, lo]) s = .next (s.refuse .badValue)) ∧
       (s.params.inRange name (hi.toNat * 256 + lo.toNat) = true →
         (name = .station ∧ s.air.state ≠ .closed → exec (.configure [k, hi, lo]) s = .next (s.refuse .badState)) ∧
         (¬ (name = .station ∧ s.air.state ≠ .closed) → ∃ t, exec (.configure [k, hi, lo]) s = .next t ∧
           t.params.value name = hi.toNat * 256 + lo.toNat ∧
           (∀ other, other ≠ name → t.params.value other = s.params.value other) ∧
           t.params.urgentLane = s.params.urgentLane ∧ t.params.routineLane = s.params.routineLane ∧
           t.params.attentionMask = s.params.attentionMask ∧ t.params.eventMask = s.params.eventMask ∧
           t.response = some { status := .done, results := [] } ∧
           t.air = s.air ∧ t.cells = s.cells ∧ t.pool = s.pool ∧ t.inbound = s.inbound ∧ t.sweep = s.sweep ∧
           t.clock = s.clock)))) ∧
  (∀ (p : Params) (v : Nat),
     (p.inRange .station v = true ↔ 1 ≤ v ∧ v ≤ 200) ∧ (∀ k, p.inRange (.classPeriod k) v = true ↔ v ≤ 3) ∧
     (p.inRange .lapseLimit v = true ↔ 2 ≤ v ∧ v ≤ 15) ∧ (p.inRange .grantLimit v = true ↔ 1 ≤ v ∧ v ≤ 4) ∧
     (p.inRange .pageLimit v = true ↔ 1 ≤ v ∧ v ≤ 15) ∧ (p.inRange .attemptLimit v = true ↔ 1 ≤ v ∧ v ≤ 7) ∧
     (p.inRange .recordLimit v = true ↔ 1 ≤ v ∧ v ≤ 8) ∧ (p.inRange .lo v = true ↔ v ≤ 62 ∧ v < p.hi) ∧
     (p.inRange .hi v = true ↔ p.lo + 1 ≤ v ∧ v ≤ 63) ∧ (p.inRange .fadeCount v = true ↔ 1 ≤ v ∧ v ≤ 15) ∧
     (p.inRange .contestMargin v = true ↔ v ≤ 15) ∧
     (p.inRange .handoverTimeout v = true ↔ 500 ≤ v ∧ v ≤ 4000 ∧ v % 250 = 0) ∧
     (∀ q, p.inRange (.portUse q) v = true ↔ v ≤ 1) ∧ (p.inRange .arbiterMode v = true ↔ v ≤ 1) ∧
     (p.inRange .deliveryMode v = true ↔ v ≤ 1) ∧ (p.inRange .inboundLevel v = true ↔ 1 ≤ v ∧ v ≤ 32) ∧
     (p.inRange .entryEnable v = true ↔ v ≤ 1) ∧ (p.inRange .poolLow v = true ↔ v ≤ 63) ∧
     (p.inRange .airCheck v = true ↔ 1 ≤ v ∧ v ≤ 31) ∧ (p.inRange .darkLimit v = true ↔ 1 ≤ v ∧ v ≤ 255) ∧
     (p.inRange .portCheckThreshold v = true ↔ 1 ≤ v ∧ v ≤ 3) ∧ (∀ c, p.inRange (.action c) v = true ↔ v ≤ 2)) ∧
  (∀ p : Params,
     p.value .station = p.station ∧
     (∀ k : Fin 4, p.value (.classPeriod k) =
       match p.classPeriods[k] with
       | .one => 0
       | .two => 1
       | .four => 2
       | .eight => 3) ∧
     p.value .lapseLimit = p.lapseLimit ∧ p.value .grantLimit = p.grantLimit ∧ p.value .pageLimit = p.pageLimit ∧
     p.value .attemptLimit = p.attemptLimit ∧ p.value .recordLimit = p.recordLimit ∧ p.value .lo = p.lo ∧
     p.value .hi = p.hi ∧ p.value .fadeCount = p.fadeCount ∧ p.value .contestMargin = p.contestMargin ∧
     p.value .handoverTimeout = p.handoverTimeout ∧ p.value (.portUse .inbye) = p.inbyeUse.toNat ∧
     p.value (.portUse .outbye) = p.outbyeUse.toNat ∧ (p.value .arbiterMode = 1 ↔ p.arbiterMode = .rotating) ∧
     (p.value .deliveryMode = 1 ↔ p.deliveryMode = .rotating) ∧ p.value .inboundLevel = p.inboundLevel ∧
     p.value .entryEnable = p.entryEnable.toNat ∧ p.value .poolLow = p.poolLow ∧ p.value .airCheck = p.airCheck ∧
     p.value .darkLimit = p.darkLimit ∧ p.value .portCheckThreshold = p.portCheckThreshold ∧
     (∀ c, p.value (.action c) =
       match p.actionOf c with
       | .ignore => 0
       | .notify => 1
       | .closeEntry => 2)) ∧
  ((List.range 26).map ParamName.ofCode =
     [none, some .station, some (.classPeriod 0), some (.classPeriod 1), some (.classPeriod 2), some (.classPeriod 3),
      some .lapseLimit, some .grantLimit, some .pageLimit, some .attemptLimit, some .recordLimit, some .lo, some .hi,
      some .fadeCount, some .contestMargin, some .handoverTimeout, some (.portUse .inbye), some (.portUse .outbye),
      some .arbiterMode, some .deliveryMode, some .inboundLevel, some .entryEnable, some .poolLow, some .airCheck,
      some .darkLimit, some .portCheckThreshold] ∧
   (List.range 8).map (fun n => ParamName.ofCode (0x20 + n)) =
     [some (.action .rosterFull), some (.action .planFull), some (.action .poolLow), some (.action .airCheck),
      some (.action .airDark), some (.action .linkDown), some (.action .identity), some (.action .portCheck)] ∧
   (∀ n, 0x1A ≤ n → n < 0x20 → ParamName.ofCode n = none) ∧ ∀ n, 0x28 ≤ n → ParamName.ofCode n = none)

/-- The handover timeout and the contest margin (R139): the values CONFIGURE takes and refuses, in every air state; the
deadlines and the claims that use the new value; the station reset that keeps both, and the power-on values. -/
def Obligations.HandoverParameters : Prop :=
  (∀ (s : State) (hi lo : Byte), s.takesRequests = true →
    (500 ≤ hi.toNat * 256 + lo.toNat ∧ hi.toNat * 256 + lo.toNat ≤ 4000 ∧ (hi.toNat * 256 + lo.toNat) % 250 = 0 →
      exec (.configure [0x0F#8, hi, lo]) s =
        .next (({ s with params := { s.params with
          handoverTimeout := hi.toNat * 256 + lo.toNat } } : State).respond .done [])) ∧
    (¬ (500 ≤ hi.toNat * 256 + lo.toNat ∧ hi.toNat * 256 + lo.toNat ≤ 4000 ∧ (hi.toNat * 256 + lo.toNat) % 250 = 0) →
      exec (.configure [0x0F#8, hi, lo]) s = .next (s.refuse .badValue)) ∧
    (hi.toNat * 256 + lo.toNat ≤ 15 →
      exec (.configure [0x0E#8, hi, lo]) s =
        .next (({ s with params := { s.params with
          contestMargin := hi.toNat * 256 + lo.toNat } } : State).respond .done [])) ∧
    (15 < hi.toNat * 256 + lo.toNat → exec (.configure [0x0E#8, hi, lo]) s = .next (s.refuse .badValue))) ∧
  (∀ s : State, s.deadlineNow = s.clock + s.params.handoverTimeout) ∧
  (∀ (s : State) (c : Nat) (i : Fin 48) (car level : Nat), s.lookup car = some i → (s.record i).hard = none →
    (s.record i).contact = .present → (s.record i).handover = none → (s.record i).keep = false →
    (s.record i).fading = false → (s.record i).missCount = 0 →
    (s.decideClaim c car level = .refused .contested ↔ level ≤ (s.record i).level + s.params.contestMargin)) ∧
  (∀ s : State, s.stationReset.params.handoverTimeout = s.params.handoverTimeout ∧
    s.stationReset.params.contestMargin = s.params.contestMargin) ∧
  State.reset.params.handoverTimeout = 2000 ∧ State.reset.params.contestMargin = 6

/-- What an accepted CONFIGURE does at once: thresholds are weighed against their counts (R167), a change of a port's
use empties or starts the port and reports for LINK_DOWN (R122, R125), a port made unused is lost and ends the contexts
routed through it (R150), and a new station number ends every context as the loss of its port does, while the same number
ends none (R138). That a HELLO due is dropped on a port made unused is the model's choice, entry 26, and that the HELLO of
a port made used is chosen at once is entry 10. -/
def Obligations.ConfigureActsAtOnce : Prop :=
  (∀ (s : State) (lo : Byte), s.takesRequests = true →
    (lo.toNat ≤ 63 → ∃ t, exec (.configure [0x16#8, 0#8, lo]) s = .next t ∧
      s.classReported t .poolLow (decide (s.freeBuffers < lo.toNat)) ∧ s.onlyClasses t [.poolLow]) ∧
    (1 ≤ lo.toNat → lo.toNat ≤ 31 → ∃ t, exec (.configure [0x17#8, 0#8, lo]) s = .next t ∧
      s.classReported t .airCheck (decide (lo.toNat ≤ s.air.garbledRun)) ∧ s.onlyClasses t [.airCheck]) ∧
    (1 ≤ lo.toNat → ∃ t, exec (.configure [0x18#8, 0#8, lo]) s = .next t ∧
      s.classReported t .airDark (decide (lo.toNat ≤ s.air.darkCount)) ∧ s.onlyClasses t [.airDark]) ∧
    (1 ≤ lo.toNat → lo.toNat ≤ 3 → ∃ t, exec (.configure [0x19#8, 0#8, lo]) s = .next t ∧
      s.classReported t .portCheck (decide (lo.toNat ≤ s.host.portCheck)) ∧ s.onlyClasses t [.portCheck])) ∧
  (∀ (s : State) (p : Port) (k : Byte), s.takesRequests = true → ParamName.ofCode k.toNat = some (.portUse p) →
    (s.params.inUse p = true → ∃ t, exec (.configure [k, 0#8, 0#8]) s = .next t ∧ t.params.inUse p = false ∧
      t.port p = { s.port p with neighbour := .unknown, neighbourNumber := none, receive := [], traffic := [],
                                 helloDue := false } ∧
      (∀ q, q ≠ p → t.port q = s.port q) ∧ s.contextsEnded t (s.routedThrough p) ∧ s.linkDownElsewhere t p ∧
      t.cells = s.cells ∧ t.pool = s.pool) ∧
    (s.params.inUse p = false → ∃ t, exec (.configure [k, 0#8, 1#8]) s = .next t ∧ t.params.inUse p = true ∧
      (t.port p).neighbour = .unknown ∧ (t.port p).helloTimer = 0 ∧ (t.port p).silence = 0 ∧
      ((s.port p).sending = none → s.params.station ≠ 0 → (t.port p).sending = some s.helloFrame ∧
        (t.port p).helloDue = false) ∧
      ((s.port p).sending ≠ none → (t.port p).sending = (s.port p).sending ∧ (t.port p).helloDue = true) ∧
      (∀ q, q ≠ p → t.port q = s.port q) ∧ (∀ i, (s.record i).sameButSent (t.record i)) ∧ s.linkDownElsewhere t p ∧
      t.cells = s.cells ∧ t.pool = s.pool) ∧
    (s.params.inUse p = true → exec (.configure [k, 0#8, 1#8]) s = .next (s.respond .done [])) ∧
    (s.params.inUse p = false → exec (.configure [k, 0#8, 0#8]) s = .next (s.respond .done []))) ∧
  (∀ (s : State) (hi lo : Byte), s.takesRequests = true → s.air.state = .closed →
    1 ≤ hi.toNat * 256 + lo.toNat → hi.toNat * 256 + lo.toNat ≤ 200 →
    (hi.toNat * 256 + lo.toNat = s.params.station →
      exec (.configure [0x01#8, hi, lo]) s = .next (s.respond .done [])) ∧
    (hi.toNat * 256 + lo.toNat ≠ s.params.station → ∃ t, exec (.configure [0x01#8, hi, lo]) s = .next t ∧
      t.params = { s.params with station := hi.toNat * 256 + lo.toNat } ∧ s.contextsEnded t (fun _ => true) ∧
      t.ports = s.ports ∧ s.onlyClasses t [] ∧ t.cells = s.cells ∧ t.pool = s.pool))

/-- SET_LANES (R110): both enables set as given, the other bits ignored, and nothing else changed. The parameters
change only by CONFIGURE, SET_MASK, SET_LANES and a power-on reset (R110, R167, R169). -/
def Obligations.ParametersChangeByTheirCommandsOnly : Prop :=
  (∀ (s : State) (lanes : Byte), s.takesRequests = true →
     exec (.setLanes [lanes]) s =
       .next (({ s with params := { s.params with
         urgentLane := lanes.toNat.testBit 1, routineLane := lanes.toNat.testBit 0 } } : State).respond .done [])) ∧
  (∀ (c : Instr) (s t : State), exec c s = .next t →
     (∀ p, c ≠ .configure p) → (∀ p, c ≠ .setMask p) → (∀ p, c ≠ .setLanes p) → c ≠ .resetNAssert →
     t.params = s.params)

/-! ## The commands on records -/

/-- The lookup by car ID (R26): it finds a record that is not FREE and holds the car ID, and finds none only when
there is none. The record that an allocation takes (R24): the lowest index that is FREE and not on the attention list.
An index above 47 is answered BAD_INDEX by every command that names a record, and changes nothing (R27, R30 to R32,
R35, R40, R68, R91, R106). Commands on a FREE record are answered BAD_STATE, and its soft fault is cleared all the
same (R30 to R33, R35, R40, R91). -/
def Obligations.RecordsAreFoundAndChecked : Prop :=
  ((∀ (s : State) (car : Nat),
      (∀ i, s.lookup car = some i → (s.record i).contact ≠ .free ∧ (s.record i).carId = car) ∧
      (s.lookup car = none → ∀ i, (s.record i).contact = .free ∨ (s.record i).carId ≠ car) ∧
      (s.carIdsUnique → ∀ i, (s.record i).contact ≠ .free → (s.record i).carId = car → s.lookup car = some i)) ∧
   (∀ s : State,
      (∀ i, s.allocatable = some i → (s.record i).contact = .free ∧ s.onAttention i = false ∧
        ∀ j, j < i → (s.record j).contact ≠ .free ∨ s.onAttention j = true) ∧
      (s.allocatable = none → ∀ j, (s.record j).contact ≠ .free ∨ s.onAttention j = true))) ∧
  ((∀ (s : State) (b : Byte), s.takesRequests = true → 47 < b.toNat →
      exec (.readRecord [b]) s = .next (s.refuse .badIndex) ∧ exec (.retire [b]) s = .next (s.refuse .badIndex) ∧
      exec (.release [b]) s = .next (s.refuse .badIndex) ∧ exec (.pin [b]) s = .next (s.refuse .badIndex) ∧
      exec (.unpin [b]) s = .next (s.refuse .badIndex) ∧ exec (.setKeep [b]) s = .next (s.refuse .badIndex) ∧
      exec (.clearKeep [b]) s = .next (s.refuse .badIndex) ∧ exec (.clearFault [b]) s = .next (s.refuse .badIndex) ∧
      (∀ code : Byte, exec (.retune [b, code]) s = .next (s.refuse .badIndex)) ∧
      (∀ (u n : Byte) (body : List Byte), body.length = n.toNat →
        exec (.post (b :: u :: n :: body)) s = .next (s.refuse .badIndex))) ∧
   (∀ (s : State) (i : Fin 48), s.takesRequests = true → (s.record i).contact = .free →
      ∀ t, t = (s.setRecord i { s.record i with soft := none }).refuse .badState →
        exec (.retire [byteOf i.val]) s = .next t ∧ exec (.release [byteOf i.val]) s = .next t ∧
        exec (.pin [byteOf i.val]) s = .next t ∧ exec (.unpin [byteOf i.val]) s = .next t ∧
        exec (.setKeep [byteOf i.val]) s = .next t ∧ exec (.clearKeep [byteOf i.val]) s = .next t ∧
        exec (.clearFault [byteOf i.val]) s = .next t))

/-- READ_RECORD and FIND_CAR answer and change nothing else (R27). READ_RECORD answers every field of R20 and R21 in
their order but the handover deadline, coded by R177: the list as its length and the urgency of each entry, the
message in flight by its position. That a tag, a class and a station number are one byte each, that the down sequence bit
and the last accepted up bit are one byte each, that a turn is slot, period code and phase, and that the last lane served
takes the urgency code is the model's layout, entry 13. -/
def Obligations.RosterReadersAnswer : Prop :=
  ∀ s : State, s.takesRequests = true →
    (∀ (i : Fin 48) (r : Record) (lanes : List Urgency) (turn : Turn → List Byte), r = s.record i →
      r.messages.map s.urgencyOf = lanes.map some →
      (∀ t : Turn, turn t = [byteOf t.slot,
        match t.period with
        | .one => 0#8
        | .two => 1#8
        | .four => 2#8
        | .eight => 3#8,
        byteOf t.phase]) →
      exec (.readRecord [byteOf i.val]) s = .next (s.respond .done
        ([match r.contact with
          | .free => 7#8
          | .granted => 1#8
          | .present => 2#8
          | .paging => 3#8
          | .dormant => 4#8
          | .outbound => 5#8
          | .releasing => 6#8]
        ++ bytes16 r.carId
        ++ (match r.tag with
            | none => [0#8]
            | some g => [1#8, byteOf g])
        ++ (match r.cls with
            | none => [0#8]
            | some c => [1#8, byteOf c])
        ++ [byteOf r.pinned.toNat, byteOf r.keep.toNat]
        ++ (match r.origin with
            | none => [0#8]
            | some n => [1#8, byteOf n])
        ++ (match r.lastHanding with
            | none => [0#8]
            | some n => [1#8, byteOf n])
        ++ (match r.turn with
            | none => [0#8]
            | some t => 1#8 :: turn t)
        ++ (match r.retune with
            | none => [0#8]
            | some c => 1#8 :: (turn c.target ++ [byteOf c.tries]))
        ++ [byteOf r.missCount, byteOf r.grantMisses, byteOf r.mismatchCount, byteOf r.extensions, byteOf r.level,
            byteOf r.lowCount, byteOf r.fading.toNat, byteOf r.downBit.toNat, byteOf r.upBit.toNat]
        ++ byteOf r.messages.length :: lanes.map (fun u => if u = .urgent then 1#8 else 0#8)
        ++ (match r.inFlight with
            | none => [0#8]
            | some b => [1#8, byteOf (r.messages.idxOf b)])
        ++ [if r.lastLane = .urgent then 1#8 else 0#8, byteOf r.pageCount, byteOf r.summoned.toNat]
        ++ (match r.handover with
            | none => [0#8]
            | some c => [1#8, if c.role = .handing then 1#8 else 0#8, byteOf c.peer, byteOf c.tries])
        ++ [match r.mark with
            | .none => 0#8
            | .marked => 1#8
            | .answered => 2#8
            | .left => 3#8]
        ++ (match r.soft with
            | none => [0#8]
            | some .garbled => [1#8, 0#8]
            | some .mismatch => [1#8, 1#8]
            | some .reentry => [1#8, 2#8]
            | some .degraded => [1#8, 3#8]
            | some .claimLapsed => [1#8, 4#8]
            | some .noRoute => [1#8, 5#8]
            | some .retuneFailed => [1#8, 6#8]
            | some .dropped => [1#8, 7#8]
            | some .partialTransfer => [1#8, 8#8])
        ++ (match r.hard with
            | none => [0#8]
            | some .identity => [1#8, 0#8])))) ∧
    (∀ i : Fin 48, ∃ bytes, exec (.readRecord [byteOf i.val]) s = .next (s.respond .done bytes)) ∧
    (∀ b : Byte, 47 < b.toNat → exec (.readRecord [b]) s = .next (s.refuse .badIndex)) ∧
    (∀ hi lo : Byte, hi.toNat * 256 + lo.toNat = 0 ∨ 4095 < hi.toNat * 256 + lo.toNat →
      exec (.findCar [hi, lo]) s = .next (s.refuse .badValue)) ∧
    (∀ hi lo : Byte, 1 ≤ hi.toNat * 256 + lo.toNat → hi.toNat * 256 + lo.toNat ≤ 4095 →
      (s.lookup (hi.toNat * 256 + lo.toNat) = none → exec (.findCar [hi, lo]) s = .next (s.refuse .notHeld)) ∧
      (∀ i, s.lookup (hi.toNat * 256 + lo.toNat) = some i →
        exec (.findCar [hi, lo]) s = .next (s.respond .done [byteOf i.val, byteOf (s.record i).contact.code])))

/-- SET_KEEP and CLEAR_KEEP of a record that is not FREE (R32): its keep flag and its soft fault alone change. PIN (R30) and
UNPIN (R31) of a record that is not FREE and not in exchange. CLEAR_FAULT of a record that is not FREE and not in exchange
(R35): the hard fault goes, the mismatch count becomes 0, and the class IDENTITY stands while another record holds the
fault. RETIRE of a record that is not FREE and not in exchange (R40): the record becomes FREE by R39, and no RETIRED reason
is raised. A record made FREE by RETIRE or UNPIN sends NOTE DROPPED for each receipt-flagged DISPATCH message on its list,
in list order (R113), and ends its summons with SUMMON_ENDED cancelled; one that leaves PAGING during slot 0 is passed over
when the BEACON is handed back (R84). Its freed cells end PLAN_FULL (R48), its freed buffers are reported for POOL_LOW
(R104) and its hard fault for IDENTITY (R35), and ROSTER_FULL ends when the record is off the attention list (R39, R47).
That the grant of a PRESENT record is withdrawn with it is the model's choice, entry 28. -/
def Obligations.RecordCommandsActAtOnce : Prop :=
  ((∀ (s : State) (i : Fin 48), s.takesRequests = true → (s.record i).contact ≠ .free →
      exec (.setKeep [byteOf i.val]) s =
        .next ((s.setRecord i { s.record i with keep := true, soft := none }).respond .done []) ∧
      exec (.clearKeep [byteOf i.val]) s =
        .next ((s.setRecord i { s.record i with keep := false, soft := none }).respond .done [])) ∧
   (∀ (s : State) (i : Fin 48), s.takesRequests = true → (s.record i).contact ≠ .free → s.inExchange i = false →
      ((s.record i).pinned = true → exec (.pin [byteOf i.val]) s =
        .next ((s.setRecord i { s.record i with soft := none }).respond .done [])) ∧
      ((s.record i).pinned = false → 8 ≤ s.roster.pinnedCount → exec (.pin [byteOf i.val]) s =
        .next ((s.setRecord i { s.record i with soft := none }).refuse .noRoom)) ∧
      ((s.record i).pinned = false → s.roster.pinnedCount < 8 → exec (.pin [byteOf i.val]) s =
        .next ((({ s with roster := { s.roster with pinnedCount := s.roster.pinnedCount + 1 } } : State).setRecord i
          { s.record i with pinned := true, soft := none }).respond .done [])) ∧
      ((s.record i).pinned = false → exec (.unpin [byteOf i.val]) s =
        .next ((s.setRecord i { s.record i with soft := none }).respond .done [])) ∧
      ((s.record i).pinned = true → (s.record i).contact ≠ .dormant → exec (.unpin [byteOf i.val]) s =
        .next ((({ s with roster := { s.roster with pinnedCount := s.roster.pinnedCount - 1 } } : State).setRecord i
          { s.record i with pinned := false, soft := none }).respond .done [])) ∧
      ((s.record i).pinned = true → (s.record i).contact = .dormant → ∃ t, exec (.unpin [byteOf i.val]) s = .next t ∧
        s.freed t i ∧ s.notesDropped t i ∧ t.response = some { status := .done, results := [] } ∧
        ((s.record i).summoned = true → s.told t i (.summonEnded .cancelled)) ∧
        ((s.record i).summoned = false → t.host.attention = s.host.attention)))) ∧
  ((∀ (s : State) (i : Fin 48), s.takesRequests = true → (s.record i).contact ≠ .free → s.inExchange i = false →
      ∃ t, exec (.clearFault [byteOf i.val]) s = .next t ∧
        t = ({ (s.setRecord i { s.record i with hard := none, mismatchCount := 0, soft := none }) with
               conditions := t.conditions } : State).respond .done [] ∧
        s.classReported t .identity (decide (∃ j, j ≠ i ∧ (s.record j).hard ≠ none)) ∧
        s.onlyClasses t [.identity]) ∧
   (∀ (s : State) (i : Fin 48), s.takesRequests = true → (s.record i).contact ≠ .free → s.inExchange i = false →
      ∃ t, exec (.retire [byteOf i.val]) s = .next t ∧ s.freed t i ∧ s.notesDropped t i ∧
        t.response = some { status := .done, results := [] } ∧
        ((s.record i).summoned = true → s.told t i (.summonEnded .cancelled)) ∧
        ((s.record i).summoned = false → t.host.attention = s.host.attention)))

/-- RELEASE of a GRANTED or PRESENT record that is not in exchange (R91): its five effects, the summons ending with
SUMMON_ENDED cancelled (R90), PLAN_FULL ended by the cells that it frees (R48), and nothing else of the record, the pool,
the ports, the classes or another record. RELEASE of a record in any other state, in exchange or not, is answered BAD_STATE,
with its soft fault cleared (R33, R91). -/
def Obligations.ReleaseOrdersTheCarAway : Prop :=
  (∀ (s : State) (i : Fin 48), s.takesRequests = true → (s.record i).contact ≠ .granted →
    (s.record i).contact ≠ .present →
    exec (.release [byteOf i.val]) s = .next ((s.setRecord i { s.record i with soft := none }).refuse .badState)) ∧
  ∀ (s : State) (i : Fin 48), s.takesRequests = true → s.inExchange i = false →
    ((s.record i).contact = .granted ∨ (s.record i).contact = .present) →
    ∃ t, exec (.release [byteOf i.val]) s = .next t ∧
      t.record i =
        { s.record i with
          contact := .releasing, retune := none, summoned := false, soft := none,
          handover := (s.record i).handover.bind fun c => if c.role = .claiming then none else some c } ∧
      ((s.record i).summoned = true → s.told t i (.summonEnded .cancelled)) ∧
      ((s.record i).summoned = false → t.host = s.host) ∧
      (∀ j, j ≠ i → t.record j = s.record j) ∧
      (∀ k : Fin 232, t.cells[k] =
        if s.cells[k] = some { holder := i, role := .lent } ∨ s.cells[k] = some { holder := i, role := .pending } then
          none else s.cells[k]) ∧
      s.planFreed t (lentOrPendingOf i) ∧ s.onlyClasses t [.planFull] ∧
      t.air = { s.air with grants := s.air.grants.filter fun j => j != i } ∧
      t.roster.summonCount = s.roster.summonCount - (if (s.record i).summoned then 1 else 0) ∧
      t.pool = s.pool ∧ t.ports = s.ports ∧ t.inbound = s.inbound ∧ t.sweep = s.sweep ∧ t.params = s.params ∧
      t.response = some { status := .done, results := [] }

/-- RETUNE (R68): the checks in their order, whether the record is in exchange or not (R36), and on acceptance of one not in
exchange the cells of the place found become PENDING and the context is made, the turn and its cells unchanged. -/
def Obligations.RetuneReservesAPlace : Prop :=
  ∀ (s : State) (i : Fin 48) (code : Byte), s.takesRequests = true →
    (3 < code.toNat → exec (.retune [byteOf i.val, code]) s =
      .next ((s.setRecord i { s.record i with soft := none }).refuse .badValue)) ∧
    (∀ p, Period.ofCode code.toNat = some p →
      ((s.record i).contact ≠ .present ∨ (s.record i).retune ≠ none ∨ (s.record i).handover ≠ none
          ∨ (s.record i).hard ≠ none →
        exec (.retune [byteOf i.val, code]) s =
          .next ((s.setRecord i { s.record i with soft := none }).refuse .badState)) ∧
      ((s.record i).contact = .present → (s.record i).retune = none → (s.record i).handover = none →
        (s.record i).hard = none →
        (s.findPlace p = none → exec (.retune [byteOf i.val, code]) s =
          .next ((s.setRecord i { s.record i with soft := none }).refuse .noRoom)) ∧
        (∀ target, s.inExchange i = false → s.findPlace p = some target → ∃ t, exec (.retune [byteOf i.val, code]) s = .next t ∧
          t = ({ (s.setRecord i
                  { s.record i with retune := some { target := target, tries := 0 }, soft := none }) with
                 cells := t.cells } : State).respond .done [] ∧
          ∀ slot phase, t.cell slot phase =
            if slot = target.slot ∧ phase ∈ target.phases then some { holder := i, role := .pending }
            else s.cell slot phase)))

/-- The six commands that are held while their record is in exchange (R36): checked, answered DONE, their soft fault
cleared, and put behind the work held before; nothing else changes until the slot ends. -/
def Obligations.CommandsAreHeldInExchange : Prop :=
  ∀ (s : State) (i : Fin 48), s.takesRequests = true → s.inExchange i = true → (s.record i).contact ≠ .free →
    ∀ hold : HeldCommand → State, (∀ c, hold c =
        (({ (s.setRecord i { s.record i with soft := none }) with
            roster := { (s.setRecord i { s.record i with soft := none }).roster with
              held := s.roster.held ++ [.command c] } } : State).respond .done [])) →
      exec (.retire [byteOf i.val]) s = .next (hold .retire) ∧
      exec (.clearFault [byteOf i.val]) s = .next (hold .clearFault) ∧
      exec (.unpin [byteOf i.val]) s = .next (hold .unpin) ∧
      ((s.record i).pinned = true ∨ s.roster.pinnedCount < 8 → exec (.pin [byteOf i.val]) s = .next (hold .pin)) ∧
      ((s.record i).pinned = false → 8 ≤ s.roster.pinnedCount → exec (.pin [byteOf i.val]) s =
        .next ((s.setRecord i { s.record i with soft := none }).refuse .noRoom)) ∧
      ((s.record i).contact = .granted ∨ (s.record i).contact = .present →
        exec (.release [byteOf i.val]) s = .next (hold .release)) ∧
      (∀ (code : Byte) (p : Period), Period.ofCode code.toNat = some p → (s.record i).contact = .present →
        (s.record i).retune = none → (s.record i).handover = none → (s.record i).hard = none →
        s.findPlace p ≠ none → exec (.retune [byteOf i.val, code]) s = .next (hold (.retune code)))

/-- SUMMON (R88, R89): the rows of its table in their order, for a car held and for a car not held. -/
def Obligations.SummonFollowsItsTable : Prop :=
  ∀ (s : State) (hi lo : Byte) (car : Nat), s.takesRequests = true → car = hi.toNat * 256 + lo.toNat →
    (car = 0 ∨ 4095 < car → exec (.summon [hi, lo]) s = .next (s.refuse .badValue)) ∧
    (1 ≤ car → car ≤ 4095 →
      (∀ i r, s.lookup car = some i → r = { s.record i with soft := none } →
        (r.contact = .outbound ∨ r.contact = .releasing →
          exec (.summon [hi, lo]) s = .next ((s.setRecord i r).refuse .badState)) ∧
        (r.contact ≠ .outbound → r.contact ≠ .releasing → r.summoned = true → exec (.summon [hi, lo]) s =
          .next ((s.setRecord i
            (if r.contact = .paging then { r with pageCount := s.params.pageLimit } else r)).respond .done [])) ∧
        (r.contact = .present → r.summoned = false → exec (.summon [hi, lo]) s =
          .next (((s.setRecord i r).offerReason i (.summonEnded .contact)).respond .done [])) ∧
        (r.contact = .granted ∨ r.contact = .paging ∨ r.contact = .dormant → r.summoned = false →
          (8 ≤ s.roster.summonCount → exec (.summon [hi, lo]) s = .next ((s.setRecord i r).refuse .noRoom)) ∧
          (s.roster.summonCount < 8 → exec (.summon [hi, lo]) s =
            .next ((({ s with roster := { s.roster with summonCount := s.roster.summonCount + 1 } } : State).setRecord i
              (if r.contact = .granted then { r with summoned := true }
               else { r with summoned := true, contact := .paging, pageCount := s.params.pageLimit })).respond
              .done [])))) ∧
      (s.lookup car = none →
        (8 ≤ s.roster.summonCount ∨ s.allocatable = none →
          exec (.summon [hi, lo]) s = .next (s.refuse .noRoom)) ∧
        (∀ i, s.roster.summonCount < 8 → s.allocatable = some i → exec (.summon [hi, lo]) s =
          .next ((({ s with roster := { s.roster with summonCount := s.roster.summonCount + 1 } } : State).setRecord i
            { Record.free with carId := car, upBit := true, contact := .paging, pageCount := s.params.pageLimit,
                               summoned := true }).respond .done []))))

/-- POST (R106): the checks in their order, and on DONE a free buffer takes the message, which joins the end of the
record's list; nothing else changes but the soft fault and the report for POOL_LOW. -/
def Obligations.PostFollowsItsTable : Prop :=
  ∀ (s : State) (i : Fin 48) (u n : Byte) (body : List Byte), s.takesRequests = true → body.length = n.toNat →
    (1 < u.toNat ∨ body.length = 0 ∨ 24 < body.length → exec (.post (byteOf i.val :: u :: n :: body)) s =
      .next ((s.setRecord i { s.record i with soft := none }).refuse .badValue)) ∧
    (∀ urgency, Urgency.ofCode u.toNat = some urgency → 1 ≤ body.length → body.length ≤ 24 →
      ((s.record i).contact = .free ∨ (s.record i).contact = .outbound ∨ (s.record i).contact = .releasing →
        exec (.post (byteOf i.val :: u :: n :: body)) s =
          .next ((s.setRecord i { s.record i with soft := none }).refuse .badState)) ∧
      ((s.record i).contact = .granted ∨ (s.record i).contact = .present ∨ (s.record i).contact = .paging
          ∨ (s.record i).contact = .dormant →
        (s.params.recordLimit ≤ (s.record i).messages.length ∨ (∀ b : Fin 64, s.pool[b] ≠ none) →
          exec (.post (byteOf i.val :: u :: n :: body)) s =
            .next ((s.setRecord i { s.record i with soft := none }).refuse .noRoom)) ∧
        ((s.record i).messages.length < s.params.recordLimit → (∃ b : Fin 64, s.pool[b] = none) →
          ∃ t, ∃ b : Fin 64, exec (.post (byteOf i.val :: u :: n :: body)) s = .next t ∧ s.pool[b] = none ∧
            t.pool = s.pool.set b (some { target := i, urgency := urgency, source := .host, receipt := false,
                                          attempts := 0, body := body, placement := .posted }) ∧
            t = ({ (s.setRecord i
                    { s.record i with messages := (s.record i).messages ++ [b], soft := none }) with
                   pool := t.pool, conditions := t.conditions } : State).respond .done
                [byteOf ((s.record i).messages.length + 1)] ∧
            s.classReported t .poolLow (decide (s.freeBuffers - 1 < s.params.poolLow)) ∧
            s.onlyClasses t [.poolLow])))

/-! ## The Turn Plan and the grants -/

/-- The cells of a turn (R59): at its slot, the phases that leave its own phase when divided by its period. The search
for a place (R60) and its degrade (R61): the first place in the order of slots and then phases whose cells are all
free, at the shortest period from the one asked up that has one. -/
def Obligations.TheFirstFreePlaceIsFound : Prop :=
  (∀ t : Turn, t.phase < t.period.cycles →
     (∀ f, f ∈ t.phases ↔ f < 8 ∧ f % t.period.cycles = t.phase) ∧ t.phases.length = 8 / t.period.cycles) ∧
  ((∀ (s : State) (p : Period) (t : Turn), s.findPlace p = some t →
     t.period = p ∧ 3 ≤ t.slot ∧ t.slot ≤ 31 ∧ t.phase < p.cycles ∧ (∀ f ∈ t.phases, s.cell t.slot f = none) ∧
     ∀ u : Turn, u.period = p → 3 ≤ u.slot → u.phase < p.cycles →
       (u.slot < t.slot ∨ (u.slot = t.slot ∧ u.phase < t.phase)) → ∃ f ∈ u.phases, s.cell u.slot f ≠ none) ∧
   (∀ (s : State) (p : Period), s.findPlace p = none →
     ∀ u : Turn, u.period = p → 3 ≤ u.slot → u.slot ≤ 31 → u.phase < p.cycles →
       ∃ f ∈ u.phases, s.cell u.slot f ≠ none) ∧
   (∀ (s : State) (p : Period) (t : Turn), s.findTurn p = some t →
     s.findPlace t.period = some t ∧ p.cycles ≤ t.period.cycles ∧
     ∀ q : Period, p.cycles ≤ q.cycles → q.cycles < t.period.cycles → s.findPlace q = none) ∧
   (∀ (s : State) (p : Period), s.findTurn p = none → ∀ q : Period, p.cycles ≤ q.cycles → s.findPlace q = none))

/-! ## Sweeps -/

/-- SWEEP_START (R157): its checks; then the marks, the counts and the state, and the end at once when nothing is
marked. -/
def Obligations.SweepStartMarksTheRange : Prop :=
  ∀ (s : State) (first last deadline close : Byte), s.takesRequests = true →
    (¬ (first.toNat ≤ last.toNat ∧ last.toNat ≤ 47 ∧ 1 ≤ deadline.toNat ∧ deadline.toNat ≤ 64 ∧ close.toNat ≤ 1) →
      exec (.sweepStart [first, last, deadline, close]) s = .next (s.refuse .badValue)) ∧
    (first.toNat ≤ last.toNat ∧ last.toNat ≤ 47 ∧ 1 ≤ deadline.toNat ∧ deadline.toNat ≤ 64 ∧ close.toNat ≤ 1 →
      (s.sweep.state = .running ∨ s.sweep.state = .halted →
        exec (.sweepStart [first, last, deadline, close]) s = .next (s.refuse .busy)) ∧
      (s.sweep.state = .idle ∨ s.sweep.state = .complete →
        ∃ t, exec (.sweepStart [first, last, deadline, close]) s = .next t ∧
          (∀ i : Fin 48, t.record i =
            { s.record i with
              mark := if first.toNat ≤ i.val ∧ i.val ≤ last.toNat ∧ (s.record i).contact ≠ .free
                  ∧ (s.record i).contact ≠ .outbound then .marked else .none }) ∧
          t.sweep.first = first.toNat ∧ t.sweep.last = last.toNat ∧ t.sweep.answered = 0 ∧ t.sweep.left = 0 ∧
          t.sweep.entered = 0 ∧ t.sweep.used = 0 ∧ t.sweep.haltPending = false ∧
          t.sweep.marked = (allRecords.filter fun i => (t.record i).mark == .marked).length ∧
          (t.sweep.marked = 0 → t.sweep.state = .complete ∧ t.host.sweepEnded = true ∧
            t.sweep.result = some { outcome := .allAccounted, first := first.toNat, last := last.toNat, marked := 0,
                                    answered := 0, left := 0, entered := 0, used := 0, unanswered := [] }) ∧
          (t.sweep.marked ≠ 0 → t.sweep.state = .running ∧ t.sweep.deadline = deadline.toNat ∧
            t.sweep.closeEntry = (close.toNat == 1) ∧ t.host.sweepEnded = false ∧ t.sweep.result = none) ∧
          t = ({ s with roster := { s.roster with records := t.roster.records }, sweep := t.sweep,
                        host := { s.host with sweepEnded := t.host.sweepEnded } } : State).respond .done []))

/-- SWEEP_HALT, SWEEP_RESUME and SWEEP_CANCEL in the four states of the Sweep Unit (R163). A halt that is pending takes
effect as the slot ends, after the slot's findings, unless the sweep has ended by then (R163). READ_SWEEP (R164): the
state alone in IDLE, the sweep as it stands in RUNNING and HALTED, the result record in COMPLETE, which also ends
SWEEP_ENDED. That the deadline is one byte of the result is the model's layout, entry 13. That the fields of the Sweep Unit
hold 0 and clear in IDLE after SWEEP_CANCEL is the model's choice,
entry 21. The deadline of a sweep (R161, R162): at a cycle start the cycles used advance while they are below it, and
the sweep ends with DEADLINE when they equal it; SWEEP_DEADLINE ends it at the boundary between two cycles (entry 9).
That the deadline, the option and the halt flag read 0 and clear in COMPLETE is entry 21, and SWEEP_DEADLINE elsewhere
changing nothing is entry 2. That a pending halt comes after the work held for the record too, so that a TRANSFER held is
still counted as entered, is entry 6. The cycle start of every slot 0 counts so: SlotZeroBuildsTheBeacon,
OpeningAndClosingTheAir. -/
def Obligations.SweepCommandsAndTheDeadline : Prop :=
  ((∀ s : State, s.takesRequests = true →
      (s.sweep.state = .idle ∨ s.sweep.state = .complete →
        exec (.sweepHalt []) s = .next (s.refuse .badState) ∧ exec (.sweepResume []) s = .next (s.refuse .badState)) ∧
      (s.sweep.state = .running → s.air.state ≠ .closed → exec (.sweepHalt []) s =
        .next (({ s with sweep := { s.sweep with haltPending := true } } : State).respond .done [])) ∧
      (s.sweep.state = .running → s.air.state = .closed → exec (.sweepHalt []) s =
        .next (({ s with sweep := { s.sweep with state := .halted, haltPending := false } } : State).respond .done [])) ∧
      (s.sweep.state = .halted → exec (.sweepHalt []) s = .next (s.respond .done [])) ∧
      (s.sweep.state = .running ∨ s.sweep.state = .halted → exec (.sweepResume []) s =
        .next (({ s with sweep := { s.sweep with state := .running, haltPending := false } } : State).respond .done [])) ∧
      (s.sweep.state = .idle → exec (.sweepCancel []) s = .next (s.respond .done [])) ∧
      (s.sweep.state ≠ .idle → ∃ t, exec (.sweepCancel []) s = .next t ∧
        (∀ i, t.record i = { s.record i with mark := .none }) ∧
        t = ({ s with roster := { s.roster with records := t.roster.records }, sweep := Sweep.reset,
                      host := { s.host with sweepEnded := false } } : State).respond .done [])) ∧
   (∀ s : State, s.takesRequests = true →
      (s.sweep.state = .idle → exec (.readSweep []) s = .next (s.respond .done [0#8])) ∧
      (s.sweep.state = .running ∨ s.sweep.state = .halted → exec (.readSweep []) s =
        .next (s.respond .done ([byteOf s.sweep.state.code, byteOf s.sweep.first, byteOf s.sweep.last,
          byteOf s.sweep.deadline, flagByte s.sweep.closeEntry, flagByte s.sweep.haltPending, byteOf s.sweep.used,
          byteOf s.sweep.marked, byteOf s.sweep.answered, byteOf s.sweep.left, byteOf s.sweep.entered]
            ++ sweepListBytes s.markedList))) ∧
      (∀ r, s.sweep.state = .complete → s.sweep.result = some r → exec (.readSweep []) s =
        .next (({ s with host := { s.host with sweepEnded := false } } : State).respond .done (3#8 :: r.bytes))))) ∧
  ((∀ s : State, s.sweep.state = .running →
     (s.sweep.used < s.sweep.deadline →
       s.countSweepCycle = { s with sweep := { s.sweep with used := s.sweep.used + 1 } }) ∧
     (s.sweep.used = s.sweep.deadline → s.countSweepCycle = s.endSweep .deadline)) ∧
   (∀ s : State, s.sweep.state ≠ .running → s.countSweepCycle = s) ∧
   (∀ s : State, s.resetHeld = false → s.atCycleBoundary = true → s.sweep.state = .running →
     s.sweep.used = s.sweep.deadline → ∃ t, exec .sweepDeadline s = .next t ∧ t.sweep.state = .complete ∧
       t.sweep.result = some
         { outcome := .deadline, first := s.sweep.first, last := s.sweep.last, marked := s.sweep.marked,
           answered := s.sweep.answered, left := s.sweep.left, entered := s.sweep.entered, used := s.sweep.used,
           unanswered := (allRecords.filter fun i => (s.record i).mark == .marked).map
             fun i => { record := i, carId := (s.record i).carId } } ∧
       t.host = { s.host with sweepEnded := true } ∧ t = { s with sweep := t.sweep, host := t.host }) ∧
   (∀ s : State, s.resetHeld = false → s.sweep.state ≠ .running → exec .sweepDeadline s = .next s)) ∧
  (∀ (s : State) (k : Fin 32) (w : SlotPhase), s.resetHeld = false → s.resetPending = false → s.air.slot = some k →
     s.air.work = some w → s.sweep.state = .running → s.sweep.haltPending = true →
     ∃ t, exec .slotEnd { s with sweep := { s.sweep with haltPending := false } } = .next t ∧
       exec .slotEnd s = .next (if t.sweep.state = .running then
         { t with sweep := { t.sweep with state := .halted } } else t))

/-! ## The air -/

/-- OPEN_AIR and CLOSE_AIR in the three air states (R2, R3). An accepted OPEN_AIR of a CLOSED air starts slot 0 of a new
cycle: the sample and the dark count with AIR_DARK, the aged cells, the sweep's cycle, the entry-open decision and the
BEACON (R4, R8, R13, R15, R17, R62, R83, R161). The order of these effects at LEAD is the model's choice, entry 4. -/
def Obligations.OpeningAndClosingTheAir : Prop :=
  ∀ (s : State) (ready : Bool), s.takesRequests = true →
    (s.air.state = .closed → s.params.station = 0 → exec (.openAir [] ready) s = .next (s.refuse .badState)) ∧
    (s.air.state = .closed → s.params.station ≠ 0 → ∃ t b, exec (.openAir [] ready) s = .next t ∧
      t.air.state = .opened ∧ s.cycleBegun t ready b ∧ t.pool = s.pool ∧ t.ports = s.ports ∧ t.inbound = s.inbound ∧
      t.params = s.params ∧
      t.response = some { status := .done, results := [] }) ∧
    (s.air.state = .opened ∨ s.air.state = .closing → exec (.openAir [] ready) s =
      .next (({ s with air := { s.air with state := .opened } } : State).respond .done [])) ∧
    (s.air.state = .opened → exec (.closeAir []) s =
      .next (({ s with air := { s.air with state := .closing } } : State).respond .done [])) ∧
    (s.air.state ≠ .opened → exec (.closeAir []) s = .next (s.respond .done []))

/-- The start of a slot of a running air (R4, R6, R13, R15): the slot that follows begins at LEAD with the sample; a dark
slot adds to the dark count, begins no frame and polls no record (of a new page list none is passed over yet, R84), and a
ready one sets the count to 0. The start of a ready entry slot (R9): an OPEN frame with the slot's number when entry is
open, else silence. That an air which became CLOSING after the end of slot 31 begins a new cycle is the model's choice,
entry 7. -/
def Obligations.SlotStartSamplesReady : Prop :=
  (∀ (s : State) (k : Fin 32) (ready : Bool), s.resetHeld = false → s.air.slot = some k → s.air.work = none →
     ∃ t, exec (.slotStart ready) s = .next t ∧
       t.air.slot = some (k + 1) ∧ s.slotSampled t ready ∧ t.air.state = s.air.state ∧
       (ready = false → t.air.down = none ∧ t.air.exchange = none ∧
         t.roster = if k = 31 then { s.roster with passedOver := [] } else s.roster) ∧
       t.air.cycle = (if k = 31 then s.air.cycle + 1 else s.air.cycle) ∧
       (k ≠ 31 → t.cells = s.cells ∧ t.sweep = s.sweep ∧ t.air.entryOpen = s.air.entryOpen) ∧
       t.pool = s.pool ∧ t.ports = s.ports ∧ t.inbound = s.inbound ∧ t.params = s.params ∧ t.response = s.response) ∧
  (∀ (s : State) (k : Fin 32), s.resetHeld = false → s.air.slot = some k → s.air.work = none → k.val < 2 →
     ∃ t, exec (.slotStart true) s = .next t ∧
       t.air.down = (if s.air.entryOpen then some (.entry s.params.station (k.val + 1)) else none) ∧
       t.air.exchange = none ∧ t.roster = s.roster)

/-- The start of slot 0 (R4, R8, R17, R62, R83): WAITING cells become TURN, the entry-open decision is taken, and the
BEACON is built with the decision, the grants and the page list, and sent when the slot is ready. The page list is the
first four records PAGING with pages left, from the index one above the pointer on and wrapping to the pointer itself
(R83). The cycle start counts the cycle of a running sweep, or ends it with DEADLINE (R161). The order of these effects at
LEAD is the model's choice, entry 4, and that an air which became CLOSING after the end of slot 31 begins a new cycle is
entry 7. -/
def Obligations.SlotZeroBuildsTheBeacon : Prop :=
  ∀ (s : State) (ready : Bool), s.resetHeld = false → s.air.slot = some 31 → s.air.work = none →
    ∃ t b, exec (.slotStart ready) s = .next t ∧ s.cycleBegun t ready b ∧ t.pool = s.pool ∧ t.ports = s.ports ∧
      t.inbound = s.inbound ∧ t.params = s.params

/-- The start of a ready turn slot (R7, R10, R108): the POLL of the record that holds the cell in role TURN or LENT,
if it is polled in its state and holds no hard fault, with every field from the record and the message in flight after
the choice of R108; else silence. The message of a POLL (R108, R109): the one in flight goes again; otherwise the
oldest of the lane that the mode puts first, or else of the other lane, is started and its lane is the last served;
the oldest of a lane is the message of that lane nearest the head, and there is none exactly when the lane is not
enabled or no listed message is of it. -/
def Obligations.TurnSlotsPollTheirHolder : Prop :=
  (∀ (s : State) (k : Fin 32) (c : Option CellHolding), s.resetHeld = false → s.air.slot = some k →
     s.air.work = none → 2 ≤ k.val → k.val ≤ 30 → s.cell (k.val + 1) (s.air.cycle.toNat % 8) = c →
     ((∀ h, c = some h → (h.role = .waiting ∨ h.role = .pending) ∨ (s.record h.holder).hard ≠ none) →
       ∃ t, exec (.slotStart true) s = .next t ∧ t.air.down = none ∧ t.air.exchange = none ∧ t.roster = s.roster) ∧
     (∀ h, c = some h → h.role = .turn ∨ h.role = .lent → (s.record h.holder).hard = none →
       (s.record h.holder).contact = .granted ∨ (s.record h.holder).contact = .present
         ∨ (s.record h.holder).contact = .releasing →
       ∃ t p, exec (.slotStart true) s = .next t ∧ t.air.down = some (.poll p) ∧
         t.air.exchange = some { record := h.holder, role := h.role, poll := p } ∧
         p.carId = (s.record h.holder).carId ∧ (∀ g, (s.record h.holder).tag = some g → p.tag = g) ∧
         (p.release = true ↔ (s.record h.holder).contact = .releasing) ∧ p.scan = (s.record h.holder).fading ∧
         (p.sweep = true ↔ s.sweep.state = .running ∧ (s.record h.holder).mark = .marked) ∧
         (p.extension = true ↔ h.role = .lent) ∧
         p.retune = (s.record h.holder).retune.map RetuneContext.target ∧ p.downBit = (s.record h.holder).downBit ∧
         p.inboundAck = (s.record h.holder).upBit ∧ (∀ j, j ≠ h.holder → t.record j = s.record j) ∧
         t.record h.holder = (s.startForPoll h.holder).record h.holder ∧
         p.message = (s.startForPoll h.holder).pollMessage h.holder ∧
         (p.release = true → p.message = none ∧ t.record h.holder = s.record h.holder) ∧
         (p.release = false → (t.record h.holder).inFlight = none → p.message = none) ∧
         (p.release = false → ∀ b m, (t.record h.holder).inFlight = some b → s.pool[b] = some m →
           p.message = some { urgency := m.urgency, body := m.body }))) ∧
  (∀ (s : State) (i : Fin 48), (s.record i).contact ≠ .releasing →
     (∀ b, (s.record i).inFlight = some b → s.startForPoll i = s) ∧
     ((s.record i).inFlight = none →
       (∀ b first, first = (if s.params.deliveryMode = .rotating ∧ (s.record i).lastLane = .urgent then Urgency.routine
             else Urgency.urgent) →
         s.startable (s.record i) first = some b →
           s.startForPoll i = s.setRecord i { s.record i with inFlight := some b, lastLane := first }) ∧
       (∀ b first other, first ≠ other →
         first = (if s.params.deliveryMode = .rotating ∧ (s.record i).lastLane = .urgent then Urgency.routine
           else Urgency.urgent) →
         s.startable (s.record i) first = none → s.startable (s.record i) other = some b →
           s.startForPoll i = s.setRecord i { s.record i with inFlight := some b, lastLane := other }) ∧
       ((∀ lane, s.startable (s.record i) lane = none) → s.startForPoll i = s)) ∧
     (∀ lane b, s.startable (s.record i) lane = some b ↔ s.params.laneOn lane = true ∧
       ∃ older newer, (s.record i).messages = older ++ b :: newer ∧ s.urgencyOf b = some lane ∧
         ∀ x ∈ older, s.urgencyOf x ≠ some lane) ∧
     (∀ lane, s.startable (s.record i) lane = none ↔ s.params.laneOn lane = false ∨
       ∀ x ∈ (s.record i).messages, s.urgencyOf x ≠ some lane) ∧
     s.params.laneOn .urgent = s.params.urgentLane ∧ s.params.laneOn .routine = s.params.routineLane)

/-- UP_FRAME_RECEIVE (R12): the first frame of an open up-window is kept with its level; a later one, or one with no
window open, as in slot 0 and in a turn slot with no POLL (R5), is ignored. RF_READY_FALL (R14): a ready slot becomes
dark after the fact, its frame begun unless the fall comes in LEAD, and what the receiver took is discarded; a slot
dark already stays as it was. The model's choices in it: an up frame with no window open and a fall with no slot in
progress change nothing (entry 2), and the phase of work is the one that the events have shown (entry 20). -/
def Obligations.UpFramesAndFallsOfReady : Prop :=
  (∀ (s : State) (bytes : List Byte) (level : Fin 64), s.resetHeld = false →
     (∀ (k : Fin 32) (w : SlotPhase), s.air.slot = some k → s.air.work = some w → s.air.light = .ready →
       k.val = 1 ∨ k.val = 2 ∨ s.air.exchange ≠ none → s.air.up = none →
       exec (.upFrameReceive bytes level) s =
         .next { s with air := { s.air with work := some .window, up := some { bytes := bytes, level := level.val } } }) ∧
     (s.air.up ≠ none ∨ s.air.light ≠ .ready ∨ s.air.work = none ∨ s.air.slot = none →
       exec (.upFrameReceive bytes level) s = .next s) ∧
     (∀ k : Fin 32, s.air.slot = some k → k.val ≠ 1 → k.val ≠ 2 → s.air.exchange = none →
       exec (.upFrameReceive bytes level) s = .next s)) ∧
  (∀ (s : State) (during : SlotPhase), s.resetHeld = false →
     (s.air.work = none → exec (.rfReadyFall during) s = .next s) ∧
     (∀ w, s.air.work = some w → ∃ t v, exec (.rfReadyFall during) s = .next t ∧
       t = { s with rfReady := false, air := { s.air with work := some v, up := none, light := t.air.light } } ∧
       (v = w ∨ v = during) ∧
       (s.air.light = .ready →
         (w = .lead ∧ during = .lead → t.air.light = .darkAfterFact false) ∧
         (w ≠ .lead ∨ during ≠ .lead → t.air.light = .darkAfterFact s.air.down.isSome)) ∧
       (s.air.light ≠ .ready → t.air.light = s.air.light)))

/-! ## The ends of slots -/

/-- The end of slot 0 (R8, R54, R84): the grant list is emptied either way; a BEACON that was SENT lowers the counts of
the records it named and moves the pointer to the last of them, and one that was DARK changes no record. A record named
that left PAGING during the slot is passed over, even if it is PAGING again with the same car ID by its end: RETIRE, TAKEN
and an accepted claim note it (RecordCommandsActAtOnce, TransfersTakensAndRefusals, ClaimsAreDecidedAndAccepted), and a
SUMMON of a record that is still PAGING does not. -/
def Obligations.TheBeaconIsHandedBack : Prop :=
  ∀ (s : State) (w : SlotPhase), s.resetHeld = false → s.resetPending = false → s.air.slot = some 0 →
    s.air.work = some w → ∃ t, exec .slotEnd s = .next t ∧ t.air.grants = [] ∧ t.air.beacon = none ∧
      t.air.work = none ∧ t.air.slot = some 0 ∧
      (s.air.light ≠ .ready → t.roster = s.roster) ∧
      (∀ b, s.air.light = .ready → s.air.beacon = some b →
        (b.pages.map BeaconPage.record).Nodup →
        (∀ i : Fin 48, t.record i =
          if ∃ p ∈ b.pages, p.record = i ∧ (s.record i).contact = .paging ∧ (s.record i).carId = p.carId ∧
              i ∉ s.roster.passedOver then
            { s.record i with pageCount := (s.record i).pageCount - 1 } else s.record i) ∧
        (∀ p, b.pages.getLast? = some p → t.roster.pagePointer = p.record) ∧
        (b.pages = [] → t.roster.pagePointer = s.roster.pagePointer)) ∧
      s.darkCounted t ∧ s.onlyClasses t [.airDark] ∧ t.cells = s.cells ∧ t.pool = s.pool ∧ t.ports = s.ports ∧
      t.inbound = s.inbound ∧ t.host = s.host

/-- A slot made dark after the fact adds to the dark count at its end (R15), and a polled record loses nothing by a dark
exchange: no count, fault or message of it changes (R79), while its window closes. An exchange that was ABSENT or GARBLED in
the record's own turn, with neither message nor retune, in which a PRESENT record stays below the lapse limit and a GRANTED
one below the grant limit, or a hard fault keeps either (R12, R16, R75, R79, R80): the miss and, in GRANTED, the grant miss
are counted, GARBLED sets its fault with SOFT_FAULT and moves the counts of the Air Framer, and no other record changes.
That the grant misses stop at the grant limit is the model's choice, entry 29. A MISMATCHED exchange (R66, R75, R78, R80):
the mismatch is counted with its soft fault, in the record's own turn with the miss and the grant miss, and at 8 the record
takes IDENTITY, with neither lapse nor grant lapse taken and a claim dropped; nothing of the ANSWER is used. In a LENT cell
(R66) an ABSENT or GARBLED answer changes nothing of the record. The end of an entry slot 1 in which no good hail was heard,
and of a turn slot without a POLL (R12, R15, R16, R42): no record changes, a GARBLED frame of slot 1 is counted in the
garbled frames and not in the consecutive-garbled count, and a slot dark after the fact adds to the dark count. At the end
of every turn slot whose POLL was chosen, whatever the exchange came to, AIR_CHECK follows the consecutive-garbled count and
AIR_DARK the dark count (R15, R16, R171). -/
def Obligations.ExchangesWithoutAMatchAreCounted : Prop :=
  (∀ (s : State) (k : Fin 32) (w : SlotPhase) (begun : Bool) (x : Exchange), s.resetHeld = false →
     s.resetPending = false → s.air.slot = some k → 3 ≤ k.val → k.val ≤ 30 → s.air.work = some w →
     s.air.light = .darkAfterFact begun → s.air.exchange = some x → x.poll.release = false → s.roster.held = [] →
     ∃ t, exec .slotEnd s = .next t ∧
       s.darkCounted t ∧ s.onlyClasses t [.airDark] ∧
       t.air.garbledRun = s.air.garbledRun ∧ t.air.exchange = none ∧ t.roster = s.roster ∧ t.cells = s.cells ∧
       t.pool = s.pool ∧ t.ports = s.ports ∧ t.inbound = s.inbound ∧ t.host = s.host) ∧
  (∀ (s : State) (k : Fin 32) (w : SlotPhase) (x : Exchange) (garbled : Bool), s.resetHeld = false →
     s.resetPending = false → s.air.slot = some k → 3 ≤ k.val → k.val ≤ 30 → s.air.work = some w →
     s.air.light = .ready → s.air.exchange = some x → x.poll.release = false → x.poll.message = none →
     x.poll.retune = none → x.role = .turn → s.roster.held = [] →
     (s.record x.record).contact = .present ∨ (s.record x.record).contact = .granted →
     (s.record x.record).keepsTurn s.params .turn →
     (garbled = false → s.air.up = none) →
     (garbled = true → ∃ u, s.air.up = some u ∧ decodeAnswer u.bytes = none) →
     ∃ t, exec .slotEnd s = .next t ∧
       t.record x.record =
         { s.record x.record with
           missCount := ((s.record x.record).missed s.params .turn).1,
           grantMisses := ((s.record x.record).missed s.params .turn).2,
           soft := if garbled then some .garbled else (s.record x.record).soft } ∧
       (garbled = true → s.told t x.record .softFault) ∧
       (garbled = true → s.classReported t .airCheck (decide (s.params.airCheck ≤ t.air.garbledRun))) ∧
       s.onlyClasses t (if garbled then [.airCheck] else []) ∧
       (∀ j, j ≠ x.record → t.record j = s.record j) ∧
       t.air.garbledRun = (if garbled then (if s.air.garbledRun < 255 then s.air.garbledRun + 1 else s.air.garbledRun)
         else s.air.garbledRun) ∧
       t.host.garbledFrames = (if garbled then
           (if s.host.garbledFrames < 65535 then s.host.garbledFrames + 1 else s.host.garbledFrames)
         else s.host.garbledFrames) ∧
       t.cells = s.cells ∧ t.pool = s.pool ∧ t.ports = s.ports ∧ t.inbound = s.inbound ∧ t.params = s.params) ∧
  (∀ (s : State) (k : Fin 32) (x : Exchange) (u : UpFrame) (a : Answer) (r counted : Record), s.endsExchange k x →
     x.poll.message = none → x.poll.retune = none → s.air.up = some u → decodeAnswer u.bytes = some a →
     a.carId ≠ x.poll.carId ∨ a.tag ≠ x.poll.tag → r = s.record x.record →
     r.contact = .present ∨ r.contact = .granted →
     counted = { r with missCount := (r.missed s.params x.role).1, grantMisses := (r.missed s.params x.role).2,
                        mismatchCount := r.mismatchCount + 1, soft := some .mismatch } →
     (r.mismatchCount < 7 →
       r.keepsTurn s.params x.role →
       ∃ t, exec .slotEnd s = .next t ∧ t.record x.record = counted ∧ s.told t x.record .softFault ∧
         s.classReported t .airCheck (decide (s.params.airCheck ≤ t.air.garbledRun)) ∧
         s.onlyClasses t [.airCheck] ∧
         (∀ j, j ≠ x.record → t.record j = s.record j) ∧ t.air.garbledRun = 0 ∧ t.cells = s.cells ∧ t.pool = s.pool ∧
         t.ports = s.ports ∧ t.inbound = s.inbound) ∧
     (r.mismatchCount = 7 → ∃ t, exec .slotEnd s = .next t ∧
       t.record x.record =
         { counted with
           hard := some .identity,
           handover := r.handover.bind fun c => if c.role = .claiming then none else some c } ∧
       s.told t x.record .softFault ∧ s.told t x.record .hardFault ∧ s.classReported t .identity true ∧
       s.classReported t .airCheck (decide (s.params.airCheck ≤ t.air.garbledRun)) ∧
       s.onlyClasses t [.airCheck, .identity] ∧
       (∀ j, j ≠ x.record → t.record j = s.record j) ∧ t.air.garbledRun = 0 ∧ t.air.grants = s.air.grants ∧
       t.cells = s.cells ∧ t.pool = s.pool ∧ t.ports = s.ports ∧ t.inbound = s.inbound)) ∧
  (∀ (s : State) (k : Fin 32) (x : Exchange) (garbled : Bool), s.endsExchange k x → x.role = .lent →
     x.poll.message = none → x.poll.retune = none → (garbled = false → s.air.up = none) →
     (garbled = true → ∃ u, s.air.up = some u ∧ decodeAnswer u.bytes = none) →
     ∃ t, exec .slotEnd s = .next t ∧ t.roster = s.roster ∧ t.cells = s.cells ∧ t.pool = s.pool ∧ t.ports = s.ports ∧
       t.inbound = s.inbound ∧ t.host.attention = s.host.attention ∧
       (garbled = true → s.classReported t .airCheck (decide (s.params.airCheck ≤ t.air.garbledRun))) ∧
       s.onlyClasses t (if garbled then [.airCheck] else []) ∧
       t.air.garbledRun = (if garbled then (if s.air.garbledRun < 255 then s.air.garbledRun + 1 else s.air.garbledRun)
         else s.air.garbledRun) ∧
       t.host.garbledFrames = (if garbled then
           (if s.host.garbledFrames < 65535 then s.host.garbledFrames + 1 else s.host.garbledFrames)
         else s.host.garbledFrames)) ∧
  (∀ (s : State) (k : Fin 32) (garbled : Bool), s.resetHeld = false → s.resetPending = false → s.air.slot = some k →
     s.air.work ≠ none → k.val = 1 ∨ (3 ≤ k.val ∧ k.val ≤ 30 ∧ s.air.exchange = none) →
     (garbled = false → k.val ≠ 1 ∨ s.air.light ≠ .ready ∨ s.air.up = none) →
     (garbled = true → k.val = 1 ∧ s.air.light = .ready ∧ ∃ u, s.air.up = some u ∧ decodeHail u.bytes = none) →
     ∃ t, exec .slotEnd s = .next t ∧
       t.host = { s.host with garbledFrames := if garbled then
           (if s.host.garbledFrames < 65535 then s.host.garbledFrames + 1 else s.host.garbledFrames)
         else s.host.garbledFrames } ∧
       s.darkCounted t ∧ s.onlyClasses t [.airDark] ∧
       t.air.garbledRun = s.air.garbledRun ∧ t.air.slot = some k ∧ t.air.work = none ∧ t.air.grants = s.air.grants ∧
       t.air.cycle = s.air.cycle ∧ t.air.entryOpen = s.air.entryOpen ∧ t.roster = s.roster ∧ t.cells = s.cells ∧
       t.pool = s.pool ∧ t.ports = s.ports ∧ t.inbound = s.inbound ∧ t.params = s.params ∧
       (s.sweep.haltPending = false → t.sweep = s.sweep)) ∧
  (∀ (s : State) (k : Fin 32) (x : Exchange), s.resetHeld = false → s.resetPending = false → s.air.slot = some k →
     3 ≤ k.val → s.air.work ≠ none → s.air.exchange = some x →
     ∃ t, exec .slotEnd s = .next t ∧ s.windowCounted t)

/-- A MATCHED exchange with no message either way, no retune and no MORE (R16, R75 to R77, R97, R98): the counts
become 0, a GRANTED record becomes PRESENT with CONTACT and the end of its summons, the reading is smoothed into S,
and by the new S the low count and FADING follow the three rows of R98, with the reason FADING when the flag rises; the
consecutive-garbled count becomes 0 and is reported for AIR_CHECK (R16, R171), and no other class and no
other record changes. The smoothing of a reading (R97): the whole part of (3 × S + L) ÷ 4, which lies between the old
S and L and stays in 0 to 63; it falls below S on any lower reading, rises on one more than three above S, and stays
at S on one, two or three above. -/
def Obligations.AMatchedAnswerMakesContact : Prop :=
  (∀ (s : State) (k : Fin 32) (w : SlotPhase) (x : Exchange) (u : UpFrame) (a : Answer), s.resetHeld = false →
     s.resetPending = false → s.air.slot = some k → 3 ≤ k.val → k.val ≤ 30 → s.air.work = some w →
     s.air.light = .ready → s.air.exchange = some x → x.poll.release = false → x.poll.message = none →
     x.poll.retune = none → s.roster.held = [] → s.air.up = some u → decodeAnswer u.bytes = some a →
     a.carId = x.poll.carId → a.tag = x.poll.tag → a.more = false → a.message = none →
     (s.record x.record).contact = .present ∨ (s.record x.record).contact = .granted →
     ∃ t level, exec .slotEnd s = .next t ∧ level = (3 * (s.record x.record).level + u.level) / 4 ∧
       (t.record x.record).contact = .present ∧ (t.record x.record).missCount = 0 ∧
       (t.record x.record).mismatchCount = 0 ∧ (t.record x.record).grantMisses = 0 ∧
       (t.record x.record).level = level ∧
       (t.record x.record).lowCount = (if level < s.params.lo then
           (if (s.record x.record).lowCount < 15 then (s.record x.record).lowCount + 1 else (s.record x.record).lowCount)
         else 0) ∧
       (level < s.params.lo → (t.record x.record).fading = ((s.record x.record).fading ||
         decide (s.params.fadeCount ≤ (t.record x.record).lowCount))) ∧
       ((t.record x.record).fading = true → (s.record x.record).fading = false → s.told t x.record .fading) ∧
       (s.params.lo ≤ level → level < s.params.hi → (t.record x.record).fading = (s.record x.record).fading) ∧
       (s.params.lo ≤ level → s.params.hi ≤ level → (t.record x.record).fading = false) ∧
       ((s.record x.record).contact = .granted → (t.record x.record).summoned = false ∧ s.told t x.record .contact ∧
         ((s.record x.record).summoned = true → s.told t x.record (.summonEnded .contact))) ∧
       (t.record x.record).mark =
         (if s.sweep.state = .running ∧ (s.record x.record).mark = .marked then .answered
          else (s.record x.record).mark) ∧
       (t.record x.record).carId = (s.record x.record).carId ∧ (t.record x.record).tag = (s.record x.record).tag ∧
       (t.record x.record).turn = (s.record x.record).turn ∧
       (t.record x.record).messages = (s.record x.record).messages ∧
       (t.record x.record).handover = (s.record x.record).handover ∧
       (t.record x.record).soft = (s.record x.record).soft ∧
       s.classReported t .airCheck (decide (s.params.airCheck ≤ t.air.garbledRun)) ∧
       s.onlyClasses t [.airCheck] ∧
       (∀ j, j ≠ x.record → t.record j = s.record j) ∧ t.air.garbledRun = 0 ∧
       t.cells = s.cells ∧ t.pool = s.pool ∧ t.ports = s.ports ∧ t.inbound = s.inbound ∧ t.params = s.params) ∧
  ((∀ (r : Record) (p : Params) (l : Nat), (r.withReading p l).level = (3 * r.level + l) / 4) ∧
   (∀ old l : Nat, min old l ≤ smoothed old l ∧ smoothed old l ≤ max old l) ∧
   (∀ old l : Nat, old ≤ 63 → l ≤ 63 → smoothed old l ≤ 63) ∧
   (∀ old l : Nat, old + 1 = l ∨ old + 2 = l ∨ old + 3 = l → smoothed old l = old) ∧
   (∀ old l : Nat, l < old → smoothed old l < old) ∧
   (∀ old l : Nat, old + 3 < l → old < smoothed old l))

/-- A PRESENT record whose exchange in its own turn counted a miss and left the miss count at or above the lapse limit
lapses (R80 to R82, R85): its cells are freed, its turn and any retune are gone, even when that try was the retune's third
(R70), and it is PAGING with the page limit as its count and the reason LAPSED. A GRANTED record whose grant misses reach
the grant limit ends its grant (R55, R56): its summons fails, its claim is dropped, and it is FREE with RETIRED, or DORMANT
with DORMANT when it is pinned; one made FREE sends NOTE DROPPED for each receipt-flagged DISPATCH message on its list, in
list order (R39, R113). Where the POLL of such an exchange carried a message (R111), its attempt is counted first, or the
message is dropped with DROPPED and NOTE DROPPED, and the lapse follows. That a grant miss at the limit leaves the count
there is the model's choice, entry 29, and that the findings are taken in this order, so that DROPPED is the soft fault
left, is entry 5. -/
def Obligations.LapsesEndTheTurn : Prop :=
  (∀ (s : State) (k : Fin 32) (x : Exchange) (r : Record) (soft : Option SoftFault) (mismatches : Nat),
     s.endsExchange k x → x.role = .turn → x.poll.message = none → s.missedBy x soft mismatches →
     r = s.record x.record → r.contact = .present → r.hard = none →
     s.params.lapseLimit ≤ (r.missed s.params .turn).1 →
     ∃ t, exec .slotEnd s = .next t ∧
       t.record x.record =
         { r with missCount := (r.missed s.params .turn).1, mismatchCount := mismatches, soft := soft, contact := .paging,
                  turn := none, retune := none, pageCount := s.params.pageLimit } ∧
       s.told t x.record .lapsed ∧ (∀ j, j ≠ x.record → t.record j = s.record j) ∧
       (∀ c : Fin 232, t.cells[c] = if heldBy x.record s.cells[c] then none else s.cells[c]) ∧
       s.planFreed t (heldBy x.record) ∧ s.onlyClasses t [.planFull, .airCheck] ∧
       t.air.grants = s.air.grants ∧ t.roster.summonCount = s.roster.summonCount ∧ t.sweep.left = s.sweep.left ∧
       t.pool = s.pool ∧ t.ports = s.ports ∧ t.inbound = s.inbound) ∧
  (∀ (s : State) (k : Fin 32) (x : Exchange) (r : Record) (soft : Option SoftFault) (mismatches : Nat),
     s.endsExchange k x → x.role = .turn → x.poll.message = none → x.poll.retune = none →
     s.missedBy x soft mismatches → r = s.record x.record → r.contact = .granted → r.hard = none →
     s.params.grantLimit ≤ (r.missed s.params .turn).2 →
     (r.pinned = false → ∃ t, exec .slotEnd s = .next t ∧ s.recordFreed t x.record ∧ s.notesDropped t x.record ∧
       t.air.grants = s.air.grants.filter (fun j => j != x.record) ∧ s.told t x.record .retired ∧
       (r.summoned = true → s.told t x.record (.summonEnded .failed))) ∧
     (r.pinned = true → ∃ t, exec .slotEnd s = .next t ∧
       t.record x.record =
         { r with
           missCount := (r.missed s.params .turn).1, grantMisses := (r.missed s.params .turn).2,
           mismatchCount := mismatches, soft := soft, contact := .dormant, turn := none, retune := none, pageCount := 0,
           lastHanding := none, summoned := false,
           handover := r.handover.bind fun c => if c.role = .claiming then none else some c } ∧
       s.told t x.record .dormant ∧ (r.summoned = true → s.told t x.record (.summonEnded .failed)) ∧
       t.roster.summonCount = s.roster.summonCount - (if r.summoned then 1 else 0) ∧
       t.roster.pinnedCount = s.roster.pinnedCount ∧ (∀ j, j ≠ x.record → t.record j = s.record j) ∧
       (∀ c : Fin 232, t.cells[c] = if heldBy x.record s.cells[c] then none else s.cells[c]) ∧
       s.planFreed t (heldBy x.record) ∧ s.onlyClasses t [.planFull, .airCheck] ∧
       t.air.grants = s.air.grants.filter (fun j => j != x.record) ∧ t.sweep.left = s.sweep.left ∧
       t.pool = s.pool ∧ t.ports = s.ports ∧ t.inbound = s.inbound)) ∧
  (∀ (s : State) (k : Fin 32) (x : Exchange) (r tried : Record) (soft : Option SoftFault) (mismatches : Nat)
     (b : Fin 64) (m : Message) (dropped : Bool), s.endsExchange k x → x.role = .turn → s.missedBy x soft mismatches →
     r = s.record x.record → r.hard = none → x.poll.message ≠ none → r.inFlight = some b → b ∈ r.messages →
     s.pool[b] = some m → dropped = decide (s.params.attemptLimit ≤ m.tried.attempts) →
     tried = { r.tried s.params b dropped with
               mismatchCount := mismatches, soft := if dropped then some .dropped else soft } →
     (r.contact = .present → s.params.lapseLimit ≤ tried.missCount → ∃ t, exec .slotEnd s = .next t ∧
       s.turnLost t x.record b m dropped ∧
       ({ tried with contact := .paging, turn := none, retune := none,
                     pageCount := s.params.pageLimit } : Record).sameButSent (t.record x.record) ∧
       s.told t x.record .lapsed ∧ t.air.grants = s.air.grants ∧ t.roster.summonCount = s.roster.summonCount) ∧
     (r.contact = .granted → s.params.grantLimit ≤ tried.grantMisses → x.poll.retune = none →
       (r.pinned = false → ∃ t, exec .slotEnd s = .next t ∧ s.recordFreed t x.record ∧
         (s.poolConsistent → s.transmittersServed → t.ports = (s.noteEachDropped r.carId
           (if dropped then m :: s.listed { r with messages := r.messages.erase b } else s.listed r)).ports) ∧
         t.air.grants = s.air.grants.filter (fun j => j != x.record) ∧ s.told t x.record .retired ∧
         (dropped = true → s.told t x.record .softFault) ∧
         (r.summoned = true → s.told t x.record (.summonEnded .failed))) ∧
       (r.pinned = true → ∃ t, exec .slotEnd s = .next t ∧ s.turnLost t x.record b m dropped ∧
         ({ tried with
            contact := .dormant, turn := none, retune := none, pageCount := 0, lastHanding := none, summoned := false,
            handover := r.handover.bind fun c => if c.role = .claiming then none else some c } : Record).sameButSent
           (t.record x.record) ∧
         s.told t x.record .dormant ∧ (r.summoned = true → s.told t x.record (.summonEnded .failed)) ∧
         t.air.grants = s.air.grants.filter (fun j => j != x.record) ∧
         t.roster.summonCount = s.roster.summonCount - (if r.summoned then 1 else 0) ∧
         t.roster.pinnedCount = s.roster.pinnedCount)))

/-- Page exhaustion at the end of a slot 2 in which no good hail was heard (R86, R23, R90): every record PAGING with no
page left ends its summons with failed and becomes FREE with RETIRED, or DORMANT with DORMANT when it is pinned; every
other record stays. A GARBLED hail is counted in the garbled frames and not in the consecutive-garbled count (R12, R16). A
record made FREE sends NOTE DROPPED for each receipt-flagged DISPATCH message on its list, record by record and in list
order (R39, R113), and moves the classes PLAN_FULL, POOL_LOW, IDENTITY and ROSTER_FULL as its freed cells and buffers, its
fault and its place on the attention list ask (R35, R47, R48, R104). The end of a release (R93, R23): the slot whose RELEASE
POLL was sent makes the RELEASING record FREE with RETIRED, or DORMANT when it is pinned with no message in flight and a
MARKED mark LEFT, whatever the window holds; a POLL that was not sent ends nothing. -/
def Obligations.ExhaustionAndReleaseEndTheStay : Prop :=
  (∀ (s : State) (out : Fin 48 → Bool) (garbled : Bool), s.resetHeld = false → s.resetPending = false →
     s.air.slot = some 2 → s.air.work ≠ none → (garbled = false → s.air.light ≠ .ready ∨ s.air.up = none) →
     (garbled = true → s.air.light = .ready ∧ ∃ u, s.air.up = some u ∧ decodeHail u.bytes = none) →
     (∀ i, out i = ((s.record i).contact == .paging && (s.record i).pageCount == 0)) →
     ∃ t, exec .slotEnd s = .next t ∧
       (∀ i, out i = true → (s.record i).pinned = false →
         t.record i = { Record.free with carId := (s.record i).carId,
                                         mark := if s.sweepAwaits i then .left else (s.record i).mark } ∧
         s.told t i .retired) ∧
       (∀ i, out i = true → (s.record i).pinned = true →
         ({ s.record i with contact := .dormant, pageCount := 0, lastHanding := none,
                            summoned := false } : Record).sameButSent (t.record i) ∧
         s.told t i .dormant) ∧
       (∀ i, out i = true → (s.record i).summoned = true → s.told t i (.summonEnded .failed)) ∧
       (∀ i, out i = false → (s.record i).sameButSent (t.record i)) ∧
       (∀ c : Fin 232, t.cells[c] =
         if ∃ i, out i = true ∧ (s.record i).pinned = false ∧ heldBy i s.cells[c] = true then none else s.cells[c]) ∧
       (∀ b : Fin 64, t.pool[b] =
         if ∃ i, out i = true ∧ (s.record i).pinned = false ∧ b ∈ (s.record i).messages then none else s.pool[b]) ∧
       t.roster.summonCount =
         s.roster.summonCount - (allRecords.countP fun i => out i && (s.record i).summoned) ∧
       t.roster.pinnedCount = s.roster.pinnedCount ∧ t.roster.pagePointer = s.roster.pagePointer ∧
       (s.poolConsistent → s.transmittersServed → t.ports = (allRecords.foldl (fun w i =>
         if out i && !(s.record i).pinned then w.noteEachDropped (s.record i).carId (s.listed (s.record i)) else w)
           s).ports) ∧
       t.host.garbledFrames = (if garbled then
           (if s.host.garbledFrames < 65535 then s.host.garbledFrames + 1 else s.host.garbledFrames)
         else s.host.garbledFrames) ∧
       s.darkCounted t ∧
       s.planFreed t (fun c => allRecords.any fun i => out i && !(s.record i).pinned && heldBy i c) ∧
       s.poolReported t (∃ i, out i = true ∧ (s.record i).pinned = false ∧ ∃ b ∈ (s.record i).messages, s.pool[b] ≠ none) ∧
       ((∃ i, out i = true ∧ (s.record i).pinned = false) →
         s.classReported t .identity (decide (∃ j, (t.record j).hard ≠ none))) ∧
       ((∀ i, out i = true → (s.record i).pinned = true) → t.classFlags .identity = s.classFlags .identity) ∧
       s.causeEnded t .rosterFull (∃ i, out i = true ∧ (s.record i).pinned = false ∧ t.onAttention i = false) ∧
       s.onlyClasses t [.airDark, .planFull, .poolLow, .identity, .rosterFull] ∧
       t.air.garbledRun = s.air.garbledRun ∧ t.inbound = s.inbound ∧ t.params = s.params) ∧
  (∀ (s : State) (k : Fin 32) (x : Exchange) (r : Record), s.resetHeld = false → s.resetPending = false →
     s.air.slot = some k → 3 ≤ k.val → k.val ≤ 30 → s.air.work ≠ none → s.air.exchange = some x →
     x.poll.release = true → s.roster.held = [] → r = s.record x.record → r.contact = .releasing →
     (s.air.light = .ready ∨ s.air.light = .darkAfterFact true →
       (r.pinned = false → ∃ t, exec .slotEnd s = .next t ∧ s.recordFreed t x.record ∧ s.notesDropped t x.record ∧
         t.air.grants = s.air.grants.filter (fun j => j != x.record) ∧ s.told t x.record .retired ∧
         (r.summoned = true → s.told t x.record (.summonEnded .cancelled))) ∧
       (r.pinned = true → ∃ t, exec .slotEnd s = .next t ∧
         t.record x.record =
           { r with contact := .dormant, turn := none, retune := none, inFlight := none, pageCount := 0,
                    lastHanding := none, mark := if s.sweepAwaits x.record then .left else r.mark } ∧
         s.told t x.record .dormant ∧ (∀ j, j ≠ x.record → t.record j = s.record j) ∧
         (∀ c : Fin 232, t.cells[c] = if heldBy x.record s.cells[c] then none else s.cells[c]) ∧
         s.planFreed t (heldBy x.record) ∧ s.onlyClasses t [.planFull, .airCheck, .airDark] ∧
         t.air.grants = s.air.grants.filter (fun j => j != x.record) ∧
         t.sweep.left = s.sweep.left + (if s.sweepAwaits x.record then 1 else 0) ∧
         t.pool = s.pool ∧ t.ports = s.ports ∧ t.inbound = s.inbound)) ∧
     (s.air.light = .darkAfterFact false → ∃ t, exec .slotEnd s = .next t ∧ t.roster = s.roster ∧ t.cells = s.cells ∧
       s.onlyClasses t [.airDark] ∧ t.pool = s.pool ∧ t.ports = s.ports ∧ t.inbound = s.inbound ∧
       t.air.grants = s.air.grants))

/-- A MATCHED answer with MORE (R65): the first free cell at this phase in a later slot of the cycle is LENT to the
record, unless it holds a hard fault or two loans, or no such cell is free. A MATCHED answer to a POLL with RETUNE
(R71): the old turn's cells are freed, the PENDING ones WAITING, the turn the pending one, and RETUNE_ENDED done is
raised. Any other answer but a dark one (R70, R72) counts a try, and the third fails the retune, which frees the
PENDING cells and leaves the turn. That the try is taken after the soft fault of the outcome, so that RETUNE_FAILED is the
soft fault left, is the model's choice, entry 5. -/
def Obligations.LoansAndRetunesFollowTheAnswer : Prop :=
  (∀ (s : State) (k : Fin 32) (x : Exchange) (a : Answer) (level phase : Nat) (r : Record), s.endsExchange k x →
     x.poll.message = none → x.poll.retune = none → s.matchedBy x a level → a.more = true → a.message = none →
     r = s.record x.record → r.contact = .present ∨ r.contact = .granted → phase = s.air.cycle.toNat % 8 →
     (∀ m, r.hard = none → r.extensions < 2 → k.val < m → m ≤ 31 → s.cell m phase = none →
       (∀ j, k.val < j → j < m → s.cell j phase ≠ none) →
       ∃ t, exec .slotEnd s = .next t ∧ (t.record x.record).extensions = r.extensions + 1 ∧
         (t.record x.record).contact = .present ∧ (t.record x.record).turn = r.turn ∧
         (∀ slot f, t.cell slot f =
           if slot = m ∧ f = phase then some { holder := x.record, role := .lent } else s.cell slot f) ∧
         s.onlyClasses t [.airCheck] ∧ (∀ j, j ≠ x.record → t.record j = s.record j) ∧ t.pool = s.pool ∧
         t.ports = s.ports) ∧
     (r.hard ≠ none ∨ 2 ≤ r.extensions ∨ (∀ m, k.val < m → m ≤ 31 → s.cell m phase ≠ none) →
       ∃ t, exec .slotEnd s = .next t ∧ (t.record x.record).extensions = r.extensions ∧
         (t.record x.record).contact = .present ∧ (t.record x.record).turn = r.turn ∧ t.cells = s.cells ∧
         s.onlyClasses t [.airCheck] ∧ (∀ j, j ≠ x.record → t.record j = s.record j) ∧ t.pool = s.pool ∧
         t.ports = s.ports)) ∧
  (∀ (s : State) (k : Fin 32) (x : Exchange) (a : Answer) (level : Nat) (r : Record) (c : RetuneContext),
     s.endsExchange k x → x.poll.message = none → x.poll.retune ≠ none → s.matchedBy x a level → a.more = false →
     a.message = none → r = s.record x.record → r.contact = .present ∨ r.contact = .granted → r.retune = some c →
     ∃ t, exec .slotEnd s = .next t ∧ (t.record x.record).turn = some c.target ∧ (t.record x.record).retune = none ∧
       (t.record x.record).contact = .present ∧ (t.record x.record).missCount = 0 ∧
       (t.record x.record).soft = r.soft ∧ s.told t x.record (.retuneEnded .done) ∧
       (∀ n : Fin 232, t.cells[n] = s.cells[n].bind fun h =>
         if h.holder = x.record then
           match h.role with
           | .turn | .waiting => none
           | .pending => some { h with role := .waiting }
           | .lent => some h
         else some h) ∧
       s.planFreed t (fun cell => cell == some { holder := x.record, role := .turn }
         || cell == some { holder := x.record, role := .waiting }) ∧ s.onlyClasses t [.planFull, .airCheck] ∧
       (∀ j, j ≠ x.record → t.record j = s.record j) ∧ t.pool = s.pool ∧ t.ports = s.ports) ∧
  (∀ (s : State) (k : Fin 32) (x : Exchange) (r counted : Record) (c : RetuneContext) (soft : Option SoftFault)
     (mismatches : Nat), s.endsExchange k x → x.role = .turn ∨ x.role = .lent → x.poll.message = none →
     x.poll.retune ≠ none → s.missedBy x soft mismatches → r = s.record x.record → r.contact = .present →
     r.retune = some c → r.keepsTurn s.params x.role →
     counted = { r with missCount := (r.missed s.params x.role).1, mismatchCount := mismatches, soft := soft } →
     (c.tries < 2 → ∃ t, exec .slotEnd s = .next t ∧
       t.record x.record = { counted with retune := some { c with tries := c.tries + 1 } } ∧ t.cells = s.cells ∧
       s.onlyClasses t [.airCheck] ∧ (∀ j, j ≠ x.record → t.record j = s.record j) ∧ t.pool = s.pool ∧ t.ports = s.ports) ∧
     (c.tries = 2 → ∃ t, exec .slotEnd s = .next t ∧
       t.record x.record = { counted with retune := none, soft := some .retuneFailed } ∧
       (∀ n : Fin 232, t.cells[n] =
         if s.cells[n] = some { holder := x.record, role := .pending } then none else s.cells[n]) ∧
       s.planFreed t (fun cell => cell == some { holder := x.record, role := .pending }) ∧
       s.onlyClasses t [.planFull, .airCheck] ∧
       s.told t x.record .softFault ∧ s.told t x.record (.retuneEnded .failed) ∧
       (∀ j, j ≠ x.record → t.record j = s.record j) ∧ t.pool = s.pool ∧ t.ports = s.ports))

/-- The attempts of a message (R111, R112): an acknowledged message leaves its list with its buffer freed and the down bit
toggled; one that is not gains an attempt, and is dropped with DROPPED at the attempt limit. At the slot end (R76, R111,
R112): the ANSWER that carries back the down sequence bit delivers the message, with NOTE DELIVERED; any other answer, or
none, is an attempt, and at the limit the message is dropped with DROPPED and NOTE DROPPED. A message in a MATCHED ANSWER
(R115 to R117): a repeat changes nothing; a new one for the station joins the inbound queue, or for dispatch leaves as an
UPLINK, and then the last accepted up bit is its bit; without a place nothing changes. The NOTE takes the last place before
the UPLINK (R115). The buffer freed by a delivery or a drop is reported for POOL_LOW (R104). That the attempt is taken after
the soft fault of the outcome, so that DROPPED is the soft fault left, is the model's choice, entry 5. -/
def Obligations.MessagesAreDeliveredDroppedOrTaken : Prop :=
  (∀ (s : State) (i : Fin 48) (b : Fin 64) (m : Message), (s.record i).inFlight = some b → s.pool[b] = some m →
     m.attempts ≤ 7 → m.receipt = false →
     ((s.deliverMessage i).record i =
         { s.record i with messages := (s.record i).messages.erase b, inFlight := none,
                           downBit := !(s.record i).downBit } ∧
       (s.deliverMessage i).pool = s.pool.set b none ∧ (s.deliverMessage i).ports = s.ports ∧
       s.poolReported (s.deliverMessage i) True ∧ s.onlyClasses (s.deliverMessage i) [.poolLow] ∧
       (∀ j, j ≠ i → (s.deliverMessage i).record j = s.record j)) ∧
     (m.attempts < 7 → m.attempts + 1 < s.params.attemptLimit →
       (s.failMessage i).pool = s.pool.set b (some { m with attempts := m.attempts + 1 }) ∧
       s.poolReported (s.failMessage i) True ∧ s.onlyClasses (s.failMessage i) [.poolLow] ∧
       (s.failMessage i).roster = s.roster ∧ (s.failMessage i).ports = s.ports) ∧
     (s.params.attemptLimit ≤ m.attempts + 1 → s.params.attemptLimit ≤ 7 →
       (s.failMessage i).record i =
         { s.record i with messages := (s.record i).messages.erase b, inFlight := none,
                           downBit := !(s.record i).downBit, soft := some .dropped } ∧
       (s.failMessage i).pool = s.pool.set b none ∧ (s.failMessage i).ports = s.ports ∧
       s.poolReported (s.failMessage i) True ∧ s.onlyClasses (s.failMessage i) [.poolLow] ∧
       (∀ j, j ≠ i → (s.failMessage i).record j = s.record j))) ∧
  (∀ (s : State) (k : Fin 32) (x : Exchange) (r : Record) (b : Fin 64) (m : Message) (n : Nat)
     (noted : NoteOutcome → BackboneFrame), s.endsExchange k x → x.poll.message ≠ none → x.poll.retune = none →
     r = s.record x.record → r.contact = .present ∨ r.contact = .granted → r.inFlight = some b → s.pool[b] = some m →
     n = (if m.attempts < 7 then m.attempts + 1 else m.attempts) →
     (∀ o, noted o = { source := s.params.station, dest := 255, hop := 255,
                       payload := .note r.carId (match m.source with
                         | .host => 0
                         | .dispatch number => number) o s.params.station }) →
     (∀ a level, s.matchedBy x a level → a.more = false → a.message = none →
       (a.downAck = x.poll.downBit → ∃ t, exec .slotEnd s = .next t ∧
         (t.record x.record).messages = r.messages.erase b ∧ (t.record x.record).inFlight = none ∧
         (t.record x.record).downBit = !r.downBit ∧ (t.record x.record).contact = .present ∧
         (t.record x.record).soft = r.soft ∧ t.pool = s.pool.set b none ∧
         s.poolReported t True ∧ s.onlyClasses t [.poolLow, .airCheck] ∧ s.noteSent t m (noted .delivered) ∧
         (∀ j, j ≠ x.record → (s.record j).sameButSent (t.record j)) ∧ t.cells = s.cells ∧ t.inbound = s.inbound)) ∧
     ((∃ a level, s.matchedBy x a level ∧ a.more = false ∧ a.message = none ∧ a.downAck ≠ x.poll.downBit) ∨
         (∃ soft mismatches, s.missedBy x soft mismatches ∧ r.keepsTurn s.params x.role) →
       (n < s.params.attemptLimit → ∃ t, exec .slotEnd s = .next t ∧
         (t.record x.record).messages = r.messages ∧ (t.record x.record).inFlight = some b ∧
         (t.record x.record).downBit = r.downBit ∧ t.pool = s.pool.set b (some { m with attempts := n }) ∧
         s.poolReported t True ∧ s.onlyClasses t [.poolLow, .airCheck] ∧
         (∀ j, j ≠ x.record → t.record j = s.record j) ∧ t.cells = s.cells ∧ t.ports = s.ports ∧
         t.inbound = s.inbound) ∧
       (s.params.attemptLimit ≤ n → ∃ t, exec .slotEnd s = .next t ∧
         (t.record x.record).messages = r.messages.erase b ∧ (t.record x.record).inFlight = none ∧
         (t.record x.record).downBit = !r.downBit ∧ (t.record x.record).soft = some .dropped ∧
         s.told t x.record .softFault ∧ t.pool = s.pool.set b none ∧
         s.poolReported t True ∧ s.onlyClasses t [.poolLow, .airCheck] ∧ s.noteSent t m (noted .dropped) ∧
         (∀ j, j ≠ x.record → (s.record j).sameButSent (t.record j)) ∧ t.cells = s.cells ∧ t.inbound = s.inbound))) ∧
  (∀ (s : State) (k : Fin 32) (x : Exchange) (a : Answer) (am : AnswerMessage) (level : Nat) (r : Record)
     (q : PortState), s.endsExchange k x → x.poll.retune = none → s.matchedBy x a level → a.more = false →
     a.message = some am → r = s.record x.record → r.contact = .present ∨ r.contact = .granted → q = s.port .outbye →
     (x.poll.message = none →
       (am.upBit = r.upBit → ∃ t, exec .slotEnd s = .next t ∧ s.onlyClasses t [.airCheck] ∧ (t.record x.record).upBit = r.upBit ∧
         t.inbound = s.inbound ∧ t.ports = s.ports ∧ t.pool = s.pool) ∧
       (am.upBit ≠ r.upBit →
         (am.addressee = .here → s.inbound.length < 32 → ∃ t, exec .slotEnd s = .next t ∧ s.onlyClasses t [.airCheck] ∧
           (t.record x.record).upBit = am.upBit ∧
           t.inbound = s.inbound ++ [{ carId := r.carId, record := x.record, body := am.body }] ∧ t.ports = s.ports ∧
           t.pool = s.pool) ∧
         (am.addressee = .dispatch → s.params.outbyeUse = true → q.neighbour = .up → q.traffic.length < 6 →
           ∃ t, exec .slotEnd s = .next t ∧ s.onlyClasses t [.airCheck] ∧ (t.record x.record).upBit = am.upBit ∧
           t.inbound = s.inbound ∧
             t.pool = s.pool ∧ s.offered t .outbye
               { source := s.params.station, dest := 255, hop := 255,
                 payload := .uplink r.carId s.params.station am.body }) ∧
         ((am.addressee = .here ∧ 32 ≤ s.inbound.length) ∨ (am.addressee = .dispatch ∧
             (s.params.outbyeUse = false ∨ q.neighbour ≠ .up ∨ 6 ≤ q.traffic.length)) →
           ∃ t, exec .slotEnd s = .next t ∧ s.onlyClasses t [.airCheck] ∧ (t.record x.record).upBit = r.upBit ∧
           t.inbound = s.inbound ∧
             t.ports = s.ports ∧ t.pool = s.pool))) ∧
     (∀ b m number, x.poll.message ≠ none → a.downAck = x.poll.downBit → r.inFlight = some b → s.pool[b] = some m →
       m.source = .dispatch number → m.receipt = true → am.addressee = .dispatch → am.upBit ≠ r.upBit →
       s.params.outbyeUse = true → q.neighbour = .up → q.sending ≠ none → q.traffic.length = 5 →
       ∃ t, exec .slotEnd s = .next t ∧ (t.record x.record).upBit = r.upBit ∧ t.pool = s.pool.set b none ∧
         s.poolReported t True ∧ s.onlyClasses t [.poolLow, .airCheck] ∧
         t.port .outbye = { q with traffic := q.traffic ++
           [{ source := s.params.station, dest := 255, hop := 255,
              payload := .note r.carId number .delivered s.params.station }] }))

/-- Hails that are held (R43, R44): counted, and nothing else changes. A new admission whose hail names no peer (R25,
R28, R45): the lowest allocatable record takes the car, the tag counter's tag and the first free turn, its cells
WAITING, and a grant is placed, while the tag counter moves to the next value that no record holds; without a record or
without cells the hail is refused and its class made active (R46).
With a previous station the claim of R49 is asked for, and a running sweep counts the admission (R45). A good hail in
an entry slot is decided at its slot end (R42), in slot 2 before page exhaustion. -/
def Obligations.HailsAreHeldOrAdmitted : Prop :=
  (∀ (s : State) (k : Fin 32) (w : SlotPhase) (u : UpFrame) (h : Hail), s.resetHeld = false → s.resetPending = false →
     s.air.slot = some k → k.val = 1 → s.air.work = some w → s.air.light = .ready → s.air.up = some u →
     decodeHail u.bytes = some h →
     ((s.lookup h.carId = none ∧ s.air.entryOpen = false) ∨
      (∃ i, s.lookup h.carId = some i ∧
        ((s.record i).hard ≠ none ∨ (s.record i).contact = .outbound ∨ (s.record i).contact = .releasing ∨
         (s.air.entryOpen = false ∧ ((s.record i).contact = .granted ∨ (s.record i).contact = .present ∨
           h.paged = false))))) →
     ∃ t, exec .slotEnd s = .next t ∧ t.roster = s.roster ∧ t.cells = s.cells ∧ t.air.grants = s.air.grants ∧
       t.host = { s.host with
         hailsHeld := if s.host.hailsHeld < 65535 then s.host.hailsHeld + 1 else s.host.hailsHeld } ∧
       t.conditions = s.conditions ∧ t.pool = s.pool ∧ t.ports = s.ports) ∧
  (∀ (s : State) (h : Hail) (level : Nat), s.lookup h.carId = none → s.air.entryOpen = true →
     (s.allocatable = none → s.decideHail h level = s.countRefused.reportCause .rosterFull true) ∧
     (∀ i, s.allocatable = some i → s.findTurn s.params.classPeriods[h.cls] = none →
       s.decideHail h level = s.countRefused.reportCause .planFull true) ∧
     (∀ i turn, s.allocatable = some i → s.findTurn s.params.classPeriods[h.cls] = some turn →
       h.previousStation = 0 ∨ h.previousStation = s.params.station →
       (s.decideHail h level).record i =
         { Record.free with
           contact := .granted, carId := h.carId, tag := some s.roster.tagCounter, cls := some h.cls.val,
           turn := some turn, level := level, upBit := true,
           soft := if turn.period = s.params.classPeriods[h.cls] then none else some .degraded } ∧
       (∀ j, j ≠ i → (s.decideHail h level).record j = s.record j) ∧
       (∀ slot phase, (s.decideHail h level).cell slot phase =
         if slot = turn.slot ∧ phase ∈ turn.phases then some { holder := i, role := .waiting }
         else s.cell slot phase) ∧
       i ∈ (s.decideHail h level).air.grants ∧ (s.decideHail h level).pool = s.pool ∧
       s.onlyClasses (s.decideHail h level) [] ∧ (s.decideHail h level).ports = s.ports) ∧
     (∀ i turn, s.allocatable = some i → s.findTurn s.params.classPeriods[h.cls] = some turn →
       s.claimAsked (s.decideHail h level) i h.previousStation level
         { Record.free with
           contact := .granted, carId := h.carId, tag := some s.roster.tagCounter, cls := some h.cls.val,
           turn := some turn, level := level, upBit := true,
           soft := if turn.period = s.params.classPeriods[h.cls] then none else some .degraded } ∧
       s.tagMoved (s.decideHail h level) ∧ s.onlyClasses (s.decideHail h level) [] ∧
       (turn.period ≠ s.params.classPeriods[h.cls] → s.told (s.decideHail h level) i .softFault) ∧
       (∀ j, j ≠ i → (s.record j).sameButSent ((s.decideHail h level).record j)) ∧
       (∀ slot phase, (s.decideHail h level).cell slot phase =
         if slot = turn.slot ∧ phase ∈ turn.phases then some { holder := i, role := .waiting }
         else s.cell slot phase) ∧
       (s.decideHail h level).air.grants = (if i ∈ s.air.grants then s.air.grants else s.air.grants ++ [i]) ∧
       (s.decideHail h level).sweep =
         (if s.sweep.state = .running then
           { s.sweep with entered := if s.sweep.entered < 255 then s.sweep.entered + 1 else s.sweep.entered }
          else s.sweep) ∧
       (s.decideHail h level).pool = s.pool)) ∧
  (∀ (s : State) (k : Fin 32) (u : UpFrame) (h : Hail), s.resetHeld = false → s.resetPending = false →
     s.air.slot = some k → s.air.work ≠ none → s.air.light = .ready → s.air.up = some u →
     decodeHail u.bytes = some h →
     k.val = 1 ∨ (k.val = 2 ∧ ∀ i, ((s.decideHail h u.level).record i).contact = .paging →
       ((s.decideHail h u.level).record i).pageCount ≠ 0) →
     ∃ t, exec .slotEnd s = .next t ∧
       t = { s.decideHail h u.level with air := t.air, sweep := t.sweep } ∧
       t.air.grants = (s.decideHail h u.level).air.grants ∧ t.air.slot = some k ∧ t.air.work = none ∧
       (s.sweep.haltPending = false → t.sweep = (s.decideHail h u.level).sweep))

/-- A good hail from a car that is held, its record without hard fault (R43, R44): in an open cycle a GRANTED record's
is a re-grant (R50) and a PRESENT record's a re-entry (R51); of a PAGING or DORMANT record in an open cycle, or PAGED,
it is a revival (R52), refused for want of cells (R46), and then asks for the claim of R49: NO_ROUTE, or a claiming
context with its CLAIM due or begun. A re-entry and a revival take a new tag and move the counter to the next value that no
record holds (R28). -/
def Obligations.HailsOfHeldCarsAreDecided : Prop :=
  ∀ (s t : State) (h : Hail) (level : Nat) (i : Fin 48) (r : Record), s.lookup h.carId = some i → r = s.record i →
    r.hard = none → t = s.decideHail h level →
    (r.contact = .granted → s.air.entryOpen = true →
      t.record i = { r with grantMisses := 0, level := level } ∧ (∀ j, j ≠ i → t.record j = s.record j) ∧
      t = { s with roster := { s.roster with records := t.roster.records },
                   air := { s.air with grants := if i ∈ s.air.grants then s.air.grants else s.air.grants ++ [i] } }) ∧
    (r.contact = .present → s.air.entryOpen = true →
      t.record i =
        { r with
          contact := .granted, tag := some s.roster.tagCounter, cls := some h.cls.val, retune := none, missCount := 0,
          grantMisses := 0, mismatchCount := 0, level := level, lowCount := 0, fading := false, downBit := false,
          upBit := true, soft := some .reentry } ∧
      s.tagMoved t ∧ s.told t i .softFault ∧ (∀ j, j ≠ i → t.record j = s.record j) ∧
      (∀ c : Fin 232, t.cells[c] =
        if s.cells[c] = some { holder := i, role := .lent } ∨ s.cells[c] = some { holder := i, role := .pending } then
          none else s.cells[c]) ∧
      s.planFreed t (lentOrPendingOf i) ∧ s.onlyClasses t [.planFull] ∧
      t.air = { s.air with grants := if i ∈ s.air.grants then s.air.grants else s.air.grants ++ [i] } ∧
      t.pool = s.pool ∧ t.ports = s.ports ∧ t.sweep = s.sweep ∧ t.roster.summonCount = s.roster.summonCount) ∧
    (r.contact = .paging ∨ r.contact = .dormant → s.air.entryOpen = true ∨ h.paged = true →
      (s.findTurn s.params.classPeriods[h.cls] = none → t = s.countRefused.reportCause .planFull true) ∧
      (∀ turn, s.findTurn s.params.classPeriods[h.cls] = some turn →
        s.claimAsked t i h.previousStation level
          { r with
            contact := .granted, tag := some s.roster.tagCounter, cls := some h.cls.val, turn := some turn,
            missCount := 0, grantMisses := 0, mismatchCount := 0, level := level, lowCount := 0, fading := false,
            downBit := false, upBit := true, pageCount := 0, lastHanding := none,
            soft := if turn.period = s.params.classPeriods[h.cls] then r.soft else some .degraded } ∧
        s.tagMoved t ∧ s.onlyClasses t [] ∧ (turn.period ≠ s.params.classPeriods[h.cls] → s.told t i .softFault) ∧
        (∀ j, j ≠ i → (s.record j).sameButSent (t.record j)) ∧
        (∀ slot phase, t.cell slot phase =
          if slot = turn.slot ∧ phase ∈ turn.phases then some { holder := i, role := .waiting }
          else s.cell slot phase) ∧
        t.air = { s.air with grants := if i ∈ s.air.grants then s.air.grants else s.air.grants ++ [i] } ∧
        t.pool = s.pool ∧ t.sweep = s.sweep ∧ t.roster.summonCount = s.roster.summonCount))

/-- The end of slot 31 (R3, R4, R19, R63): after the findings of the slot, which are those that the end of any other
turn slot makes, every LENT cell is freed and every record's extensions are 0. In CLOSING the grant list is then
emptied and the air is CLOSED with no slot; in OPEN the grants stay. The cycle number, the entry-open decision and,
unless the slot was made dark after the fact, the dark count keep their values, and freed LENT cells end PLAN_FULL (R48). -/
def Obligations.TheCycleEndFreesLoans : Prop :=
  (∀ (s : State) (w : SlotPhase), s.resetHeld = false → s.resetPending = false → s.air.slot = some 31 →
     s.air.work = some w → ∃ t, exec .slotEnd s = .next t ∧
       (∀ (n : Fin 232) (h : CellHolding), t.cells[n] = some h → h.role ≠ .lent) ∧
       (∀ i, (t.record i).extensions = 0) ∧
       (s.air.state = .closing → t.air.state = .closed ∧ t.air.slot = none ∧ t.air.grants = []) ∧
       (s.air.state = .opened → t.air.state = .opened ∧ t.air.slot = some 31) ∧
       t.air.work = none ∧ t.air.exchange = none ∧ t.air.down = none ∧ t.air.up = none ∧
       t.air.cycle = s.air.cycle ∧ t.air.entryOpen = s.air.entryOpen ∧
       s.darkCounted t ∧ t.params = s.params ∧
       (s.air.exchange = none →
         (∀ n : Fin 232, t.cells[n] = s.cells[n].bind fun h => if h.role = .lent then none else some h) ∧
         s.planFreed t (Option.any fun h => h.role == .lent) ∧ s.onlyClasses t [.planFull, .airDark] ∧
         (∀ i, t.record i = { s.record i with extensions := 0 }) ∧
         (s.air.state = .opened → t.air.grants = s.air.grants) ∧ t.air.garbledRun = s.air.garbledRun ∧
         t.host = s.host ∧ t.pool = s.pool ∧ t.ports = s.ports ∧ t.inbound = s.inbound)) ∧
  (∀ (s : State) (w : SlotPhase), s.resetHeld = false → s.resetPending = false → s.air.slot = some 31 →
     s.air.work = some w → s.roster.held = [] →
     ∃ t v, exec .slotEnd s = .next t ∧ exec .slotEnd { s with air := { s.air with slot := some 30 } } = .next v ∧
       (∀ n : Fin 232, t.cells[n] = v.cells[n].bind fun h => if h.role = .lent then none else some h) ∧
       (∀ i, t.record i = { v.record i with extensions := 0 }) ∧
       v.causeEnded t .planFull
         (∃ (n : Fin 232) (h : CellHolding), v.cells[n] = some h ∧ h.role = .lent ∧ s.cells[n] = some h) ∧
       v.onlyClasses t [.planFull] ∧
       t = { v with air := t.air, cells := t.cells, conditions := t.conditions,
                    roster := { v.roster with records := t.roster.records } })

/-- A CLAIM, TRANSFER, TAKEN or REFUSED for the car of the record in exchange is held behind the work held before it
(R36). At the slot end the held work is taken in its order, after the findings of the slot (R37). A held command is
taken as the command itself would be on the record with no soft fault, but without a response, and one that would be
refused changes nothing; a held frame is taken as it would be from the receive queue. A slot end with a halt pending is
the same slot end followed by the halt (SweepCommandsAndTheDeadline). -/
def Obligations.HeldWorkIsTakenAtTheSlotEnd : Prop :=
  (∀ (s s' : State) (p : Port) (f : BackboneFrame) (rest : List BackboneFrame) (car : Nat) (i : Fin 48),
     s.resetHeld = false → s.params.station ≠ 0 → (s.port p).receive = f :: rest →
     s' = s.setPort p { s.port p with receive := rest } → f.dest = 0 ∨ f.dest = s.params.station →
     (∃ tag level try_, f.payload = .claim car tag level try_) ∨ (∃ cls ms, f.payload = .transfer car cls ms) ∨
       (∃ n, f.payload = .taken car n) ∨ (∃ reason, f.payload = .refused car reason) →
     s.lookup car = some i → s.inExchange i = true →
     exec (.receiveQueueTake p) s =
       .next { s' with roster := { s'.roster with held := s.roster.held ++ [.frame p f] } }) ∧
  (∀ (s : State) (k : Fin 32) (w : SlotPhase) (x : Exchange), s.resetHeld = false → s.resetPending = false →
     s.air.slot = some k → 3 ≤ k.val → k.val ≤ 30 → s.air.work = some w → s.air.exchange = some x →
     s.sweep.haltPending = false →
     ∃ t, exec .slotEnd { s with roster := { s.roster with held := [] } } = .next t ∧ t.inExchange x.record = false ∧
       exec .slotEnd s = .next (s.roster.held.foldl (State.takeHeld x.record) t)) ∧
  (∀ (s s' : State) (i : Fin 48), s.takesRequests = true → s.inExchange i = false →
     s' = s.setRecord i { s.record i with soft := none } →
     ∀ (c : HeldCommand) (command : Instr),
       (c = .retire ∧ command = .retire [byteOf i.val]) ∨ (c = .release ∧ command = .release [byteOf i.val]) ∨
         (∃ code, c = .retune code ∧ command = .retune [byteOf i.val, code]) ∨
         (c = .clearFault ∧ command = .clearFault [byteOf i.val]) ∨ (c = .pin ∧ command = .pin [byteOf i.val]) ∨
         (c = .unpin ∧ command = .unpin [byteOf i.val]) →
       ∃ status, exec command s = .next ((State.takeHeld i s' (.command c)).respond status []) ∧
         (status ≠ .done → State.takeHeld i s' (.command c) = s')) ∧
  (∀ (s s' : State) (p : Port) (f : BackboneFrame) (rest : List BackboneFrame) (i j : Fin 48), s.resetHeld = false →
     s.params.station ≠ 0 → (s.port p).receive = f :: rest → s' = s.setPort p { s.port p with receive := rest } →
     f.dest = 0 ∨ f.dest = s.params.station →
     (∃ car tag level try_, f.payload = .claim car tag level try_ ∧ s.lookup car = some j) ∨
       (∃ car cls ms, f.payload = .transfer car cls ms ∧ s.lookup car = some j) ∨
       (∃ car n, f.payload = .taken car n ∧ s.lookup car = some j) ∨
       (∃ car reason, f.payload = .refused car reason ∧ s.lookup car = some j) →
     s.inExchange j = false → exec (.receiveQueueTake p) s = .next (State.takeHeld i s' (.frame p f)))

/-! ## The backbone -/

/-- A frame that arrives (R122, R124, R125): nothing on an unused port; a check error when it fails; otherwise the silence
timer restarts, the neighbour is UP, so that LINK_DOWN has its cause only by another port in use, and a HELLO teaches the
neighbour's number while any other frame is queued or counted as a receive-full drop. -/
def Obligations.ArrivingFramesAreTakenIn : Prop :=
  ∀ (s : State) (p : Port) (bytes : List Byte), s.resetHeld = false →
    (s.params.inUse p = false → exec (.backboneFrameReceive p bytes) s = .next s) ∧
    (s.params.inUse p = true →
      (decodeBackbone bytes = none → exec (.backboneFrameReceive p bytes) s =
        .next (s.setPort p { s.port p with
          checkErrors := if (s.port p).checkErrors < 65535 then (s.port p).checkErrors + 1
            else (s.port p).checkErrors })) ∧
      (∀ f, decodeBackbone bytes = some f → ∃ t, exec (.backboneFrameReceive p bytes) s = .next t ∧
        t = { s with ports := t.ports, conditions := t.conditions } ∧
        (∀ q, q ≠ p → t.port q = s.port q) ∧
        (∀ n, f.payload = .hello n →
          t.port p = { s.port p with silence := 0, neighbour := .up, neighbourNumber := some n }) ∧
        ((∀ n, f.payload ≠ .hello n) → (s.port p).receive.length < 8 →
          t.port p = { s.port p with silence := 0, neighbour := .up, receive := (s.port p).receive ++ [f] }) ∧
        ((∀ n, f.payload ≠ .hello n) → 8 ≤ (s.port p).receive.length →
          t.port p = { s.port p with
            silence := 0, neighbour := .up,
            receiveFull := if (s.port p).receiveFull < 65535 then (s.port p).receiveFull + 1
              else (s.port p).receiveFull }) ∧
        s.linkDownElsewhere t p))

/-- Frames taken from a receive queue by destination (R127 to R129, R132, R133): dropped and counted while the station
number is 0; passed on with the hop limit lowered, queued behind a frame being sent or given to the arbiter of an idle
transmitter, or dropped as a hop drop at hop limit 1, or lost to a full or unused port; and a LOCATED, NOTE or UPLINK
for this station dropped and counted. That the take of an empty queue changes nothing is the model's choice, entry 2.
-/
def Obligations.FramesAreRoutedByDestination : Prop :=
  ∀ (s : State) (p : Port), s.resetHeld = false →
    ((s.port p).receive = [] → exec (.receiveQueueTake p) s = .next s) ∧
    (∀ f rest s', (s.port p).receive = f :: rest → s' = s.setPort p { s.port p with receive := rest } →
      (s.params.station = 0 → exec (.receiveQueueTake p) s = .next (s'.countCheckError p)) ∧
      (∀ q, s.params.station ≠ 0 → f.dest ≠ 0 → f.dest ≠ s.params.station →
        q = (if f.dest = 255 then Port.outbye else if s.params.station < f.dest then Port.inbye else Port.outbye) →
        (f.hop ≤ 1 → exec (.receiveQueueTake p) s = .next (s'.setPort p { s'.port p with
          hopDrops := if (s.port p).hopDrops < 65535 then (s.port p).hopDrops + 1 else (s.port p).hopDrops })) ∧
        (1 < f.hop → (s.params.inUse q = false ∨ 6 ≤ (s'.port q).traffic.length) →
          exec (.receiveQueueTake p) s = .next (s'.setPort q { s'.port q with
            trafficFull := if (s.port q).trafficFull < 65535 then (s.port q).trafficFull + 1
              else (s.port q).trafficFull })) ∧
        (1 < f.hop → s.params.inUse q = true → (s'.port q).traffic.length < 6 →
          exec (.receiveQueueTake p) s = .next ((s'.setPort q { s'.port q with
            traffic := (s'.port q).traffic ++ [{ f with hop := f.hop - 1 }] }).arbitrate q)) ∧
        (1 < f.hop → s.params.inUse q = true → (s'.port q).traffic.length < 6 → (s'.port q).sending ≠ none →
          exec (.receiveQueueTake p) s = .next (s'.setPort q { s'.port q with
            traffic := (s'.port q).traffic ++ [{ f with hop := f.hop - 1 }] }))) ∧
      (s.params.station ≠ 0 → f.dest = s.params.station →
        (∃ car q rep c l pr, f.payload = .located car q rep c l pr) ∨ (∃ car n o rep, f.payload = .note car n o rep) ∨
          (∃ car rep body, f.payload = .uplink car rep body) →
        exec (.receiveQueueTake p) s = .next (s'.countCheckError p)))

/-- Frames for this station that name a car: a LOCATE of a car held is answered from its record, with the peer of an
OUTBOUND one, and of a car not held passed on inbye or answered NONE (R103, R130). A RELAY (R107, R131) for a car held
is posted, with NOTE POSTED when its receipt flag is set, or draws NOTE FULL without room and NOTE UNREACHABLE while
RELEASING; for an OUTBOUND car it is re-addressed to the peer and passed on, for a car not held it is passed on inbye
when it has no destination, and where it cannot be passed on, or is addressed here for a car not held, it draws NOTE
UNREACHABLE. A TRANSFER without messages is placed on the record that claims from its sender (R146), unless it is in
exchange (R36). -/
def Obligations.FramesByCarAreHandled : Prop :=
  ∀ (s s' : State) (p : Port) (f : BackboneFrame) (rest : List BackboneFrame), s.resetHeld = false →
    s.params.station ≠ 0 → (s.port p).receive = f :: rest →
    s' = s.setPort p { s.port p with receive := rest } → f.dest = 0 ∨ f.dest = s.params.station →
    (∀ car query i q, f.payload = .locate car query → s.lookup car = some i →
      portToward s.params.station f.source = some q →
      exec (.receiveQueueTake p) s = .next (s'.offerTraffic q
        { source := s.params.station, dest := f.source, hop := 255,
          payload := .located car query s.params.station (some (s.record i).contact) (s.record i).level
            (if (s.record i).contact = .outbound then (s.record i).handover.map HandoverContext.peer else none) })) ∧
    (∀ car query q, f.payload = .locate car query → s.lookup car = none →
      portToward s.params.station f.source = some q →
      (f.dest = 0 ∧ s.params.inUse .inbye = true ∧ (s.port .inbye).neighbour ≠ .down ∧ 1 < f.hop →
        exec (.receiveQueueTake p) s = .next (s'.offerTraffic .inbye { f with hop := f.hop - 1 })) ∧
      (¬ (f.dest = 0 ∧ s.params.inUse .inbye = true ∧ (s.port .inbye).neighbour ≠ .down ∧ 1 < f.hop) →
        exec (.receiveQueueTake p) s = .next (s'.offerTraffic q
          { source := s.params.station, dest := f.source, hop := 255,
            payload := .located car query s.params.station none 0 none }))) ∧
    (∀ car number urgency receipt body (note : NoteOutcome → BackboneFrame) i,
      f.payload = .relay car number urgency receipt body →
      (∀ o, note o = ({ source := s.params.station, dest := 255, hop := 255,
                        payload := .note car number o s.params.station } : BackboneFrame)) →
      s.lookup car = some i →
      ((s.record i).contact = .granted ∨ (s.record i).contact = .present ∨ (s.record i).contact = .paging
          ∨ (s.record i).contact = .dormant →
        (s.params.recordLimit ≤ (s.record i).messages.length ∨ (∀ b : Fin 64, s.pool[b] ≠ none) →
          exec (.receiveQueueTake p) s = .next (s'.offerTraffic .outbye (note .full))) ∧
        ((s.record i).messages.length < s.params.recordLimit → (∃ b : Fin 64, s.pool[b] = none) →
          ∃ t, ∃ b : Fin 64, s.pool[b] = none ∧
            t.pool = s.pool.set b (some { target := i, urgency := urgency, source := .dispatch number,
                                          receipt := receipt, attempts := 0, body := body, placement := .posted }) ∧
            t = { (s'.setRecord i { s.record i with messages := (s.record i).messages ++ [b] }) with
                  pool := t.pool, conditions := t.conditions } ∧
            s.classReported t .poolLow (decide (s.freeBuffers - 1 < s.params.poolLow)) ∧ s.onlyClasses t [.poolLow] ∧
            exec (.receiveQueueTake p) s = .next (if receipt then t.offerTraffic .outbye (note .posted) else t))) ∧
      ((s.record i).contact = .releasing →
        exec (.receiveQueueTake p) s = .next (s'.offerTraffic .outbye (note .unreachable))) ∧
      (∀ c q, (s.record i).contact = .outbound → (s.record i).handover = some c →
        portToward s.params.station c.peer = some q →
        (s.params.inUse q = true ∧ (s.port q).neighbour ≠ .down ∧ 1 < f.hop →
          exec (.receiveQueueTake p) s =
            .next (s'.offerTraffic q { f with dest := c.peer, hop := f.hop - 1 })) ∧
        (¬ (s.params.inUse q = true ∧ (s.port q).neighbour ≠ .down ∧ 1 < f.hop) →
          exec (.receiveQueueTake p) s = .next (s'.offerTraffic .outbye (note .unreachable))))) ∧
    (∀ car number urgency receipt body, f.payload = .relay car number urgency receipt body → s.lookup car = none →
      f.dest = 0 →
      (s.params.inUse .inbye = true ∧ (s.port .inbye).neighbour ≠ .down ∧ 1 < f.hop →
        exec (.receiveQueueTake p) s = .next (s'.offerTraffic .inbye { f with hop := f.hop - 1 })) ∧
      (¬ (s.params.inUse .inbye = true ∧ (s.port .inbye).neighbour ≠ .down ∧ 1 < f.hop) →
        exec (.receiveQueueTake p) s = .next (s'.offerTraffic .outbye
          { source := s.params.station, dest := 255, hop := 255,
            payload := .note car number .unreachable s.params.station }))) ∧
    (∀ car number urgency receipt body, f.payload = .relay car number urgency receipt body → s.lookup car = none →
      f.dest ≠ 0 →
      exec (.receiveQueueTake p) s = .next (s'.offerTraffic .outbye
        { source := s.params.station, dest := 255, hop := 255,
          payload := .note car number .unreachable s.params.station })) ∧
    (∀ car cls i c, f.payload = .transfer car cls [] → s.lookup car = some i → s.inExchange i = false →
      (s.record i).handover = some c → c.role = .claiming → c.peer = f.source →
      ∃ t, exec (.receiveQueueTake p) s = .next t ∧
        t.record i = { s.record i with cls := some cls, origin := some f.source, handover := none } ∧
        (∀ j, j ≠ i → (s.record j).sameButSent (t.record j)) ∧ t.cells = s.cells ∧ t.pool = s.pool ∧
        t.inbound = s.inbound ∧ t.params = s.params)

/-- The arbiter's choice (R133, R134): a HELLO that is due first, discarded while the station number is 0 (R123); then
the handover source and the traffic queue, by the arbiter mode when both wait; nothing begins on a busy transmitter or
an unused port. The handover source serves the first record, from the index one above the rotation index on and
wrapping to it, whose context has a frame due through the port. HELLO_TIMER_EXPIRY and TRANSMIT_COMPLETE (R123, R133):
the timer restarts and a HELLO becomes due; a frame sent to its end leaves the transmitter to the arbiter. The model's
choices in it: an expiry on an unused port and the end of a frame on an idle transmitter change nothing (entry 2), and
the timer restarts at whatever value it shows (entry 3). -/
def Obligations.TheTransmitterIsServed : Prop :=
  (∀ (s : State) (p : Port),
     (s.params.inUse p = false ∨ (s.port p).sending ≠ none → s.arbitrate p = s) ∧
     (s.params.inUse p = true → (s.port p).sending = none →
       ((s.port p).helloDue = true → s.params.station ≠ 0 →
         s.arbitrate p = s.setPort p { s.port p with helloDue := false, sending := some s.helloFrame }) ∧
       ((s.port p).helloDue = false →
         (∀ f rest, (s.port p).traffic = f :: rest →
           s.handoverWaiting p = none ∨ (s.params.arbiterMode = .rotating ∧ (s.port p).lastServed = .handover) →
           s.arbitrate p = s.setPort p { s.port p with sending := some f, traffic := rest, lastServed := .traffic }) ∧
         (∀ i c, s.handoverWaiting p = some i → (s.record i).handover = some c →
           (s.port p).traffic = [] ∨ s.params.arbiterMode = .fixed ∨ (s.port p).lastServed = .traffic →
           s.arbitrate p =
             (s.setRecord i { s.record i with handover := some { c with due := false } }).setPort p
               { s.port p with sending := some (s.handoverFrame (s.record i) c), rotation := i,
                               lastServed := .handover }) ∧
         (s.handoverWaiting p = none → (s.port p).traffic = [] → s.arbitrate p = s))) ∧
     (s.params.inUse p = true → (s.port p).sending = none → (s.port p).helloDue = true → s.params.station = 0 →
       s.arbitrate p = (s.setPort p { s.port p with helloDue := false }).arbitrate p) ∧
     (∀ i, s.handoverWaiting p = some i → s.dueThrough p i = true) ∧
     (∀ i, s.dueThrough p i = true ↔ ∃ c, (s.record i).handover = some c ∧ c.due = true ∧
       portToward s.params.station c.peer = some p) ∧
     (∀ i, s.handoverWaiting p = some i ↔ ∃ n : Fin 48, i = (s.port p).rotation + 1 + n ∧ s.dueThrough p i = true ∧
       ∀ m : Fin 48, m < n → s.dueThrough p ((s.port p).rotation + 1 + m) = false) ∧
     (s.handoverWaiting p = none ↔ ∀ i, s.dueThrough p i = false)) ∧
  (∀ (s : State) (p : Port), s.resetHeld = false →
     (s.params.inUse p = false → exec (.helloTimerExpiry p) s = .next s) ∧
     (s.params.inUse p = true →
       ((s.port p).sending ≠ none → exec (.helloTimerExpiry p) s =
         .next (s.setPort p { s.port p with helloTimer := 0, helloDue := true })) ∧
       ((s.port p).sending = none → s.params.station ≠ 0 → exec (.helloTimerExpiry p) s =
         .next (s.setPort p { s.port p with
           helloTimer := 0, helloDue := false,
           sending := some { source := s.params.station, dest := 0, hop := 255,
                             payload := .hello s.params.station } }))) ∧
     (s.params.inUse p = true → (s.port p).sending = none → s.params.station = 0 → exec (.helloTimerExpiry p) s =
       .next ((s.setPort p { s.port p with helloTimer := 0, helloDue := false }).arbitrate p)) ∧
     ((s.port p).sending = none → exec (.transmitComplete p) s = .next s) ∧
     ((s.port p).sending ≠ none → exec (.transmitComplete p) s =
       .next ((s.setPort p { s.port p with sending := none }).arbitrate p)))

/-- SILENCE_TIMEOUT (R125, R150): a neighbour that was not DOWN becomes DOWN, LINK_DOWN has its cause, and every
context routed through the port ends, a claim with CLAIM_LAPSED and the reason SOFT_FAULT and a handing by the fall to
PAGING. The model's
choices in it: an expiry on an unused port changes nothing (entry 2), and the silence timer stands at 1000 whatever it
showed (entry 3). -/
def Obligations.SilenceLosesThePort : Prop :=
  ∀ (s : State) (p : Port), s.resetHeld = false →
    (s.params.inUse p = false → exec (.silenceTimeout p) s = .next s) ∧
    (s.params.inUse p = true → (s.port p).neighbour = .down →
      exec (.silenceTimeout p) s = .next (s.setPort p { s.port p with silence := 1000 })) ∧
    (s.params.inUse p = true → (s.port p).neighbour ≠ .down → ∃ t, exec (.silenceTimeout p) s = .next t ∧
      t.port p = { s.port p with silence := 1000, neighbour := .down } ∧
      (∀ q, q ≠ p → t.port q = s.port q) ∧ s.classReported t .linkDown true ∧
      s.onlyClasses t [.linkDown] ∧ s.contextsEnded t (s.routedThrough p) ∧
      t.cells = s.cells ∧ t.pool = s.pool ∧ t.inbound = s.inbound ∧ t.params = s.params)

/-- FLUSH_PORT (R136): both queues emptied and their frames counted in the answer; every other part of the port, and of
the station, as it was; BAD_VALUE for any other port. -/
def Obligations.FlushPortEmptiesTheQueues : Prop :=
  ∀ (s : State) (k : Byte), s.takesRequests = true →
    (∀ p, Port.ofCode k.toNat = some p → exec (.flushPort [k]) s =
      .next ((s.setPort p { s.port p with receive := [], traffic := [] }).respond .done
        [byteOf ((s.port p).receive.length + (s.port p).traffic.length)])) ∧
    (1 < k.toNat → exec (.flushPort [k]) s = .next (s.refuse .badValue))

/-! ## Handover -/

/-- A claim is decided by the first row of R142 that fits the record found; row 6 and rows 4, 5 read the context. A CLAIM
taken for a record not in exchange (R142 to R145): a refusal is originated toward the claimant; a repeat makes the TRANSFER
due again and changes nothing else of the context; an accepted claim frees the cells, ends turn, retune, pages and summons,
withdraws the grant and makes the record OUTBOUND with a HANDING context whose TRANSFER is due or begun, its tag, class,
flags, quality, bits and messages kept; one that leaves PAGING during slot 0 is passed over when the BEACON is handed back
(R84), and its freed cells end PLAN_FULL (R48). A claim that carries the own number as its source draws no REFUSED, for no
port leads there: the model's choice, entry 15. -/
def Obligations.ClaimsAreDecidedAndAccepted : Prop :=
  (∀ (s : State) (c car level : Nat),
     (s.lookup car = none → s.decideClaim c car level = .refused .notHeld) ∧
     (∀ i, s.lookup car = some i →
       ((s.record i).hard ≠ none ∨ (s.record i).contact = .releasing → s.decideClaim c car level = .refused .busy) ∧
       ((s.record i).hard = none → (s.record i).contact ≠ .releasing →
         (∀ x, (s.record i).handover = some x → x.role = .claiming ∨ x.peer ≠ c →
           s.decideClaim c car level = .refused .busy) ∧
         (∀ x, (s.record i).handover = some x → x.role = .handing → x.peer = c →
           s.decideClaim c car level = .again i) ∧
         ((s.record i).handover = none →
           ((s.record i).keep = true → s.decideClaim c car level = .refused .kept) ∧
           ((s.record i).keep = false →
             ((s.record i).contact = .present ∧ (s.record i).fading = false ∧ (s.record i).missCount = 0 ∧
                 level ≤ (s.record i).level + s.params.contestMargin →
               s.decideClaim c car level = .refused .contested) ∧
             (¬ ((s.record i).contact = .present ∧ (s.record i).fading = false ∧ (s.record i).missCount = 0 ∧
                 level ≤ (s.record i).level + s.params.contestMargin) →
               s.decideClaim c car level = .accepted i)))))) ∧
  (∀ (s s' : State) (p : Port) (f : BackboneFrame) (rest : List BackboneFrame) (car tag level try_ : Nat),
     s.resetHeld = false → s.params.station ≠ 0 → (s.port p).receive = f :: rest →
     s' = s.setPort p { s.port p with receive := rest } → f.dest = 0 ∨ f.dest = s.params.station →
     f.payload = .claim car tag level try_ → (∀ i, s.lookup car = some i → s.inExchange i = false) →
     (∀ reason, s.decideClaim f.source car level = .refused reason →
       (∀ q, portToward s.params.station f.source = some q → exec (.receiveQueueTake p) s = .next (s'.offerTraffic q
         { source := s.params.station, dest := f.source, hop := 255, payload := .refused car reason })) ∧
       (portToward s.params.station f.source = none → exec (.receiveQueueTake p) s = .next s')) ∧
     (∀ i c, s.decideClaim f.source car level = .again i → (s.record i).handover = some c →
       ∃ t due, exec (.receiveQueueTake p) s = .next t ∧
         t.record i = { s.record i with handover := some { c with due := due } } ∧
         s'.dueOrBegun t i c.peer due (s.handoverFrame (s.record i) c) ∧
         (∀ j, j ≠ i → (s.record j).sameButSent (t.record j)) ∧ t.cells = s.cells ∧ t.pool = s.pool ∧ t.air = s.air ∧
         t.clock = s.clock ∧ t.params = s.params) ∧
     (∀ i, s.decideClaim f.source car level = .accepted i →
       ∃ t due, exec (.receiveQueueTake p) s = .next t ∧
         t.record i =
           { s.record i with
             contact := .outbound, turn := none, retune := none, pageCount := 0, lastHanding := none, summoned := false,
             mark := if s.sweepAwaits i then .left else (s.record i).mark,
             handover := some { role := .handing, peer := f.source, tries := 1,
                                deadline := s.clock + s.params.handoverTimeout, due := due, claimLevel := none } } ∧
         s'.dueOrBegun t i f.source due
           { source := s.params.station, dest := f.source, hop := 255,
             payload := .transfer (s.record i).carId ((s.record i).cls.getD 0)
               (((s.record i).messages.filterMap fun b => s.pool[b]).map fun m =>
                 { urgency := m.urgency, source := m.source, receipt := m.receipt, attempts := m.attempts,
                   body := m.body }) } ∧
         ((s.record i).summoned = true → s.told t i (.summonEnded .handed)) ∧ s.passedOverIn t i ∧
         t.roster.summonCount = s.roster.summonCount - (if (s.record i).summoned then 1 else 0) ∧
         t.sweep.left = s.sweep.left + (if s.sweepAwaits i then 1 else 0) ∧
         (∀ j, j ≠ i → (s.record j).sameButSent (t.record j)) ∧
         (∀ k : Fin 232, t.cells[k] = if heldBy i s.cells[k] then none else s.cells[k]) ∧
         s.planFreed t (heldBy i) ∧ s.onlyClasses t [.planFull] ∧
         t.air = { s.air with grants := s.air.grants.filter fun j => j != i } ∧ t.pool = s.pool ∧
         t.inbound = s.inbound ∧ t.params = s.params))

/-- CLAIM_EXPIRY (R141) and HANDING_EXPIRY (R144) of a context of their role: the next try with a fresh deadline and
its CLAIM or TRANSFER due, or begun by the idle transmitter of the port toward the peer; after the last try
CLAIM_LAPSED, or the fall to PAGING. The model's choices in it: an expiry of a role that the context does not have, or
with no context, changes nothing (entry 2), the clock stands at the deadline that expired, if it was not past it (entry
3), and a claim that lapses leaves the origin station of an earlier TRANSFER (entry 31). -/
def Obligations.ExpiriesRunTheContexts : Prop :=
  (∀ (s : State) (i : Fin 48) (c : HandoverContext), s.resetHeld = false → (s.record i).handover = some c →
     (c.role = .handing → exec (.claimExpiry i) s = .next s) ∧
     (c.role = .claiming → exec (.handingExpiry i) s = .next s) ∧
     (c.role = .claiming → c.tries < 3 → ∃ t due, exec (.claimExpiry i) s = .next t ∧
       t.clock = max s.clock c.deadline ∧
       t.record i = { s.record i with
         handover := some { c with
           tries := c.tries + 1, due := due, deadline := max s.clock c.deadline + s.params.handoverTimeout } } ∧
       s.dueOrBegun t i c.peer due
         { source := s.params.station, dest := c.peer, hop := 255,
           payload := .claim (s.record i).carId ((s.record i).tag.getD 0) (c.claimLevel.getD 0) (c.tries + 1) } ∧
       (∀ j, j ≠ i → (s.record j).sameButSent (t.record j)) ∧ t.cells = s.cells ∧ t.pool = s.pool ∧ s.onlyClasses t []) ∧
     (c.role = .claiming → 3 ≤ c.tries → ∃ t, exec (.claimExpiry i) s = .next t ∧
       t.record i = { s.record i with handover := none, soft := some .claimLapsed } ∧
       s.told t i .softFault ∧
       (∀ j, j ≠ i → t.record j = s.record j) ∧ t.ports = s.ports ∧ t.cells = s.cells ∧ t.pool = s.pool ∧
       s.onlyClasses t []) ∧
     (c.role = .handing → c.tries < 2 → ∃ t due, exec (.handingExpiry i) s = .next t ∧
       t.record i = { s.record i with
         handover := some { c with
           tries := c.tries + 1, due := due, deadline := max s.clock c.deadline + s.params.handoverTimeout } } ∧
       s.dueOrBegun t i c.peer due
         { source := s.params.station, dest := c.peer, hop := 255,
           payload := .transfer (s.record i).carId ((s.record i).cls.getD 0)
             (((s.record i).messages.filterMap fun b => s.pool[b]).map fun m =>
               { urgency := m.urgency, source := m.source, receipt := m.receipt, attempts := m.attempts,
                 body := m.body }) } ∧
       (∀ j, j ≠ i → (s.record j).sameButSent (t.record j)) ∧ t.cells = s.cells ∧ t.pool = s.pool ∧ s.onlyClasses t []) ∧
     (c.role = .handing → 2 ≤ c.tries → (s.record i).contact = .outbound → ∃ t, exec (.handingExpiry i) s = .next t ∧
       t.record i = { s.record i with handover := none, contact := .paging, pageCount := s.params.pageLimit,
                                      lastHanding := some c.peer } ∧
       (∀ j, j ≠ i → t.record j = s.record j) ∧ t.host = s.host ∧ t.ports = s.ports ∧ t.pool = s.pool ∧ s.onlyClasses t [])) ∧
  (∀ (s : State) (i : Fin 48), s.resetHeld = false → (s.record i).handover = none →
     exec (.claimExpiry i) s = .next s ∧ exec (.handingExpiry i) s = .next s)

/-- A TRANSFER (R146, R105) taken for a record, not in exchange, that claims from its sender: its messages are placed in
their order, with their attempts and not in flight, behind the transferred messages listed and before the first local post,
while a buffer is free and the list is below the per-record limit; the others are dropped, each receipt-flagged DISPATCH one
with NOTE DROPPED, and PARTIAL_TRANSFER is set; class and origin are set, the context closes, HANDED_IN is raised and TAKEN
is offered with the number placed; the buffers taken are reported for POOL_LOW (R104). A repeat is answered TAKEN with 0,
and any other TRANSFER is dropped and counted (R147). A TAKEN (R148) completes the handover of an OUTBOUND record whose
context names its sender, or of a PAGING record that remembers it, without a NOTE, its summons ending with SUMMON_ENDED
cancelled; any other TAKEN is ignored. A REFUSED (R149) closes a claim from its sender, and with KEPT or CONTESTED releases
a GRANTED or PRESENT record, whose freed cells end PLAN_FULL (R48); with BUSY, or without such a claim, it changes nothing.
That a claim that closes leaves the origin station of an earlier TRANSFER is the model's choice, entry 31, and that a
receipt flag carried for a message with source HOST stays set is entry 32. -/
def Obligations.TransfersTakensAndRefusals : Prop :=
  (∀ (s s' : State) (p q : Port) (f : BackboneFrame) (rest : List BackboneFrame) (car cls : Nat)
     (ms : List TransferMessage), s.resetHeld = false → s.params.station ≠ 0 → (s.port p).receive = f :: rest →
     s' = s.setPort p { s.port p with receive := rest } → f.dest = 0 ∨ f.dest = s.params.station →
     f.payload = .transfer car cls ms → portToward s.params.station f.source = some q →
     (∀ i, s.lookup car = some i → s.inExchange i = false) →
     (∀ i c n, s.poolConsistent → s.lookup car = some i → (s.record i).handover = some c → c.role = .claiming →
       c.peer = f.source →
       n = Nat.min ms.length (Nat.min (s.params.recordLimit - (s.record i).messages.length) s.freeBuffers) →
       ∃ (t u v : State) (placed : List (Fin 64)), exec (.receiveQueueTake p) s = .next t ∧ placed.length = n ∧
         placed.Nodup ∧ (∀ b ∈ placed, s.pool[b] = none) ∧
         v.record i =
           { s.record i with messages :=
               (s.record i).messages.takeWhile s.isTransferred ++ placed
                 ++ (s.record i).messages.dropWhile s.isTransferred } ∧
         (∀ b : Fin 64, b ∉ placed → v.pool[b] = s.pool[b]) ∧
         (∀ (k : Nat) (b : Fin 64) (m : TransferMessage), placed[k]? = some b → ms[k]? = some m →
           v.pool[b] = some { target := i, urgency := m.urgency, source := m.source, receipt := m.receipt,
                              attempts := m.attempts, body := m.body, placement := .transferred }) ∧
         (∀ j, j ≠ i → v.record j = s.record j) ∧ v.ports = s'.ports ∧ v.params = s.params ∧ v.cells = s.cells ∧
         u.ports = ((ms.drop n).foldl (fun w m => w.noteFor car m.source m.receipt .dropped) v).ports ∧
         u.record i =
           { v.record i with
             cls := some cls, origin := some f.source, handover := none,
             soft := if n < ms.length then some .partialTransfer else (s.record i).soft } ∧
         (n < ms.length → s.told u i .softFault) ∧ s.told u i .handedIn ∧
         (∀ j, j ≠ i → (s.record j).sameButSent (u.record j)) ∧ u.pool = v.pool ∧ u.params = s.params ∧
         u.cells = s.cells ∧ u.inbound = s.inbound ∧ s.poolReported t (0 < n) ∧
         s.onlyClasses t [.poolLow] ∧
         u.sweep =
           (if s.sweep.state = .running ∧ (s.record i).mark = .none then
             { s.sweep with entered := if s.sweep.entered < 255 then s.sweep.entered + 1 else s.sweep.entered }
            else s.sweep) ∧
         t = u.offerTraffic q
           { source := s.params.station, dest := f.source, hop := 255, payload := .taken car n }) ∧
     (∀ i, s.lookup car = some i → (s.record i).handover = none → (s.record i).origin = some f.source →
       exec (.receiveQueueTake p) s = .next (s'.offerTraffic q
         { source := s.params.station, dest := f.source, hop := 255, payload := .taken car 0 })) ∧
     (s.lookup car = none ∨ (∃ i, s.lookup car = some i ∧
         ((∃ c, (s.record i).handover = some c ∧ (c.role = .handing ∨ c.peer ≠ f.source)) ∨
          ((s.record i).handover = none ∧ (s.record i).origin ≠ some f.source))) →
       exec (.receiveQueueTake p) s = .next (s'.setPort p { s'.port p with
         checkErrors := if (s.port p).checkErrors < 65535 then (s.port p).checkErrors + 1 else (s.port p).checkErrors }))) ∧
  (∀ (s s' : State) (p : Port) (f : BackboneFrame) (rest : List BackboneFrame) (car n : Nat), s.resetHeld = false →
     s.params.station ≠ 0 → (s.port p).receive = f :: rest → s' = s.setPort p { s.port p with receive := rest } →
     f.dest = 0 ∨ f.dest = s.params.station → f.payload = .taken car n →
     (∀ i, s.lookup car = some i → s.inExchange i = false) →
     (s.lookup car = none → exec (.receiveQueueTake p) s = .next s') ∧
     (∀ i, s.lookup car = some i →
       ((s.record i).handingTo f.source = true ∨
         ((s.record i).contact = .paging ∧ (s.record i).lastHanding = some f.source) →
         ∃ t, exec (.receiveQueueTake p) s = .next t ∧ s.freed t i ∧ t.ports = s'.ports ∧ s.told t i .handedOut ∧
           ((s.record i).summoned = true → s.told t i (.summonEnded .cancelled))) ∧
       ((s.record i).handingTo f.source = false →
         ¬ ((s.record i).contact = .paging ∧ (s.record i).lastHanding = some f.source) →
         exec (.receiveQueueTake p) s = .next s') ∧
       ((s.record i).handingTo f.source = true ↔ (s.record i).contact = .outbound ∧
         ∃ c, (s.record i).handover = some c ∧ c.role = .handing ∧ c.peer = f.source))) ∧
  (∀ (s s' : State) (p : Port) (f : BackboneFrame) (rest : List BackboneFrame) (car : Nat) (reason : RefusedReason),
     s.resetHeld = false → s.params.station ≠ 0 → (s.port p).receive = f :: rest →
     s' = s.setPort p { s.port p with receive := rest } → f.dest = 0 ∨ f.dest = s.params.station →
     f.payload = .refused car reason → (∀ i, s.lookup car = some i → s.inExchange i = false) →
     (s.lookup car = none ∨ reason = .busy ∨ (∃ i, s.lookup car = some i ∧
         ∀ c, (s.record i).handover = some c → c.role = .handing ∨ c.peer ≠ f.source) →
       exec (.receiveQueueTake p) s = .next s') ∧
     (∀ i c, s.lookup car = some i → (s.record i).handover = some c → c.role = .claiming → c.peer = f.source →
       (reason = .notHeld ∨ ((reason = .kept ∨ reason = .contested) ∧ (s.record i).contact ≠ .granted ∧
           (s.record i).contact ≠ .present) →
         exec (.receiveQueueTake p) s = .next (s'.setRecord i { s.record i with handover := none })) ∧
       (reason = .kept ∨ reason = .contested → (s.record i).contact = .granted ∨ (s.record i).contact = .present →
         ∃ t, exec (.receiveQueueTake p) s = .next t ∧
           t.record i = { s.record i with contact := .releasing, retune := none, summoned := false, handover := none } ∧
           ((s.record i).summoned = true → s.told t i (.summonEnded .cancelled)) ∧
           (∀ j, j ≠ i → t.record j = s.record j) ∧
           (∀ k : Fin 232, t.cells[k] =
             if s.cells[k] = some { holder := i, role := .lent } ∨ s.cells[k] = some { holder := i, role := .pending }
             then none else s.cells[k]) ∧
           s.planFreed t (lentOrPendingOf i) ∧ s.onlyClasses t [.planFull] ∧
           t.air = { s.air with grants := s.air.grants.filter fun j => j != i } ∧
           t.roster.summonCount = s.roster.summonCount - (if (s.record i).summoned then 1 else 0) ∧
           t.pool = s.pool ∧ t.ports = s'.ports ∧ t.inbound = s.inbound ∧ t.params = s.params)))

/-! ## Encodings -/

/-- The check codes of R178 on the manual's own bytes: 29B1h over "123456789", and of the IDENTIFY transaction of the
worked example its request, the five bytes of its response that the manual gives, and the request with a wrong check
byte. Every well-formed host command comes back from the frame that carries it (R174, R177, R178). Every backbone
frame in range comes back from its bytes, with every field (R124, R126, R176, R178). -/
def Obligations.FramesRoundTrip : Prop :=
  ((crc16 [0x31#8, 0x32#8, 0x33#8, 0x34#8, 0x35#8, 0x36#8, 0x37#8, 0x38#8, 0x39#8] = 0x29B1#16 ∧
    decodeRequest [0x48#8, 0x00#8, 0x24#8] false = .identify [] ∧
    decodeRequest [0x48#8, 0x00#8, 0x25#8] false = .badCheckRequest [0x48#8, 0x00#8, 0x25#8] ∧
    requestFrame 0x48 [] = [0x48#8, 0x00#8, 0x24#8] ∧
    (Response.frame { status := .done, results := [0x26#8, 0x48#8, 0x01#8] }).take 5 =
      [0x00#8, 0x03#8, 0x26#8, 0x48#8, 0x01#8]) ∧
   (∀ (c : Instr) (code : Nat) (params : List Byte) (ready : Bool), requestOf c = some (code, params) → c.wf = true →
      (∀ p r, c = .openAir p r → r = ready) → decodeRequest (requestFrame code params) ready = c)) ∧
  (∀ f : BackboneFrame, f.inRange = true → decodeBackbone f.bytes = some f)

/-! ## Invariants -/

/-- The invariants below, and that of NoFrameWaitsOnAnIdleTransmitter, hold after a power-on reset. -/
def Obligations.InvariantsHoldAtReset : Prop :=
  State.reset.queuesBounded ∧ State.reset.airConsistent ∧ State.reset.carIdsUnique ∧ State.reset.tagsUnique ∧
  State.reset.params.valid ∧ State.reset.attentionDistinct ∧ State.reset.transmittersServed ∧
  State.reset.planConsistent ∧ State.reset.poolConsistent ∧ State.reset.countsAgree ∧ State.reset.sweepAgrees

/-- Every step keeps the queues within their depths, and an unused port empty (R116, R122, R124, R132). Every step
keeps the attention list free of repeated indices (R168). That an unused port has no HELLO due either is the model's
choice, entry 26. -/
def Obligations.ListsStayBoundedAndDistinct : Prop :=
  (∀ s t : State, s.queuesBounded → step s = .next t → t.queuesBounded) ∧
  (∀ s t : State, s.attentionDistinct → step s = .next t → t.attentionDistinct)

/-- Every step keeps the air consistent: slot, work, exchange, held work and a pending reset fit together (R1, R5, R7, R36,
R166). -/
def Obligations.TheAirStaysConsistent : Prop :=
  ∀ s t : State, s.airConsistent → step s = .next t → t.airConsistent

/-- Every step keeps the law of R26: no two records that are not FREE hold the same car ID. -/
def Obligations.CarIdsStayUnique : Prop :=
  ∀ s t : State, s.carIdsUnique → step s = .next t → t.carIdsUnique

/-- Every step keeps the law of R28: no two records that are not FREE hold the same tag, and the counter rests on a tag
that none holds. -/
def Obligations.TagsStayUnique : Prop :=
  ∀ s t : State, s.tagsUnique → step s = .next t → t.tagsUnique

/-- Every step keeps every parameter in its range (R167). -/
def Obligations.ParametersStayInRange : Prop :=
  ∀ s t : State, s.params.valid → step s = .next t → t.params.valid

/-- Every step keeps the Turn Plan and the records in agreement (R58, R59): a cell is held only by a GRANTED, PRESENT
or RELEASING record, as a cell of its turn or of its pending turn or as a loan to a PRESENT record, and every such
record holds all the cells of its turn. -/
def Obligations.ThePlanStaysConsistent : Prop :=
  ∀ s t : State, s.planConsistent → step s = .next t → t.planConsistent

/-- Every step keeps the pool and the lists in agreement (R104, R105): a buffer holds a message for a record exactly
when that record lists it, once. So the free buffers and the messages listed always number 64. -/
def Obligations.ThePoolStaysConsistent : Prop :=
  (∀ s t : State, s.poolConsistent → step s = .next t → t.poolConsistent) ∧
  (∀ s : State, s.poolConsistent →
     s.freeBuffers + (allRecords.map fun i => (s.record i).messages.length).sum = 64)

/-- Every step keeps the pinned count and the summon count equal to the numbers of pinned and of summoned records, at
most 8 each (R23, R88), and the counts of the sweep in agreement with the marks: marked is answered plus left plus
unanswered (R162). -/
def Obligations.TheCountsStayInAgreement : Prop :=
  (∀ s t : State, s.countsAgree → step s = .next t → t.countsAgree) ∧
  (∀ s t : State, s.sweepAgrees → step s = .next t → t.sweepAgrees)

end
end

