-- ==== Sys2Proof/Laws/State.lean ====
section
/-! SUPPORT. What each primitive update of State leaves and sets, field by field, and reads of a record, a port, a class
and a buffer after one. -/

namespace Sys2Proof.Machine

/-! `respond` -/

@[simp] theorem State.respond_air (s : State) (status : Status) (results : List Byte) : (s.respond status results).air = s.air := rfl
@[simp] theorem State.respond_roster (s : State) (status : Status) (results : List Byte) : (s.respond status results).roster = s.roster := rfl
@[simp] theorem State.respond_cells (s : State) (status : Status) (results : List Byte) : (s.respond status results).cells = s.cells := rfl
@[simp] theorem State.respond_pool (s : State) (status : Status) (results : List Byte) : (s.respond status results).pool = s.pool := rfl
@[simp] theorem State.respond_inbound (s : State) (status : Status) (results : List Byte) : (s.respond status results).inbound = s.inbound := rfl
@[simp] theorem State.respond_ports (s : State) (status : Status) (results : List Byte) : (s.respond status results).ports = s.ports := rfl
@[simp] theorem State.respond_sweep (s : State) (status : Status) (results : List Byte) : (s.respond status results).sweep = s.sweep := rfl
@[simp] theorem State.respond_host (s : State) (status : Status) (results : List Byte) : (s.respond status results).host = s.host := rfl
@[simp] theorem State.respond_conditions (s : State) (status : Status) (results : List Byte) : (s.respond status results).conditions = s.conditions := rfl
@[simp] theorem State.respond_params (s : State) (status : Status) (results : List Byte) : (s.respond status results).params = s.params := rfl
@[simp] theorem State.respond_clock (s : State) (status : Status) (results : List Byte) : (s.respond status results).clock = s.clock := rfl
@[simp] theorem State.respond_resetPending (s : State) (status : Status) (results : List Byte) : (s.respond status results).resetPending = s.resetPending := rfl
@[simp] theorem State.respond_resetHeld (s : State) (status : Status) (results : List Byte) : (s.respond status results).resetHeld = s.resetHeld := rfl
@[simp] theorem State.respond_rfReady (s : State) (status : Status) (results : List Byte) : (s.respond status results).rfReady = s.rfReady := rfl
@[simp] theorem State.respond_pending (s : State) (status : Status) (results : List Byte) : (s.respond status results).pending = s.pending := rfl

/-! `refuse` -/

@[simp] theorem State.refuse_air (s : State) (status : Status) : (s.refuse status).air = s.air := rfl
@[simp] theorem State.refuse_roster (s : State) (status : Status) : (s.refuse status).roster = s.roster := rfl
@[simp] theorem State.refuse_cells (s : State) (status : Status) : (s.refuse status).cells = s.cells := rfl
@[simp] theorem State.refuse_pool (s : State) (status : Status) : (s.refuse status).pool = s.pool := rfl
@[simp] theorem State.refuse_inbound (s : State) (status : Status) : (s.refuse status).inbound = s.inbound := rfl
@[simp] theorem State.refuse_ports (s : State) (status : Status) : (s.refuse status).ports = s.ports := rfl
@[simp] theorem State.refuse_sweep (s : State) (status : Status) : (s.refuse status).sweep = s.sweep := rfl
@[simp] theorem State.refuse_host (s : State) (status : Status) : (s.refuse status).host = s.host := rfl
@[simp] theorem State.refuse_conditions (s : State) (status : Status) : (s.refuse status).conditions = s.conditions := rfl
@[simp] theorem State.refuse_params (s : State) (status : Status) : (s.refuse status).params = s.params := rfl
@[simp] theorem State.refuse_clock (s : State) (status : Status) : (s.refuse status).clock = s.clock := rfl
@[simp] theorem State.refuse_resetPending (s : State) (status : Status) : (s.refuse status).resetPending = s.resetPending := rfl
@[simp] theorem State.refuse_resetHeld (s : State) (status : Status) : (s.refuse status).resetHeld = s.resetHeld := rfl
@[simp] theorem State.refuse_rfReady (s : State) (status : Status) : (s.refuse status).rfReady = s.rfReady := rfl
@[simp] theorem State.refuse_pending (s : State) (status : Status) : (s.refuse status).pending = s.pending := rfl

/-! `setRecord` -/

@[simp] theorem State.setRecord_air (s : State) (i : Fin 48) (r : Record) : (s.setRecord i r).air = s.air := rfl
@[simp] theorem State.setRecord_cells (s : State) (i : Fin 48) (r : Record) : (s.setRecord i r).cells = s.cells := rfl
@[simp] theorem State.setRecord_pool (s : State) (i : Fin 48) (r : Record) : (s.setRecord i r).pool = s.pool := rfl
@[simp] theorem State.setRecord_inbound (s : State) (i : Fin 48) (r : Record) : (s.setRecord i r).inbound = s.inbound := rfl
@[simp] theorem State.setRecord_ports (s : State) (i : Fin 48) (r : Record) : (s.setRecord i r).ports = s.ports := rfl
@[simp] theorem State.setRecord_sweep (s : State) (i : Fin 48) (r : Record) : (s.setRecord i r).sweep = s.sweep := rfl
@[simp] theorem State.setRecord_host (s : State) (i : Fin 48) (r : Record) : (s.setRecord i r).host = s.host := rfl
@[simp] theorem State.setRecord_conditions (s : State) (i : Fin 48) (r : Record) : (s.setRecord i r).conditions = s.conditions := rfl
@[simp] theorem State.setRecord_params (s : State) (i : Fin 48) (r : Record) : (s.setRecord i r).params = s.params := rfl
@[simp] theorem State.setRecord_clock (s : State) (i : Fin 48) (r : Record) : (s.setRecord i r).clock = s.clock := rfl
@[simp] theorem State.setRecord_resetPending (s : State) (i : Fin 48) (r : Record) : (s.setRecord i r).resetPending = s.resetPending := rfl
@[simp] theorem State.setRecord_resetHeld (s : State) (i : Fin 48) (r : Record) : (s.setRecord i r).resetHeld = s.resetHeld := rfl
@[simp] theorem State.setRecord_rfReady (s : State) (i : Fin 48) (r : Record) : (s.setRecord i r).rfReady = s.rfReady := rfl
@[simp] theorem State.setRecord_response (s : State) (i : Fin 48) (r : Record) : (s.setRecord i r).response = s.response := rfl
@[simp] theorem State.setRecord_pending (s : State) (i : Fin 48) (r : Record) : (s.setRecord i r).pending = s.pending := rfl

/-! `modifyRecord` -/

@[simp] theorem State.modifyRecord_air (s : State) (i : Fin 48) (f : Record → Record) : (s.modifyRecord i f).air = s.air := rfl
@[simp] theorem State.modifyRecord_cells (s : State) (i : Fin 48) (f : Record → Record) : (s.modifyRecord i f).cells = s.cells := rfl
@[simp] theorem State.modifyRecord_pool (s : State) (i : Fin 48) (f : Record → Record) : (s.modifyRecord i f).pool = s.pool := rfl
@[simp] theorem State.modifyRecord_inbound (s : State) (i : Fin 48) (f : Record → Record) : (s.modifyRecord i f).inbound = s.inbound := rfl
@[simp] theorem State.modifyRecord_ports (s : State) (i : Fin 48) (f : Record → Record) : (s.modifyRecord i f).ports = s.ports := rfl
@[simp] theorem State.modifyRecord_sweep (s : State) (i : Fin 48) (f : Record → Record) : (s.modifyRecord i f).sweep = s.sweep := rfl
@[simp] theorem State.modifyRecord_host (s : State) (i : Fin 48) (f : Record → Record) : (s.modifyRecord i f).host = s.host := rfl
@[simp] theorem State.modifyRecord_conditions (s : State) (i : Fin 48) (f : Record → Record) : (s.modifyRecord i f).conditions = s.conditions := rfl
@[simp] theorem State.modifyRecord_params (s : State) (i : Fin 48) (f : Record → Record) : (s.modifyRecord i f).params = s.params := rfl
@[simp] theorem State.modifyRecord_clock (s : State) (i : Fin 48) (f : Record → Record) : (s.modifyRecord i f).clock = s.clock := rfl
@[simp] theorem State.modifyRecord_resetPending (s : State) (i : Fin 48) (f : Record → Record) : (s.modifyRecord i f).resetPending = s.resetPending := rfl
@[simp] theorem State.modifyRecord_resetHeld (s : State) (i : Fin 48) (f : Record → Record) : (s.modifyRecord i f).resetHeld = s.resetHeld := rfl
@[simp] theorem State.modifyRecord_rfReady (s : State) (i : Fin 48) (f : Record → Record) : (s.modifyRecord i f).rfReady = s.rfReady := rfl
@[simp] theorem State.modifyRecord_response (s : State) (i : Fin 48) (f : Record → Record) : (s.modifyRecord i f).response = s.response := rfl
@[simp] theorem State.modifyRecord_pending (s : State) (i : Fin 48) (f : Record → Record) : (s.modifyRecord i f).pending = s.pending := rfl

/-! `clearSoft` -/

@[simp] theorem State.clearSoft_air (s : State) (i : Fin 48) : (s.clearSoft i).air = s.air := rfl
@[simp] theorem State.clearSoft_cells (s : State) (i : Fin 48) : (s.clearSoft i).cells = s.cells := rfl
@[simp] theorem State.clearSoft_pool (s : State) (i : Fin 48) : (s.clearSoft i).pool = s.pool := rfl
@[simp] theorem State.clearSoft_inbound (s : State) (i : Fin 48) : (s.clearSoft i).inbound = s.inbound := rfl
@[simp] theorem State.clearSoft_ports (s : State) (i : Fin 48) : (s.clearSoft i).ports = s.ports := rfl
@[simp] theorem State.clearSoft_sweep (s : State) (i : Fin 48) : (s.clearSoft i).sweep = s.sweep := rfl
@[simp] theorem State.clearSoft_host (s : State) (i : Fin 48) : (s.clearSoft i).host = s.host := rfl
@[simp] theorem State.clearSoft_conditions (s : State) (i : Fin 48) : (s.clearSoft i).conditions = s.conditions := rfl
@[simp] theorem State.clearSoft_params (s : State) (i : Fin 48) : (s.clearSoft i).params = s.params := rfl
@[simp] theorem State.clearSoft_clock (s : State) (i : Fin 48) : (s.clearSoft i).clock = s.clock := rfl
@[simp] theorem State.clearSoft_resetPending (s : State) (i : Fin 48) : (s.clearSoft i).resetPending = s.resetPending := rfl
@[simp] theorem State.clearSoft_resetHeld (s : State) (i : Fin 48) : (s.clearSoft i).resetHeld = s.resetHeld := rfl
@[simp] theorem State.clearSoft_rfReady (s : State) (i : Fin 48) : (s.clearSoft i).rfReady = s.rfReady := rfl
@[simp] theorem State.clearSoft_response (s : State) (i : Fin 48) : (s.clearSoft i).response = s.response := rfl
@[simp] theorem State.clearSoft_pending (s : State) (i : Fin 48) : (s.clearSoft i).pending = s.pending := rfl

/-! `dropContext` -/

@[simp] theorem State.dropContext_air (s : State) (i : Fin 48) : (s.dropContext i).air = s.air := rfl
@[simp] theorem State.dropContext_cells (s : State) (i : Fin 48) : (s.dropContext i).cells = s.cells := rfl
@[simp] theorem State.dropContext_pool (s : State) (i : Fin 48) : (s.dropContext i).pool = s.pool := rfl
@[simp] theorem State.dropContext_inbound (s : State) (i : Fin 48) : (s.dropContext i).inbound = s.inbound := rfl
@[simp] theorem State.dropContext_ports (s : State) (i : Fin 48) : (s.dropContext i).ports = s.ports := rfl
@[simp] theorem State.dropContext_sweep (s : State) (i : Fin 48) : (s.dropContext i).sweep = s.sweep := rfl
@[simp] theorem State.dropContext_host (s : State) (i : Fin 48) : (s.dropContext i).host = s.host := rfl
@[simp] theorem State.dropContext_conditions (s : State) (i : Fin 48) : (s.dropContext i).conditions = s.conditions := rfl
@[simp] theorem State.dropContext_params (s : State) (i : Fin 48) : (s.dropContext i).params = s.params := rfl
@[simp] theorem State.dropContext_clock (s : State) (i : Fin 48) : (s.dropContext i).clock = s.clock := rfl
@[simp] theorem State.dropContext_resetPending (s : State) (i : Fin 48) : (s.dropContext i).resetPending = s.resetPending := rfl
@[simp] theorem State.dropContext_resetHeld (s : State) (i : Fin 48) : (s.dropContext i).resetHeld = s.resetHeld := rfl
@[simp] theorem State.dropContext_rfReady (s : State) (i : Fin 48) : (s.dropContext i).rfReady = s.rfReady := rfl
@[simp] theorem State.dropContext_response (s : State) (i : Fin 48) : (s.dropContext i).response = s.response := rfl
@[simp] theorem State.dropContext_pending (s : State) (i : Fin 48) : (s.dropContext i).pending = s.pending := rfl

/-! `enterPaging` -/

@[simp] theorem State.enterPaging_air (s : State) (i : Fin 48) : (s.enterPaging i).air = s.air := rfl
@[simp] theorem State.enterPaging_cells (s : State) (i : Fin 48) : (s.enterPaging i).cells = s.cells := rfl
@[simp] theorem State.enterPaging_pool (s : State) (i : Fin 48) : (s.enterPaging i).pool = s.pool := rfl
@[simp] theorem State.enterPaging_inbound (s : State) (i : Fin 48) : (s.enterPaging i).inbound = s.inbound := rfl
@[simp] theorem State.enterPaging_ports (s : State) (i : Fin 48) : (s.enterPaging i).ports = s.ports := rfl
@[simp] theorem State.enterPaging_sweep (s : State) (i : Fin 48) : (s.enterPaging i).sweep = s.sweep := rfl
@[simp] theorem State.enterPaging_host (s : State) (i : Fin 48) : (s.enterPaging i).host = s.host := rfl
@[simp] theorem State.enterPaging_conditions (s : State) (i : Fin 48) : (s.enterPaging i).conditions = s.conditions := rfl
@[simp] theorem State.enterPaging_params (s : State) (i : Fin 48) : (s.enterPaging i).params = s.params := rfl
@[simp] theorem State.enterPaging_clock (s : State) (i : Fin 48) : (s.enterPaging i).clock = s.clock := rfl
@[simp] theorem State.enterPaging_resetPending (s : State) (i : Fin 48) : (s.enterPaging i).resetPending = s.resetPending := rfl
@[simp] theorem State.enterPaging_resetHeld (s : State) (i : Fin 48) : (s.enterPaging i).resetHeld = s.resetHeld := rfl
@[simp] theorem State.enterPaging_rfReady (s : State) (i : Fin 48) : (s.enterPaging i).rfReady = s.rfReady := rfl
@[simp] theorem State.enterPaging_response (s : State) (i : Fin 48) : (s.enterPaging i).response = s.response := rfl
@[simp] theorem State.enterPaging_pending (s : State) (i : Fin 48) : (s.enterPaging i).pending = s.pending := rfl

/-! `passOver` -/

@[simp] theorem State.passOver_air (s : State) (i : Fin 48) : (s.passOver i).air = s.air := rfl
@[simp] theorem State.passOver_cells (s : State) (i : Fin 48) : (s.passOver i).cells = s.cells := rfl
@[simp] theorem State.passOver_pool (s : State) (i : Fin 48) : (s.passOver i).pool = s.pool := rfl
@[simp] theorem State.passOver_inbound (s : State) (i : Fin 48) : (s.passOver i).inbound = s.inbound := rfl
@[simp] theorem State.passOver_ports (s : State) (i : Fin 48) : (s.passOver i).ports = s.ports := rfl
@[simp] theorem State.passOver_sweep (s : State) (i : Fin 48) : (s.passOver i).sweep = s.sweep := rfl
@[simp] theorem State.passOver_host (s : State) (i : Fin 48) : (s.passOver i).host = s.host := rfl
@[simp] theorem State.passOver_conditions (s : State) (i : Fin 48) : (s.passOver i).conditions = s.conditions := rfl
@[simp] theorem State.passOver_params (s : State) (i : Fin 48) : (s.passOver i).params = s.params := rfl
@[simp] theorem State.passOver_clock (s : State) (i : Fin 48) : (s.passOver i).clock = s.clock := rfl
@[simp] theorem State.passOver_resetPending (s : State) (i : Fin 48) : (s.passOver i).resetPending = s.resetPending := rfl
@[simp] theorem State.passOver_resetHeld (s : State) (i : Fin 48) : (s.passOver i).resetHeld = s.resetHeld := rfl
@[simp] theorem State.passOver_rfReady (s : State) (i : Fin 48) : (s.passOver i).rfReady = s.rfReady := rfl
@[simp] theorem State.passOver_response (s : State) (i : Fin 48) : (s.passOver i).response = s.response := rfl
@[simp] theorem State.passOver_pending (s : State) (i : Fin 48) : (s.passOver i).pending = s.pending := rfl

/-! `holdWork` -/

@[simp] theorem State.holdWork_air (s : State) (w : HeldWork) : (s.holdWork w).air = s.air := rfl
@[simp] theorem State.holdWork_cells (s : State) (w : HeldWork) : (s.holdWork w).cells = s.cells := rfl
@[simp] theorem State.holdWork_pool (s : State) (w : HeldWork) : (s.holdWork w).pool = s.pool := rfl
@[simp] theorem State.holdWork_inbound (s : State) (w : HeldWork) : (s.holdWork w).inbound = s.inbound := rfl
@[simp] theorem State.holdWork_ports (s : State) (w : HeldWork) : (s.holdWork w).ports = s.ports := rfl
@[simp] theorem State.holdWork_sweep (s : State) (w : HeldWork) : (s.holdWork w).sweep = s.sweep := rfl
@[simp] theorem State.holdWork_host (s : State) (w : HeldWork) : (s.holdWork w).host = s.host := rfl
@[simp] theorem State.holdWork_conditions (s : State) (w : HeldWork) : (s.holdWork w).conditions = s.conditions := rfl
@[simp] theorem State.holdWork_params (s : State) (w : HeldWork) : (s.holdWork w).params = s.params := rfl
@[simp] theorem State.holdWork_clock (s : State) (w : HeldWork) : (s.holdWork w).clock = s.clock := rfl
@[simp] theorem State.holdWork_resetPending (s : State) (w : HeldWork) : (s.holdWork w).resetPending = s.resetPending := rfl
@[simp] theorem State.holdWork_resetHeld (s : State) (w : HeldWork) : (s.holdWork w).resetHeld = s.resetHeld := rfl
@[simp] theorem State.holdWork_rfReady (s : State) (w : HeldWork) : (s.holdWork w).rfReady = s.rfReady := rfl
@[simp] theorem State.holdWork_response (s : State) (w : HeldWork) : (s.holdWork w).response = s.response := rfl
@[simp] theorem State.holdWork_pending (s : State) (w : HeldWork) : (s.holdWork w).pending = s.pending := rfl

/-! `withdrawGrant` -/

@[simp] theorem State.withdrawGrant_roster (s : State) (i : Fin 48) : (s.withdrawGrant i).roster = s.roster := rfl
@[simp] theorem State.withdrawGrant_cells (s : State) (i : Fin 48) : (s.withdrawGrant i).cells = s.cells := rfl
@[simp] theorem State.withdrawGrant_pool (s : State) (i : Fin 48) : (s.withdrawGrant i).pool = s.pool := rfl
@[simp] theorem State.withdrawGrant_inbound (s : State) (i : Fin 48) : (s.withdrawGrant i).inbound = s.inbound := rfl
@[simp] theorem State.withdrawGrant_ports (s : State) (i : Fin 48) : (s.withdrawGrant i).ports = s.ports := rfl
@[simp] theorem State.withdrawGrant_sweep (s : State) (i : Fin 48) : (s.withdrawGrant i).sweep = s.sweep := rfl
@[simp] theorem State.withdrawGrant_host (s : State) (i : Fin 48) : (s.withdrawGrant i).host = s.host := rfl
@[simp] theorem State.withdrawGrant_conditions (s : State) (i : Fin 48) : (s.withdrawGrant i).conditions = s.conditions := rfl
@[simp] theorem State.withdrawGrant_params (s : State) (i : Fin 48) : (s.withdrawGrant i).params = s.params := rfl
@[simp] theorem State.withdrawGrant_clock (s : State) (i : Fin 48) : (s.withdrawGrant i).clock = s.clock := rfl
@[simp] theorem State.withdrawGrant_resetPending (s : State) (i : Fin 48) : (s.withdrawGrant i).resetPending = s.resetPending := rfl
@[simp] theorem State.withdrawGrant_resetHeld (s : State) (i : Fin 48) : (s.withdrawGrant i).resetHeld = s.resetHeld := rfl
@[simp] theorem State.withdrawGrant_rfReady (s : State) (i : Fin 48) : (s.withdrawGrant i).rfReady = s.rfReady := rfl
@[simp] theorem State.withdrawGrant_response (s : State) (i : Fin 48) : (s.withdrawGrant i).response = s.response := rfl
@[simp] theorem State.withdrawGrant_pending (s : State) (i : Fin 48) : (s.withdrawGrant i).pending = s.pending := rfl

/-! `setClass` -/

@[simp] theorem State.setClass_air (s : State) (c : ConditionClass) (f : ClassFlags) : (s.setClass c f).air = s.air := rfl
@[simp] theorem State.setClass_roster (s : State) (c : ConditionClass) (f : ClassFlags) : (s.setClass c f).roster = s.roster := rfl
@[simp] theorem State.setClass_cells (s : State) (c : ConditionClass) (f : ClassFlags) : (s.setClass c f).cells = s.cells := rfl
@[simp] theorem State.setClass_pool (s : State) (c : ConditionClass) (f : ClassFlags) : (s.setClass c f).pool = s.pool := rfl
@[simp] theorem State.setClass_inbound (s : State) (c : ConditionClass) (f : ClassFlags) : (s.setClass c f).inbound = s.inbound := rfl
@[simp] theorem State.setClass_ports (s : State) (c : ConditionClass) (f : ClassFlags) : (s.setClass c f).ports = s.ports := rfl
@[simp] theorem State.setClass_sweep (s : State) (c : ConditionClass) (f : ClassFlags) : (s.setClass c f).sweep = s.sweep := rfl
@[simp] theorem State.setClass_host (s : State) (c : ConditionClass) (f : ClassFlags) : (s.setClass c f).host = s.host := rfl
@[simp] theorem State.setClass_params (s : State) (c : ConditionClass) (f : ClassFlags) : (s.setClass c f).params = s.params := rfl
@[simp] theorem State.setClass_clock (s : State) (c : ConditionClass) (f : ClassFlags) : (s.setClass c f).clock = s.clock := rfl
@[simp] theorem State.setClass_resetPending (s : State) (c : ConditionClass) (f : ClassFlags) : (s.setClass c f).resetPending = s.resetPending := rfl
@[simp] theorem State.setClass_resetHeld (s : State) (c : ConditionClass) (f : ClassFlags) : (s.setClass c f).resetHeld = s.resetHeld := rfl
@[simp] theorem State.setClass_rfReady (s : State) (c : ConditionClass) (f : ClassFlags) : (s.setClass c f).rfReady = s.rfReady := rfl
@[simp] theorem State.setClass_response (s : State) (c : ConditionClass) (f : ClassFlags) : (s.setClass c f).response = s.response := rfl
@[simp] theorem State.setClass_pending (s : State) (c : ConditionClass) (f : ClassFlags) : (s.setClass c f).pending = s.pending := rfl

/-! `reportCause` -/

@[simp] theorem State.reportCause_air (s : State) (c : ConditionClass) (cause : Bool) : (s.reportCause c cause).air = s.air := rfl
@[simp] theorem State.reportCause_roster (s : State) (c : ConditionClass) (cause : Bool) : (s.reportCause c cause).roster = s.roster := rfl
@[simp] theorem State.reportCause_cells (s : State) (c : ConditionClass) (cause : Bool) : (s.reportCause c cause).cells = s.cells := rfl
@[simp] theorem State.reportCause_pool (s : State) (c : ConditionClass) (cause : Bool) : (s.reportCause c cause).pool = s.pool := rfl
@[simp] theorem State.reportCause_inbound (s : State) (c : ConditionClass) (cause : Bool) : (s.reportCause c cause).inbound = s.inbound := rfl
@[simp] theorem State.reportCause_ports (s : State) (c : ConditionClass) (cause : Bool) : (s.reportCause c cause).ports = s.ports := rfl
@[simp] theorem State.reportCause_sweep (s : State) (c : ConditionClass) (cause : Bool) : (s.reportCause c cause).sweep = s.sweep := rfl
@[simp] theorem State.reportCause_host (s : State) (c : ConditionClass) (cause : Bool) : (s.reportCause c cause).host = s.host := rfl
@[simp] theorem State.reportCause_params (s : State) (c : ConditionClass) (cause : Bool) : (s.reportCause c cause).params = s.params := rfl
@[simp] theorem State.reportCause_clock (s : State) (c : ConditionClass) (cause : Bool) : (s.reportCause c cause).clock = s.clock := rfl
@[simp] theorem State.reportCause_resetPending (s : State) (c : ConditionClass) (cause : Bool) : (s.reportCause c cause).resetPending = s.resetPending := rfl
@[simp] theorem State.reportCause_resetHeld (s : State) (c : ConditionClass) (cause : Bool) : (s.reportCause c cause).resetHeld = s.resetHeld := rfl
@[simp] theorem State.reportCause_rfReady (s : State) (c : ConditionClass) (cause : Bool) : (s.reportCause c cause).rfReady = s.rfReady := rfl
@[simp] theorem State.reportCause_response (s : State) (c : ConditionClass) (cause : Bool) : (s.reportCause c cause).response = s.response := rfl
@[simp] theorem State.reportCause_pending (s : State) (c : ConditionClass) (cause : Bool) : (s.reportCause c cause).pending = s.pending := rfl

/-! `forceClass` -/

@[simp] theorem State.forceClass_air (s : State) (c : ConditionClass) (forced : Bool) : (s.forceClass c forced).air = s.air := rfl
@[simp] theorem State.forceClass_roster (s : State) (c : ConditionClass) (forced : Bool) : (s.forceClass c forced).roster = s.roster := rfl
@[simp] theorem State.forceClass_cells (s : State) (c : ConditionClass) (forced : Bool) : (s.forceClass c forced).cells = s.cells := rfl
@[simp] theorem State.forceClass_pool (s : State) (c : ConditionClass) (forced : Bool) : (s.forceClass c forced).pool = s.pool := rfl
@[simp] theorem State.forceClass_inbound (s : State) (c : ConditionClass) (forced : Bool) : (s.forceClass c forced).inbound = s.inbound := rfl
@[simp] theorem State.forceClass_ports (s : State) (c : ConditionClass) (forced : Bool) : (s.forceClass c forced).ports = s.ports := rfl
@[simp] theorem State.forceClass_sweep (s : State) (c : ConditionClass) (forced : Bool) : (s.forceClass c forced).sweep = s.sweep := rfl
@[simp] theorem State.forceClass_host (s : State) (c : ConditionClass) (forced : Bool) : (s.forceClass c forced).host = s.host := rfl
@[simp] theorem State.forceClass_params (s : State) (c : ConditionClass) (forced : Bool) : (s.forceClass c forced).params = s.params := rfl
@[simp] theorem State.forceClass_clock (s : State) (c : ConditionClass) (forced : Bool) : (s.forceClass c forced).clock = s.clock := rfl
@[simp] theorem State.forceClass_resetPending (s : State) (c : ConditionClass) (forced : Bool) : (s.forceClass c forced).resetPending = s.resetPending := rfl
@[simp] theorem State.forceClass_resetHeld (s : State) (c : ConditionClass) (forced : Bool) : (s.forceClass c forced).resetHeld = s.resetHeld := rfl
@[simp] theorem State.forceClass_rfReady (s : State) (c : ConditionClass) (forced : Bool) : (s.forceClass c forced).rfReady = s.rfReady := rfl
@[simp] theorem State.forceClass_response (s : State) (c : ConditionClass) (forced : Bool) : (s.forceClass c forced).response = s.response := rfl
@[simp] theorem State.forceClass_pending (s : State) (c : ConditionClass) (forced : Bool) : (s.forceClass c forced).pending = s.pending := rfl

/-! `giveCell` -/

@[simp] theorem State.giveCell_air (s : State) (slot phase : Nat) (h : CellHolding) : (s.giveCell slot phase h).air = s.air := rfl
@[simp] theorem State.giveCell_roster (s : State) (slot phase : Nat) (h : CellHolding) : (s.giveCell slot phase h).roster = s.roster := rfl
@[simp] theorem State.giveCell_pool (s : State) (slot phase : Nat) (h : CellHolding) : (s.giveCell slot phase h).pool = s.pool := rfl
@[simp] theorem State.giveCell_inbound (s : State) (slot phase : Nat) (h : CellHolding) : (s.giveCell slot phase h).inbound = s.inbound := rfl
@[simp] theorem State.giveCell_ports (s : State) (slot phase : Nat) (h : CellHolding) : (s.giveCell slot phase h).ports = s.ports := rfl
@[simp] theorem State.giveCell_sweep (s : State) (slot phase : Nat) (h : CellHolding) : (s.giveCell slot phase h).sweep = s.sweep := rfl
@[simp] theorem State.giveCell_host (s : State) (slot phase : Nat) (h : CellHolding) : (s.giveCell slot phase h).host = s.host := rfl
@[simp] theorem State.giveCell_conditions (s : State) (slot phase : Nat) (h : CellHolding) : (s.giveCell slot phase h).conditions = s.conditions := rfl
@[simp] theorem State.giveCell_params (s : State) (slot phase : Nat) (h : CellHolding) : (s.giveCell slot phase h).params = s.params := rfl
@[simp] theorem State.giveCell_clock (s : State) (slot phase : Nat) (h : CellHolding) : (s.giveCell slot phase h).clock = s.clock := rfl
@[simp] theorem State.giveCell_resetPending (s : State) (slot phase : Nat) (h : CellHolding) : (s.giveCell slot phase h).resetPending = s.resetPending := rfl
@[simp] theorem State.giveCell_resetHeld (s : State) (slot phase : Nat) (h : CellHolding) : (s.giveCell slot phase h).resetHeld = s.resetHeld := rfl
@[simp] theorem State.giveCell_rfReady (s : State) (slot phase : Nat) (h : CellHolding) : (s.giveCell slot phase h).rfReady = s.rfReady := rfl
@[simp] theorem State.giveCell_response (s : State) (slot phase : Nat) (h : CellHolding) : (s.giveCell slot phase h).response = s.response := rfl
@[simp] theorem State.giveCell_pending (s : State) (slot phase : Nat) (h : CellHolding) : (s.giveCell slot phase h).pending = s.pending := rfl

/-! `countRefused` -/

@[simp] theorem State.countRefused_air (s : State) : (s.countRefused).air = s.air := rfl
@[simp] theorem State.countRefused_roster (s : State) : (s.countRefused).roster = s.roster := rfl
@[simp] theorem State.countRefused_cells (s : State) : (s.countRefused).cells = s.cells := rfl
@[simp] theorem State.countRefused_pool (s : State) : (s.countRefused).pool = s.pool := rfl
@[simp] theorem State.countRefused_inbound (s : State) : (s.countRefused).inbound = s.inbound := rfl
@[simp] theorem State.countRefused_ports (s : State) : (s.countRefused).ports = s.ports := rfl
@[simp] theorem State.countRefused_sweep (s : State) : (s.countRefused).sweep = s.sweep := rfl
@[simp] theorem State.countRefused_conditions (s : State) : (s.countRefused).conditions = s.conditions := rfl
@[simp] theorem State.countRefused_params (s : State) : (s.countRefused).params = s.params := rfl
@[simp] theorem State.countRefused_clock (s : State) : (s.countRefused).clock = s.clock := rfl
@[simp] theorem State.countRefused_resetPending (s : State) : (s.countRefused).resetPending = s.resetPending := rfl
@[simp] theorem State.countRefused_resetHeld (s : State) : (s.countRefused).resetHeld = s.resetHeld := rfl
@[simp] theorem State.countRefused_rfReady (s : State) : (s.countRefused).rfReady = s.rfReady := rfl
@[simp] theorem State.countRefused_response (s : State) : (s.countRefused).response = s.response := rfl
@[simp] theorem State.countRefused_pending (s : State) : (s.countRefused).pending = s.pending := rfl

/-! `countHeld` -/

@[simp] theorem State.countHeld_air (s : State) : (s.countHeld).air = s.air := rfl
@[simp] theorem State.countHeld_roster (s : State) : (s.countHeld).roster = s.roster := rfl
@[simp] theorem State.countHeld_cells (s : State) : (s.countHeld).cells = s.cells := rfl
@[simp] theorem State.countHeld_pool (s : State) : (s.countHeld).pool = s.pool := rfl
@[simp] theorem State.countHeld_inbound (s : State) : (s.countHeld).inbound = s.inbound := rfl
@[simp] theorem State.countHeld_ports (s : State) : (s.countHeld).ports = s.ports := rfl
@[simp] theorem State.countHeld_sweep (s : State) : (s.countHeld).sweep = s.sweep := rfl
@[simp] theorem State.countHeld_conditions (s : State) : (s.countHeld).conditions = s.conditions := rfl
@[simp] theorem State.countHeld_params (s : State) : (s.countHeld).params = s.params := rfl
@[simp] theorem State.countHeld_clock (s : State) : (s.countHeld).clock = s.clock := rfl
@[simp] theorem State.countHeld_resetPending (s : State) : (s.countHeld).resetPending = s.resetPending := rfl
@[simp] theorem State.countHeld_resetHeld (s : State) : (s.countHeld).resetHeld = s.resetHeld := rfl
@[simp] theorem State.countHeld_rfReady (s : State) : (s.countHeld).rfReady = s.rfReady := rfl
@[simp] theorem State.countHeld_response (s : State) : (s.countHeld).response = s.response := rfl
@[simp] theorem State.countHeld_pending (s : State) : (s.countHeld).pending = s.pending := rfl

/-! `countGarbled` -/

@[simp] theorem State.countGarbled_air (s : State) : (s.countGarbled).air = s.air := rfl
@[simp] theorem State.countGarbled_roster (s : State) : (s.countGarbled).roster = s.roster := rfl
@[simp] theorem State.countGarbled_cells (s : State) : (s.countGarbled).cells = s.cells := rfl
@[simp] theorem State.countGarbled_pool (s : State) : (s.countGarbled).pool = s.pool := rfl
@[simp] theorem State.countGarbled_inbound (s : State) : (s.countGarbled).inbound = s.inbound := rfl
@[simp] theorem State.countGarbled_ports (s : State) : (s.countGarbled).ports = s.ports := rfl
@[simp] theorem State.countGarbled_sweep (s : State) : (s.countGarbled).sweep = s.sweep := rfl
@[simp] theorem State.countGarbled_conditions (s : State) : (s.countGarbled).conditions = s.conditions := rfl
@[simp] theorem State.countGarbled_params (s : State) : (s.countGarbled).params = s.params := rfl
@[simp] theorem State.countGarbled_clock (s : State) : (s.countGarbled).clock = s.clock := rfl
@[simp] theorem State.countGarbled_resetPending (s : State) : (s.countGarbled).resetPending = s.resetPending := rfl
@[simp] theorem State.countGarbled_resetHeld (s : State) : (s.countGarbled).resetHeld = s.resetHeld := rfl
@[simp] theorem State.countGarbled_rfReady (s : State) : (s.countGarbled).rfReady = s.rfReady := rfl
@[simp] theorem State.countGarbled_response (s : State) : (s.countGarbled).response = s.response := rfl
@[simp] theorem State.countGarbled_pending (s : State) : (s.countGarbled).pending = s.pending := rfl

/-! `endSweep` -/

@[simp] theorem State.endSweep_air (s : State) (o : SweepOutcome) : (s.endSweep o).air = s.air := rfl
@[simp] theorem State.endSweep_roster (s : State) (o : SweepOutcome) : (s.endSweep o).roster = s.roster := rfl
@[simp] theorem State.endSweep_cells (s : State) (o : SweepOutcome) : (s.endSweep o).cells = s.cells := rfl
@[simp] theorem State.endSweep_pool (s : State) (o : SweepOutcome) : (s.endSweep o).pool = s.pool := rfl
@[simp] theorem State.endSweep_inbound (s : State) (o : SweepOutcome) : (s.endSweep o).inbound = s.inbound := rfl
@[simp] theorem State.endSweep_ports (s : State) (o : SweepOutcome) : (s.endSweep o).ports = s.ports := rfl
@[simp] theorem State.endSweep_conditions (s : State) (o : SweepOutcome) : (s.endSweep o).conditions = s.conditions := rfl
@[simp] theorem State.endSweep_params (s : State) (o : SweepOutcome) : (s.endSweep o).params = s.params := rfl
@[simp] theorem State.endSweep_clock (s : State) (o : SweepOutcome) : (s.endSweep o).clock = s.clock := rfl
@[simp] theorem State.endSweep_resetPending (s : State) (o : SweepOutcome) : (s.endSweep o).resetPending = s.resetPending := rfl
@[simp] theorem State.endSweep_resetHeld (s : State) (o : SweepOutcome) : (s.endSweep o).resetHeld = s.resetHeld := rfl
@[simp] theorem State.endSweep_rfReady (s : State) (o : SweepOutcome) : (s.endSweep o).rfReady = s.rfReady := rfl
@[simp] theorem State.endSweep_response (s : State) (o : SweepOutcome) : (s.endSweep o).response = s.response := rfl
@[simp] theorem State.endSweep_pending (s : State) (o : SweepOutcome) : (s.endSweep o).pending = s.pending := rfl

/-! `attachSummon` -/

@[simp] theorem State.attachSummon_air (s : State) (i : Fin 48) : (s.attachSummon i).air = s.air := rfl
@[simp] theorem State.attachSummon_cells (s : State) (i : Fin 48) : (s.attachSummon i).cells = s.cells := rfl
@[simp] theorem State.attachSummon_pool (s : State) (i : Fin 48) : (s.attachSummon i).pool = s.pool := rfl
@[simp] theorem State.attachSummon_inbound (s : State) (i : Fin 48) : (s.attachSummon i).inbound = s.inbound := rfl
@[simp] theorem State.attachSummon_ports (s : State) (i : Fin 48) : (s.attachSummon i).ports = s.ports := rfl
@[simp] theorem State.attachSummon_sweep (s : State) (i : Fin 48) : (s.attachSummon i).sweep = s.sweep := rfl
@[simp] theorem State.attachSummon_host (s : State) (i : Fin 48) : (s.attachSummon i).host = s.host := rfl
@[simp] theorem State.attachSummon_conditions (s : State) (i : Fin 48) : (s.attachSummon i).conditions = s.conditions := rfl
@[simp] theorem State.attachSummon_params (s : State) (i : Fin 48) : (s.attachSummon i).params = s.params := rfl
@[simp] theorem State.attachSummon_clock (s : State) (i : Fin 48) : (s.attachSummon i).clock = s.clock := rfl
@[simp] theorem State.attachSummon_resetPending (s : State) (i : Fin 48) : (s.attachSummon i).resetPending = s.resetPending := rfl
@[simp] theorem State.attachSummon_resetHeld (s : State) (i : Fin 48) : (s.attachSummon i).resetHeld = s.resetHeld := rfl
@[simp] theorem State.attachSummon_rfReady (s : State) (i : Fin 48) : (s.attachSummon i).rfReady = s.rfReady := rfl
@[simp] theorem State.attachSummon_response (s : State) (i : Fin 48) : (s.attachSummon i).response = s.response := rfl
@[simp] theorem State.attachSummon_pending (s : State) (i : Fin 48) : (s.attachSummon i).pending = s.pending := rfl

/-! `setBuffer` -/

@[simp] theorem State.setBuffer_air (s : State) (b : Fin 64) (m : Option Message) : (s.setBuffer b m).air = s.air := rfl
@[simp] theorem State.setBuffer_roster (s : State) (b : Fin 64) (m : Option Message) : (s.setBuffer b m).roster = s.roster := rfl
@[simp] theorem State.setBuffer_cells (s : State) (b : Fin 64) (m : Option Message) : (s.setBuffer b m).cells = s.cells := rfl
@[simp] theorem State.setBuffer_inbound (s : State) (b : Fin 64) (m : Option Message) : (s.setBuffer b m).inbound = s.inbound := rfl
@[simp] theorem State.setBuffer_ports (s : State) (b : Fin 64) (m : Option Message) : (s.setBuffer b m).ports = s.ports := rfl
@[simp] theorem State.setBuffer_sweep (s : State) (b : Fin 64) (m : Option Message) : (s.setBuffer b m).sweep = s.sweep := rfl
@[simp] theorem State.setBuffer_host (s : State) (b : Fin 64) (m : Option Message) : (s.setBuffer b m).host = s.host := rfl
@[simp] theorem State.setBuffer_params (s : State) (b : Fin 64) (m : Option Message) : (s.setBuffer b m).params = s.params := rfl
@[simp] theorem State.setBuffer_clock (s : State) (b : Fin 64) (m : Option Message) : (s.setBuffer b m).clock = s.clock := rfl
@[simp] theorem State.setBuffer_resetPending (s : State) (b : Fin 64) (m : Option Message) : (s.setBuffer b m).resetPending = s.resetPending := rfl
@[simp] theorem State.setBuffer_resetHeld (s : State) (b : Fin 64) (m : Option Message) : (s.setBuffer b m).resetHeld = s.resetHeld := rfl
@[simp] theorem State.setBuffer_rfReady (s : State) (b : Fin 64) (m : Option Message) : (s.setBuffer b m).rfReady = s.rfReady := rfl
@[simp] theorem State.setBuffer_response (s : State) (b : Fin 64) (m : Option Message) : (s.setBuffer b m).response = s.response := rfl
@[simp] theorem State.setBuffer_pending (s : State) (b : Fin 64) (m : Option Message) : (s.setBuffer b m).pending = s.pending := rfl

/-! `giveTag` -/

@[simp] theorem State.giveTag_air (s : State) (i : Fin 48) : (s.giveTag i).air = s.air := rfl
@[simp] theorem State.giveTag_cells (s : State) (i : Fin 48) : (s.giveTag i).cells = s.cells := rfl
@[simp] theorem State.giveTag_pool (s : State) (i : Fin 48) : (s.giveTag i).pool = s.pool := rfl
@[simp] theorem State.giveTag_inbound (s : State) (i : Fin 48) : (s.giveTag i).inbound = s.inbound := rfl
@[simp] theorem State.giveTag_ports (s : State) (i : Fin 48) : (s.giveTag i).ports = s.ports := rfl
@[simp] theorem State.giveTag_sweep (s : State) (i : Fin 48) : (s.giveTag i).sweep = s.sweep := rfl
@[simp] theorem State.giveTag_host (s : State) (i : Fin 48) : (s.giveTag i).host = s.host := rfl
@[simp] theorem State.giveTag_conditions (s : State) (i : Fin 48) : (s.giveTag i).conditions = s.conditions := rfl
@[simp] theorem State.giveTag_params (s : State) (i : Fin 48) : (s.giveTag i).params = s.params := rfl
@[simp] theorem State.giveTag_clock (s : State) (i : Fin 48) : (s.giveTag i).clock = s.clock := rfl
@[simp] theorem State.giveTag_resetPending (s : State) (i : Fin 48) : (s.giveTag i).resetPending = s.resetPending := rfl
@[simp] theorem State.giveTag_resetHeld (s : State) (i : Fin 48) : (s.giveTag i).resetHeld = s.resetHeld := rfl
@[simp] theorem State.giveTag_rfReady (s : State) (i : Fin 48) : (s.giveTag i).rfReady = s.rfReady := rfl
@[simp] theorem State.giveTag_response (s : State) (i : Fin 48) : (s.giveTag i).response = s.response := rfl
@[simp] theorem State.giveTag_pending (s : State) (i : Fin 48) : (s.giveTag i).pending = s.pending := rfl

/-! `reportPool` -/

@[simp] theorem State.reportPool_air (s : State) : (s.reportPool).air = s.air := rfl
@[simp] theorem State.reportPool_roster (s : State) : (s.reportPool).roster = s.roster := rfl
@[simp] theorem State.reportPool_cells (s : State) : (s.reportPool).cells = s.cells := rfl
@[simp] theorem State.reportPool_pool (s : State) : (s.reportPool).pool = s.pool := rfl
@[simp] theorem State.reportPool_inbound (s : State) : (s.reportPool).inbound = s.inbound := rfl
@[simp] theorem State.reportPool_ports (s : State) : (s.reportPool).ports = s.ports := rfl
@[simp] theorem State.reportPool_sweep (s : State) : (s.reportPool).sweep = s.sweep := rfl
@[simp] theorem State.reportPool_host (s : State) : (s.reportPool).host = s.host := rfl
@[simp] theorem State.reportPool_params (s : State) : (s.reportPool).params = s.params := rfl
@[simp] theorem State.reportPool_clock (s : State) : (s.reportPool).clock = s.clock := rfl
@[simp] theorem State.reportPool_resetPending (s : State) : (s.reportPool).resetPending = s.resetPending := rfl
@[simp] theorem State.reportPool_resetHeld (s : State) : (s.reportPool).resetHeld = s.resetHeld := rfl
@[simp] theorem State.reportPool_rfReady (s : State) : (s.reportPool).rfReady = s.rfReady := rfl
@[simp] theorem State.reportPool_response (s : State) : (s.reportPool).response = s.response := rfl
@[simp] theorem State.reportPool_pending (s : State) : (s.reportPool).pending = s.pending := rfl

/-! `reportAirCheck` -/

@[simp] theorem State.reportAirCheck_air (s : State) : (s.reportAirCheck).air = s.air := rfl
@[simp] theorem State.reportAirCheck_roster (s : State) : (s.reportAirCheck).roster = s.roster := rfl
@[simp] theorem State.reportAirCheck_cells (s : State) : (s.reportAirCheck).cells = s.cells := rfl
@[simp] theorem State.reportAirCheck_pool (s : State) : (s.reportAirCheck).pool = s.pool := rfl
@[simp] theorem State.reportAirCheck_inbound (s : State) : (s.reportAirCheck).inbound = s.inbound := rfl
@[simp] theorem State.reportAirCheck_ports (s : State) : (s.reportAirCheck).ports = s.ports := rfl
@[simp] theorem State.reportAirCheck_sweep (s : State) : (s.reportAirCheck).sweep = s.sweep := rfl
@[simp] theorem State.reportAirCheck_host (s : State) : (s.reportAirCheck).host = s.host := rfl
@[simp] theorem State.reportAirCheck_params (s : State) : (s.reportAirCheck).params = s.params := rfl
@[simp] theorem State.reportAirCheck_clock (s : State) : (s.reportAirCheck).clock = s.clock := rfl
@[simp] theorem State.reportAirCheck_resetPending (s : State) : (s.reportAirCheck).resetPending = s.resetPending := rfl
@[simp] theorem State.reportAirCheck_resetHeld (s : State) : (s.reportAirCheck).resetHeld = s.resetHeld := rfl
@[simp] theorem State.reportAirCheck_rfReady (s : State) : (s.reportAirCheck).rfReady = s.rfReady := rfl
@[simp] theorem State.reportAirCheck_response (s : State) : (s.reportAirCheck).response = s.response := rfl
@[simp] theorem State.reportAirCheck_pending (s : State) : (s.reportAirCheck).pending = s.pending := rfl

/-! `reportAirDark` -/

@[simp] theorem State.reportAirDark_air (s : State) : (s.reportAirDark).air = s.air := rfl
@[simp] theorem State.reportAirDark_roster (s : State) : (s.reportAirDark).roster = s.roster := rfl
@[simp] theorem State.reportAirDark_cells (s : State) : (s.reportAirDark).cells = s.cells := rfl
@[simp] theorem State.reportAirDark_pool (s : State) : (s.reportAirDark).pool = s.pool := rfl
@[simp] theorem State.reportAirDark_inbound (s : State) : (s.reportAirDark).inbound = s.inbound := rfl
@[simp] theorem State.reportAirDark_ports (s : State) : (s.reportAirDark).ports = s.ports := rfl
@[simp] theorem State.reportAirDark_sweep (s : State) : (s.reportAirDark).sweep = s.sweep := rfl
@[simp] theorem State.reportAirDark_host (s : State) : (s.reportAirDark).host = s.host := rfl
@[simp] theorem State.reportAirDark_params (s : State) : (s.reportAirDark).params = s.params := rfl
@[simp] theorem State.reportAirDark_clock (s : State) : (s.reportAirDark).clock = s.clock := rfl
@[simp] theorem State.reportAirDark_resetPending (s : State) : (s.reportAirDark).resetPending = s.resetPending := rfl
@[simp] theorem State.reportAirDark_resetHeld (s : State) : (s.reportAirDark).resetHeld = s.resetHeld := rfl
@[simp] theorem State.reportAirDark_rfReady (s : State) : (s.reportAirDark).rfReady = s.rfReady := rfl
@[simp] theorem State.reportAirDark_response (s : State) : (s.reportAirDark).response = s.response := rfl
@[simp] theorem State.reportAirDark_pending (s : State) : (s.reportAirDark).pending = s.pending := rfl

/-! `reportLinkDown` -/

@[simp] theorem State.reportLinkDown_air (s : State) : (s.reportLinkDown).air = s.air := rfl
@[simp] theorem State.reportLinkDown_roster (s : State) : (s.reportLinkDown).roster = s.roster := rfl
@[simp] theorem State.reportLinkDown_cells (s : State) : (s.reportLinkDown).cells = s.cells := rfl
@[simp] theorem State.reportLinkDown_pool (s : State) : (s.reportLinkDown).pool = s.pool := rfl
@[simp] theorem State.reportLinkDown_inbound (s : State) : (s.reportLinkDown).inbound = s.inbound := rfl
@[simp] theorem State.reportLinkDown_ports (s : State) : (s.reportLinkDown).ports = s.ports := rfl
@[simp] theorem State.reportLinkDown_sweep (s : State) : (s.reportLinkDown).sweep = s.sweep := rfl
@[simp] theorem State.reportLinkDown_host (s : State) : (s.reportLinkDown).host = s.host := rfl
@[simp] theorem State.reportLinkDown_params (s : State) : (s.reportLinkDown).params = s.params := rfl
@[simp] theorem State.reportLinkDown_clock (s : State) : (s.reportLinkDown).clock = s.clock := rfl
@[simp] theorem State.reportLinkDown_resetPending (s : State) : (s.reportLinkDown).resetPending = s.resetPending := rfl
@[simp] theorem State.reportLinkDown_resetHeld (s : State) : (s.reportLinkDown).resetHeld = s.resetHeld := rfl
@[simp] theorem State.reportLinkDown_rfReady (s : State) : (s.reportLinkDown).rfReady = s.rfReady := rfl
@[simp] theorem State.reportLinkDown_response (s : State) : (s.reportLinkDown).response = s.response := rfl
@[simp] theorem State.reportLinkDown_pending (s : State) : (s.reportLinkDown).pending = s.pending := rfl

/-! `reportIdentity` -/

@[simp] theorem State.reportIdentity_air (s : State) : (s.reportIdentity).air = s.air := rfl
@[simp] theorem State.reportIdentity_roster (s : State) : (s.reportIdentity).roster = s.roster := rfl
@[simp] theorem State.reportIdentity_cells (s : State) : (s.reportIdentity).cells = s.cells := rfl
@[simp] theorem State.reportIdentity_pool (s : State) : (s.reportIdentity).pool = s.pool := rfl
@[simp] theorem State.reportIdentity_inbound (s : State) : (s.reportIdentity).inbound = s.inbound := rfl
@[simp] theorem State.reportIdentity_ports (s : State) : (s.reportIdentity).ports = s.ports := rfl
@[simp] theorem State.reportIdentity_sweep (s : State) : (s.reportIdentity).sweep = s.sweep := rfl
@[simp] theorem State.reportIdentity_host (s : State) : (s.reportIdentity).host = s.host := rfl
@[simp] theorem State.reportIdentity_params (s : State) : (s.reportIdentity).params = s.params := rfl
@[simp] theorem State.reportIdentity_clock (s : State) : (s.reportIdentity).clock = s.clock := rfl
@[simp] theorem State.reportIdentity_resetPending (s : State) : (s.reportIdentity).resetPending = s.resetPending := rfl
@[simp] theorem State.reportIdentity_resetHeld (s : State) : (s.reportIdentity).resetHeld = s.resetHeld := rfl
@[simp] theorem State.reportIdentity_rfReady (s : State) : (s.reportIdentity).rfReady = s.rfReady := rfl
@[simp] theorem State.reportIdentity_response (s : State) : (s.reportIdentity).response = s.response := rfl
@[simp] theorem State.reportIdentity_pending (s : State) : (s.reportIdentity).pending = s.pending := rfl

/-! `reportPortCheck` -/

@[simp] theorem State.reportPortCheck_air (s : State) : (s.reportPortCheck).air = s.air := rfl
@[simp] theorem State.reportPortCheck_roster (s : State) : (s.reportPortCheck).roster = s.roster := rfl
@[simp] theorem State.reportPortCheck_cells (s : State) : (s.reportPortCheck).cells = s.cells := rfl
@[simp] theorem State.reportPortCheck_pool (s : State) : (s.reportPortCheck).pool = s.pool := rfl
@[simp] theorem State.reportPortCheck_inbound (s : State) : (s.reportPortCheck).inbound = s.inbound := rfl
@[simp] theorem State.reportPortCheck_ports (s : State) : (s.reportPortCheck).ports = s.ports := rfl
@[simp] theorem State.reportPortCheck_sweep (s : State) : (s.reportPortCheck).sweep = s.sweep := rfl
@[simp] theorem State.reportPortCheck_host (s : State) : (s.reportPortCheck).host = s.host := rfl
@[simp] theorem State.reportPortCheck_params (s : State) : (s.reportPortCheck).params = s.params := rfl
@[simp] theorem State.reportPortCheck_clock (s : State) : (s.reportPortCheck).clock = s.clock := rfl
@[simp] theorem State.reportPortCheck_resetPending (s : State) : (s.reportPortCheck).resetPending = s.resetPending := rfl
@[simp] theorem State.reportPortCheck_resetHeld (s : State) : (s.reportPortCheck).resetHeld = s.resetHeld := rfl
@[simp] theorem State.reportPortCheck_rfReady (s : State) : (s.reportPortCheck).rfReady = s.rfReady := rfl
@[simp] theorem State.reportPortCheck_response (s : State) : (s.reportPortCheck).response = s.response := rfl
@[simp] theorem State.reportPortCheck_pending (s : State) : (s.reportPortCheck).pending = s.pending := rfl

/-! `setPort` -/

@[simp] theorem State.setPort_air (s : State) (p : Port) (q : PortState) : (s.setPort p q).air = s.air := by cases p <;> rfl
@[simp] theorem State.setPort_roster (s : State) (p : Port) (q : PortState) : (s.setPort p q).roster = s.roster := by cases p <;> rfl
@[simp] theorem State.setPort_cells (s : State) (p : Port) (q : PortState) : (s.setPort p q).cells = s.cells := by cases p <;> rfl
@[simp] theorem State.setPort_pool (s : State) (p : Port) (q : PortState) : (s.setPort p q).pool = s.pool := by cases p <;> rfl
@[simp] theorem State.setPort_inbound (s : State) (p : Port) (q : PortState) : (s.setPort p q).inbound = s.inbound := by cases p <;> rfl
@[simp] theorem State.setPort_sweep (s : State) (p : Port) (q : PortState) : (s.setPort p q).sweep = s.sweep := by cases p <;> rfl
@[simp] theorem State.setPort_host (s : State) (p : Port) (q : PortState) : (s.setPort p q).host = s.host := by cases p <;> rfl
@[simp] theorem State.setPort_conditions (s : State) (p : Port) (q : PortState) : (s.setPort p q).conditions = s.conditions := by cases p <;> rfl
@[simp] theorem State.setPort_params (s : State) (p : Port) (q : PortState) : (s.setPort p q).params = s.params := by cases p <;> rfl
@[simp] theorem State.setPort_clock (s : State) (p : Port) (q : PortState) : (s.setPort p q).clock = s.clock := by cases p <;> rfl
@[simp] theorem State.setPort_resetPending (s : State) (p : Port) (q : PortState) : (s.setPort p q).resetPending = s.resetPending := by cases p <;> rfl
@[simp] theorem State.setPort_resetHeld (s : State) (p : Port) (q : PortState) : (s.setPort p q).resetHeld = s.resetHeld := by cases p <;> rfl
@[simp] theorem State.setPort_rfReady (s : State) (p : Port) (q : PortState) : (s.setPort p q).rfReady = s.rfReady := by cases p <;> rfl
@[simp] theorem State.setPort_response (s : State) (p : Port) (q : PortState) : (s.setPort p q).response = s.response := by cases p <;> rfl
@[simp] theorem State.setPort_pending (s : State) (p : Port) (q : PortState) : (s.setPort p q).pending = s.pending := by cases p <;> rfl

/-! `modifyPort` -/

@[simp] theorem State.modifyPort_air (s : State) (p : Port) (f : PortState → PortState) : (s.modifyPort p f).air = s.air := by cases p <;> rfl
@[simp] theorem State.modifyPort_roster (s : State) (p : Port) (f : PortState → PortState) : (s.modifyPort p f).roster = s.roster := by cases p <;> rfl
@[simp] theorem State.modifyPort_cells (s : State) (p : Port) (f : PortState → PortState) : (s.modifyPort p f).cells = s.cells := by cases p <;> rfl
@[simp] theorem State.modifyPort_pool (s : State) (p : Port) (f : PortState → PortState) : (s.modifyPort p f).pool = s.pool := by cases p <;> rfl
@[simp] theorem State.modifyPort_inbound (s : State) (p : Port) (f : PortState → PortState) : (s.modifyPort p f).inbound = s.inbound := by cases p <;> rfl
@[simp] theorem State.modifyPort_sweep (s : State) (p : Port) (f : PortState → PortState) : (s.modifyPort p f).sweep = s.sweep := by cases p <;> rfl
@[simp] theorem State.modifyPort_host (s : State) (p : Port) (f : PortState → PortState) : (s.modifyPort p f).host = s.host := by cases p <;> rfl
@[simp] theorem State.modifyPort_conditions (s : State) (p : Port) (f : PortState → PortState) : (s.modifyPort p f).conditions = s.conditions := by cases p <;> rfl
@[simp] theorem State.modifyPort_params (s : State) (p : Port) (f : PortState → PortState) : (s.modifyPort p f).params = s.params := by cases p <;> rfl
@[simp] theorem State.modifyPort_clock (s : State) (p : Port) (f : PortState → PortState) : (s.modifyPort p f).clock = s.clock := by cases p <;> rfl
@[simp] theorem State.modifyPort_resetPending (s : State) (p : Port) (f : PortState → PortState) : (s.modifyPort p f).resetPending = s.resetPending := by cases p <;> rfl
@[simp] theorem State.modifyPort_resetHeld (s : State) (p : Port) (f : PortState → PortState) : (s.modifyPort p f).resetHeld = s.resetHeld := by cases p <;> rfl
@[simp] theorem State.modifyPort_rfReady (s : State) (p : Port) (f : PortState → PortState) : (s.modifyPort p f).rfReady = s.rfReady := by cases p <;> rfl
@[simp] theorem State.modifyPort_response (s : State) (p : Port) (f : PortState → PortState) : (s.modifyPort p f).response = s.response := by cases p <;> rfl
@[simp] theorem State.modifyPort_pending (s : State) (p : Port) (f : PortState → PortState) : (s.modifyPort p f).pending = s.pending := by cases p <;> rfl

/-! `countCheckError` -/

@[simp] theorem State.countCheckError_air (s : State) (p : Port) : (s.countCheckError p).air = s.air := by cases p <;> rfl
@[simp] theorem State.countCheckError_roster (s : State) (p : Port) : (s.countCheckError p).roster = s.roster := by cases p <;> rfl
@[simp] theorem State.countCheckError_cells (s : State) (p : Port) : (s.countCheckError p).cells = s.cells := by cases p <;> rfl
@[simp] theorem State.countCheckError_pool (s : State) (p : Port) : (s.countCheckError p).pool = s.pool := by cases p <;> rfl
@[simp] theorem State.countCheckError_inbound (s : State) (p : Port) : (s.countCheckError p).inbound = s.inbound := by cases p <;> rfl
@[simp] theorem State.countCheckError_sweep (s : State) (p : Port) : (s.countCheckError p).sweep = s.sweep := by cases p <;> rfl
@[simp] theorem State.countCheckError_host (s : State) (p : Port) : (s.countCheckError p).host = s.host := by cases p <;> rfl
@[simp] theorem State.countCheckError_conditions (s : State) (p : Port) : (s.countCheckError p).conditions = s.conditions := by cases p <;> rfl
@[simp] theorem State.countCheckError_params (s : State) (p : Port) : (s.countCheckError p).params = s.params := by cases p <;> rfl
@[simp] theorem State.countCheckError_clock (s : State) (p : Port) : (s.countCheckError p).clock = s.clock := by cases p <;> rfl
@[simp] theorem State.countCheckError_resetPending (s : State) (p : Port) : (s.countCheckError p).resetPending = s.resetPending := by cases p <;> rfl
@[simp] theorem State.countCheckError_resetHeld (s : State) (p : Port) : (s.countCheckError p).resetHeld = s.resetHeld := by cases p <;> rfl
@[simp] theorem State.countCheckError_rfReady (s : State) (p : Port) : (s.countCheckError p).rfReady = s.rfReady := by cases p <;> rfl
@[simp] theorem State.countCheckError_response (s : State) (p : Port) : (s.countCheckError p).response = s.response := by cases p <;> rfl
@[simp] theorem State.countCheckError_pending (s : State) (p : Port) : (s.countCheckError p).pending = s.pending := by cases p <;> rfl

/-! `beginFrame` -/

@[simp] theorem State.beginFrame_air (s : State) (p : Port) (f : BackboneFrame) : (s.beginFrame p f).air = s.air := by cases p <;> rfl
@[simp] theorem State.beginFrame_roster (s : State) (p : Port) (f : BackboneFrame) : (s.beginFrame p f).roster = s.roster := by cases p <;> rfl
@[simp] theorem State.beginFrame_cells (s : State) (p : Port) (f : BackboneFrame) : (s.beginFrame p f).cells = s.cells := by cases p <;> rfl
@[simp] theorem State.beginFrame_pool (s : State) (p : Port) (f : BackboneFrame) : (s.beginFrame p f).pool = s.pool := by cases p <;> rfl
@[simp] theorem State.beginFrame_inbound (s : State) (p : Port) (f : BackboneFrame) : (s.beginFrame p f).inbound = s.inbound := by cases p <;> rfl
@[simp] theorem State.beginFrame_sweep (s : State) (p : Port) (f : BackboneFrame) : (s.beginFrame p f).sweep = s.sweep := by cases p <;> rfl
@[simp] theorem State.beginFrame_host (s : State) (p : Port) (f : BackboneFrame) : (s.beginFrame p f).host = s.host := by cases p <;> rfl
@[simp] theorem State.beginFrame_conditions (s : State) (p : Port) (f : BackboneFrame) : (s.beginFrame p f).conditions = s.conditions := by cases p <;> rfl
@[simp] theorem State.beginFrame_params (s : State) (p : Port) (f : BackboneFrame) : (s.beginFrame p f).params = s.params := by cases p <;> rfl
@[simp] theorem State.beginFrame_clock (s : State) (p : Port) (f : BackboneFrame) : (s.beginFrame p f).clock = s.clock := by cases p <;> rfl
@[simp] theorem State.beginFrame_resetPending (s : State) (p : Port) (f : BackboneFrame) : (s.beginFrame p f).resetPending = s.resetPending := by cases p <;> rfl
@[simp] theorem State.beginFrame_resetHeld (s : State) (p : Port) (f : BackboneFrame) : (s.beginFrame p f).resetHeld = s.resetHeld := by cases p <;> rfl
@[simp] theorem State.beginFrame_rfReady (s : State) (p : Port) (f : BackboneFrame) : (s.beginFrame p f).rfReady = s.rfReady := by cases p <;> rfl
@[simp] theorem State.beginFrame_response (s : State) (p : Port) (f : BackboneFrame) : (s.beginFrame p f).response = s.response := by cases p <;> rfl
@[simp] theorem State.beginFrame_pending (s : State) (p : Port) (f : BackboneFrame) : (s.beginFrame p f).pending = s.pending := by cases p <;> rfl

/-! `countTrafficFull` -/

@[simp] theorem State.countTrafficFull_air (s : State) (p : Port) : (s.countTrafficFull p).air = s.air := by cases p <;> rfl
@[simp] theorem State.countTrafficFull_roster (s : State) (p : Port) : (s.countTrafficFull p).roster = s.roster := by cases p <;> rfl
@[simp] theorem State.countTrafficFull_cells (s : State) (p : Port) : (s.countTrafficFull p).cells = s.cells := by cases p <;> rfl
@[simp] theorem State.countTrafficFull_pool (s : State) (p : Port) : (s.countTrafficFull p).pool = s.pool := by cases p <;> rfl
@[simp] theorem State.countTrafficFull_inbound (s : State) (p : Port) : (s.countTrafficFull p).inbound = s.inbound := by cases p <;> rfl
@[simp] theorem State.countTrafficFull_sweep (s : State) (p : Port) : (s.countTrafficFull p).sweep = s.sweep := by cases p <;> rfl
@[simp] theorem State.countTrafficFull_host (s : State) (p : Port) : (s.countTrafficFull p).host = s.host := by cases p <;> rfl
@[simp] theorem State.countTrafficFull_conditions (s : State) (p : Port) : (s.countTrafficFull p).conditions = s.conditions := by cases p <;> rfl
@[simp] theorem State.countTrafficFull_params (s : State) (p : Port) : (s.countTrafficFull p).params = s.params := by cases p <;> rfl
@[simp] theorem State.countTrafficFull_clock (s : State) (p : Port) : (s.countTrafficFull p).clock = s.clock := by cases p <;> rfl
@[simp] theorem State.countTrafficFull_resetPending (s : State) (p : Port) : (s.countTrafficFull p).resetPending = s.resetPending := by cases p <;> rfl
@[simp] theorem State.countTrafficFull_resetHeld (s : State) (p : Port) : (s.countTrafficFull p).resetHeld = s.resetHeld := by cases p <;> rfl
@[simp] theorem State.countTrafficFull_rfReady (s : State) (p : Port) : (s.countTrafficFull p).rfReady = s.rfReady := by cases p <;> rfl
@[simp] theorem State.countTrafficFull_response (s : State) (p : Port) : (s.countTrafficFull p).response = s.response := by cases p <;> rfl
@[simp] theorem State.countTrafficFull_pending (s : State) (p : Port) : (s.countTrafficFull p).pending = s.pending := by cases p <;> rfl

/-! Reads after an update -/

@[simp] theorem State.respond_response (s : State) (status : Status) (results : List Byte) :
    (s.respond status results).response = some { status := status, results := results } := rfl

@[simp] theorem State.refuse_response (s : State) (status : Status) :
    (s.refuse status).response = some { status := status, results := [] } := rfl

@[simp] theorem State.record_setRecord (s : State) (i : Fin 48) (r : Record) : (s.setRecord i r).record i = r := by
  simp [State.record, State.setRecord]

theorem State.record_setRecord_ne (s : State) {i j : Fin 48} (r : Record) (h : i ≠ j) :
    (s.setRecord i r).record j = s.record j := by
  have h' : i.val ≠ j.val := fun e => h (Fin.ext e)
  simp [State.record, State.setRecord, h']

@[simp] theorem State.record_modifyRecord (s : State) (i : Fin 48) (f : Record → Record) :
    (s.modifyRecord i f).record i = f (s.record i) := State.record_setRecord s i _

theorem State.record_modifyRecord_ne (s : State) {i j : Fin 48} (f : Record → Record) (h : i ≠ j) :
    (s.modifyRecord i f).record j = s.record j := State.record_setRecord_ne s _ h

@[simp] theorem State.record_passOver (s : State) (i j : Fin 48) : (s.passOver i).record j = s.record j := rfl

/-- A record depends on the roster alone. -/
theorem State.record_congr {s t : State} (h : t.roster = s.roster) (i : Fin 48) : t.record i = s.record i := by
  simp [State.record, h]

@[simp] theorem State.setRecord_tagCounter (s : State) (i : Fin 48) (r : Record) : (s.setRecord i r).roster.tagCounter = s.roster.tagCounter := rfl
@[simp] theorem State.modifyRecord_tagCounter (s : State) (i : Fin 48) (f : Record → Record) : (s.modifyRecord i f).roster.tagCounter = s.roster.tagCounter := rfl
@[simp] theorem State.setRecord_pagePointer (s : State) (i : Fin 48) (r : Record) : (s.setRecord i r).roster.pagePointer = s.roster.pagePointer := rfl
@[simp] theorem State.modifyRecord_pagePointer (s : State) (i : Fin 48) (f : Record → Record) : (s.modifyRecord i f).roster.pagePointer = s.roster.pagePointer := rfl
@[simp] theorem State.setRecord_passedOver (s : State) (i : Fin 48) (r : Record) : (s.setRecord i r).roster.passedOver = s.roster.passedOver := rfl
@[simp] theorem State.modifyRecord_passedOver (s : State) (i : Fin 48) (f : Record → Record) : (s.modifyRecord i f).roster.passedOver = s.roster.passedOver := rfl
@[simp] theorem State.setRecord_summonCount (s : State) (i : Fin 48) (r : Record) : (s.setRecord i r).roster.summonCount = s.roster.summonCount := rfl
@[simp] theorem State.modifyRecord_summonCount (s : State) (i : Fin 48) (f : Record → Record) : (s.modifyRecord i f).roster.summonCount = s.roster.summonCount := rfl
@[simp] theorem State.setRecord_pinnedCount (s : State) (i : Fin 48) (r : Record) : (s.setRecord i r).roster.pinnedCount = s.roster.pinnedCount := rfl
@[simp] theorem State.modifyRecord_pinnedCount (s : State) (i : Fin 48) (f : Record → Record) : (s.modifyRecord i f).roster.pinnedCount = s.roster.pinnedCount := rfl
@[simp] theorem State.setRecord_held (s : State) (i : Fin 48) (r : Record) : (s.setRecord i r).roster.held = s.roster.held := rfl
@[simp] theorem State.modifyRecord_held (s : State) (i : Fin 48) (f : Record → Record) : (s.modifyRecord i f).roster.held = s.roster.held := rfl

@[simp] theorem State.port_setPort (s : State) (p : Port) (q : PortState) : (s.setPort p q).port p = q := by
  cases p <;> rfl

theorem State.port_setPort_ne (s : State) {p p' : Port} (q : PortState) (h : p ≠ p') :
    (s.setPort p q).port p' = s.port p' := by
  cases p <;> cases p' <;> first | rfl | exact absurd rfl h

@[simp] theorem State.port_modifyPort (s : State) (p : Port) (f : PortState → PortState) :
    (s.modifyPort p f).port p = f (s.port p) := State.port_setPort s p _

theorem State.port_modifyPort_ne (s : State) {p p' : Port} (f : PortState → PortState) (h : p ≠ p') :
    (s.modifyPort p f).port p' = s.port p' := State.port_setPort_ne s _ h

/-- A port's state depends on the ports alone. -/
theorem State.port_congr {s t : State} (h : t.ports = s.ports) (p : Port) : t.port p = s.port p := by
  cases p <;> simp [State.port, h]

@[simp] theorem State.classFlags_setClass (s : State) (c : ConditionClass) (f : ClassFlags) :
    (s.setClass c f).classFlags c = f := by
  simp [State.classFlags, State.setClass]

theorem ConditionClass.index_val_ne {c d : ConditionClass} (h : c ≠ d) : c.index.val ≠ d.index.val := by
  intro e
  apply h
  cases c <;> cases d <;> first | rfl | exact absurd e (by decide)

theorem State.classFlags_setClass_ne (s : State) {c d : ConditionClass} (f : ClassFlags) (h : c ≠ d) :
    (s.setClass c f).classFlags d = s.classFlags d := by
  simp [State.classFlags, State.setClass, ConditionClass.index_val_ne h]

/-- A class's flags depend on the conditions alone. -/
theorem State.classFlags_congr {s t : State} (h : t.conditions = s.conditions) (c : ConditionClass) :
    t.classFlags c = s.classFlags c := by
  simp [State.classFlags, h]

/-- A report leaves the class with the cause reported, its forced flag, and its latch raised if it becomes active
(R171, R172). -/
theorem State.classFlags_reportCause (s : State) (c : ConditionClass) (cause : Bool) :
    (s.reportCause c cause).classFlags c =
      { cause := cause, forced := (s.classFlags c).forced,
        latched := (s.classFlags c).latched || ((cause || (s.classFlags c).forced) && !(s.classFlags c).active) } := by
  simp [State.reportCause, ClassFlags.latchRise, ClassFlags.active]

theorem State.classFlags_reportCause_ne (s : State) {c d : ConditionClass} (cause : Bool) (h : c ≠ d) :
    (s.reportCause c cause).classFlags d = s.classFlags d := State.classFlags_setClass_ne s _ h

@[simp] theorem State.setBuffer_pool_self (s : State) (b : Fin 64) (m : Option Message) : (s.setBuffer b m).pool[b.val] = m := by
  simp [State.setBuffer, State.reportPool, State.reportCause, State.setClass]

theorem State.setBuffer_pool_ne (s : State) {b c : Fin 64} (m : Option Message) (h : b ≠ c) :
    (s.setBuffer b m).pool[c.val] = s.pool[c.val] := by
  have h' : b.val ≠ c.val := fun e => h (Fin.ext e)
  simp [State.setBuffer, State.reportPool, State.reportCause, State.setClass, h']

/-! Two updates of one thing -/

theorem State.record_setRecord_eq (s : State) (i j : Fin 48) (r : Record) :
    (s.setRecord i r).record j = if i = j then r else s.record j := by
  split
  · rename_i h
    subst h
    exact State.record_setRecord s i r
  · rename_i h
    exact State.record_setRecord_ne s r h

theorem State.record_modifyRecord_eq (s : State) (i j : Fin 48) (f : Record → Record) :
    (s.modifyRecord i f).record j = if i = j then f (s.record i) else s.record j := State.record_setRecord_eq s i j _

@[simp] theorem State.setRecord_setRecord (s : State) (i : Fin 48) (r q : Record) :
    (s.setRecord i r).setRecord i q = s.setRecord i q := by
  simp [State.setRecord]

theorem State.modifyRecord_eq (s : State) (i : Fin 48) (f : Record → Record) :
    s.modifyRecord i f = s.setRecord i (f (s.record i)) := rfl

theorem State.clearSoft_eq (s : State) (i : Fin 48) :
    s.clearSoft i = s.setRecord i { s.record i with soft := none } := rfl

@[simp] theorem State.setPort_setPort (s : State) (p : Port) (q r : PortState) :
    (s.setPort p q).setPort p r = s.setPort p r := by cases p <;> rfl

theorem State.modifyPort_eq (s : State) (p : Port) (f : PortState → PortState) :
    s.modifyPort p f = s.setPort p (f (s.port p)) := rfl

theorem State.setPort_self (s : State) (p : Port) : s.setPort p (s.port p) = s := by cases p <;> rfl

end Sys2Proof.Machine
end

