-- ==== Sys2Proof/Laws/Keeps.lean ====
section
/-! SUPPORT. What each operation of the model keeps: `quiet` gathers the parts of State that hardly any operation changes,
`calm` is `quiet` without the inbound queue and the RF_READY pin. For the shared operations of Ops the blocks they leave
alone are named field by field. -/

namespace Sys2Proof.Machine

/-- The parts of State that hardly any operation changes. -/
structure Calm where
  params : Params
  clock : Nat
  resetPending : Bool
  resetHeld : Bool
  response : Option Response
  pending : List Instr

/-- The calm parts of a state. -/
def State.calm (s : State) : Calm :=
  { params := s.params, clock := s.clock, resetPending := s.resetPending, resetHeld := s.resetHeld,
    response := s.response, pending := s.pending }

/-- The calm parts with the inbound queue and the RF_READY pin. -/
def State.quiet (s : State) : Calm × List InboundEntry × Bool := (s.calm, s.inbound, s.rfReady)

@[simp] theorem State.calm_with (s : State) (air : Air) (roster : Roster) (cells : Cells) (pool : Pool)
    (inbound : List InboundEntry) (ports : Ports) (sweep : Sweep) (host : HostPort) (conditions : Conditions)
    (rfReady : Bool) :
    ({ s with air := air, roster := roster, cells := cells, pool := pool, inbound := inbound, ports := ports,
              sweep := sweep, host := host, conditions := conditions, rfReady := rfReady } : State).calm = s.calm := rfl

@[simp] theorem State.quiet_with (s : State) (air : Air) (roster : Roster) (cells : Cells) (pool : Pool)
    (ports : Ports) (sweep : Sweep) (host : HostPort) (conditions : Conditions) :
    ({ s with air := air, roster := roster, cells := cells, pool := pool, ports := ports, sweep := sweep,
              host := host, conditions := conditions } : State).quiet = s.quiet := rfl

theorem State.calm_of_quiet {s t : State} (h : t.quiet = s.quiet) : t.calm = s.calm := congrArg Prod.fst h

theorem State.params_of_calm {s t : State} (h : t.calm = s.calm) : t.params = s.params := congrArg Calm.params h
theorem State.clock_of_calm {s t : State} (h : t.calm = s.calm) : t.clock = s.clock := congrArg Calm.clock h
theorem State.resetPending_of_calm {s t : State} (h : t.calm = s.calm) : t.resetPending = s.resetPending :=
  congrArg Calm.resetPending h
theorem State.resetHeld_of_calm {s t : State} (h : t.calm = s.calm) : t.resetHeld = s.resetHeld :=
  congrArg Calm.resetHeld h
theorem State.response_of_calm {s t : State} (h : t.calm = s.calm) : t.response = s.response :=
  congrArg Calm.response h
theorem State.pending_of_calm {s t : State} (h : t.calm = s.calm) : t.pending = s.pending := congrArg Calm.pending h
theorem State.inbound_of_quiet {s t : State} (h : t.quiet = s.quiet) : t.inbound = s.inbound :=
  congrArg (fun q => q.2.1) h
theorem State.rfReady_of_quiet {s t : State} (h : t.quiet = s.quiet) : t.rfReady = s.rfReady :=
  congrArg (fun q => q.2.2) h

/-- What every step of a fold keeps, the fold keeps. -/
theorem foldl_keep {α β γ : Type} (g : β → γ) (f : β → α → β) (h : ∀ b a, g (f b a) = g b) :
    ∀ (l : List α) (b : β), g (l.foldl f b) = g b
  | [], _ => rfl
  | a :: l, b => (foldl_keep g f h l (f b a)).trans (h b a)

@[simp] theorem State.setClass_quiet (s : State) (c : ConditionClass) (f : ClassFlags) :
    (State.setClass s c f).quiet = s.quiet := rfl

@[simp] theorem State.setClass_calm (s : State) (c : ConditionClass) (f : ClassFlags) :
    (State.setClass s c f).calm = s.calm := rfl

@[simp] theorem State.reportCause_quiet (s : State) (c : ConditionClass) (cause : Bool) :
    (State.reportCause s c cause).quiet = s.quiet := rfl

@[simp] theorem State.reportCause_calm (s : State) (c : ConditionClass) (cause : Bool) :
    (State.reportCause s c cause).calm = s.calm := rfl

@[simp] theorem State.forceClass_quiet (s : State) (c : ConditionClass) (forced : Bool) :
    (State.forceClass s c forced).quiet = s.quiet := rfl

@[simp] theorem State.forceClass_calm (s : State) (c : ConditionClass) (forced : Bool) :
    (State.forceClass s c forced).calm = s.calm := rfl

@[simp] theorem State.reportPool_quiet (s : State) :
    (State.reportPool s).quiet = s.quiet := rfl

@[simp] theorem State.reportPool_calm (s : State) :
    (State.reportPool s).calm = s.calm := rfl

@[simp] theorem State.reportAirCheck_quiet (s : State) :
    (State.reportAirCheck s).quiet = s.quiet := rfl

@[simp] theorem State.reportAirCheck_calm (s : State) :
    (State.reportAirCheck s).calm = s.calm := rfl

@[simp] theorem State.reportAirDark_quiet (s : State) :
    (State.reportAirDark s).quiet = s.quiet := rfl

@[simp] theorem State.reportAirDark_calm (s : State) :
    (State.reportAirDark s).calm = s.calm := rfl

@[simp] theorem State.reportLinkDown_quiet (s : State) :
    (State.reportLinkDown s).quiet = s.quiet := rfl

@[simp] theorem State.reportLinkDown_calm (s : State) :
    (State.reportLinkDown s).calm = s.calm := rfl

@[simp] theorem State.reportIdentity_quiet (s : State) :
    (State.reportIdentity s).quiet = s.quiet := rfl

@[simp] theorem State.reportIdentity_calm (s : State) :
    (State.reportIdentity s).calm = s.calm := rfl

@[simp] theorem State.reportPortCheck_quiet (s : State) :
    (State.reportPortCheck s).quiet = s.quiet := rfl

@[simp] theorem State.reportPortCheck_calm (s : State) :
    (State.reportPortCheck s).calm = s.calm := rfl

@[simp] theorem State.setRecord_quiet (s : State) (i : Fin 48) (r : Record) :
    (State.setRecord s i r).quiet = s.quiet := rfl

@[simp] theorem State.setRecord_calm (s : State) (i : Fin 48) (r : Record) :
    (State.setRecord s i r).calm = s.calm := rfl

@[simp] theorem State.modifyRecord_quiet (s : State) (i : Fin 48) (f : Record → Record) :
    (State.modifyRecord s i f).quiet = s.quiet := rfl

@[simp] theorem State.modifyRecord_calm (s : State) (i : Fin 48) (f : Record → Record) :
    (State.modifyRecord s i f).calm = s.calm := rfl

@[simp] theorem State.passOver_quiet (s : State) (i : Fin 48) :
    (State.passOver s i).quiet = s.quiet := rfl

@[simp] theorem State.passOver_calm (s : State) (i : Fin 48) :
    (State.passOver s i).calm = s.calm := rfl

@[simp] theorem State.holdWork_quiet (s : State) (w : HeldWork) :
    (State.holdWork s w).quiet = s.quiet := rfl

@[simp] theorem State.holdWork_calm (s : State) (w : HeldWork) :
    (State.holdWork s w).calm = s.calm := rfl

@[simp] theorem State.offerReason_quiet (s : State) (i : Fin 48) (reason : Reason) :
    (State.offerReason s i reason).quiet = s.quiet := by
  simp only [State.offerReason]
  (repeat' split) <;> (first | with_reducible rfl | simp)

@[simp] theorem State.offerReason_calm (s : State) (i : Fin 48) (reason : Reason) :
    (State.offerReason s i reason).calm = s.calm := by
  simp only [State.offerReason]
  (repeat' split) <;> (first | with_reducible rfl | simp)

@[simp] theorem State.offerReason_air (s : State) (i : Fin 48) (reason : Reason) :
    (State.offerReason s i reason).air = s.air := by
  simp only [State.offerReason]
  (repeat' split) <;> (first | with_reducible rfl | simp)

@[simp] theorem State.offerReason_roster (s : State) (i : Fin 48) (reason : Reason) :
    (State.offerReason s i reason).roster = s.roster := by
  simp only [State.offerReason]
  (repeat' split) <;> (first | with_reducible rfl | simp)

@[simp] theorem State.offerReason_cells (s : State) (i : Fin 48) (reason : Reason) :
    (State.offerReason s i reason).cells = s.cells := by
  simp only [State.offerReason]
  (repeat' split) <;> (first | with_reducible rfl | simp)

@[simp] theorem State.offerReason_pool (s : State) (i : Fin 48) (reason : Reason) :
    (State.offerReason s i reason).pool = s.pool := by
  simp only [State.offerReason]
  (repeat' split) <;> (first | with_reducible rfl | simp)

@[simp] theorem State.offerReason_ports (s : State) (i : Fin 48) (reason : Reason) :
    (State.offerReason s i reason).ports = s.ports := by
  simp only [State.offerReason]
  (repeat' split) <;> (first | with_reducible rfl | simp)

@[simp] theorem State.offerReason_sweep (s : State) (i : Fin 48) (reason : Reason) :
    (State.offerReason s i reason).sweep = s.sweep := by
  simp only [State.offerReason]
  (repeat' split) <;> (first | with_reducible rfl | simp)

@[simp] theorem State.offerReason_conditions (s : State) (i : Fin 48) (reason : Reason) :
    (State.offerReason s i reason).conditions = s.conditions := by
  simp only [State.offerReason]
  (repeat' split) <;> (first | with_reducible rfl | simp)

@[simp] theorem State.setSoft_quiet (s : State) (i : Fin 48) (fault : SoftFault) :
    (State.setSoft s i fault).quiet = s.quiet := by
  simp only [State.setSoft]
  (repeat' split) <;> (first | with_reducible rfl | simp)

@[simp] theorem State.setSoft_calm (s : State) (i : Fin 48) (fault : SoftFault) :
    (State.setSoft s i fault).calm = s.calm := by
  simp only [State.setSoft]
  (repeat' split) <;> (first | with_reducible rfl | simp)

@[simp] theorem State.setSoft_air (s : State) (i : Fin 48) (fault : SoftFault) :
    (State.setSoft s i fault).air = s.air := by
  simp only [State.setSoft]
  (repeat' split) <;> (first | with_reducible rfl | simp)

@[simp] theorem State.setSoft_cells (s : State) (i : Fin 48) (fault : SoftFault) :
    (State.setSoft s i fault).cells = s.cells := by
  simp only [State.setSoft]
  (repeat' split) <;> (first | with_reducible rfl | simp)

@[simp] theorem State.setSoft_pool (s : State) (i : Fin 48) (fault : SoftFault) :
    (State.setSoft s i fault).pool = s.pool := by
  simp only [State.setSoft]
  (repeat' split) <;> (first | with_reducible rfl | simp)

@[simp] theorem State.setSoft_ports (s : State) (i : Fin 48) (fault : SoftFault) :
    (State.setSoft s i fault).ports = s.ports := by
  simp only [State.setSoft]
  (repeat' split) <;> (first | with_reducible rfl | simp)

@[simp] theorem State.setSoft_sweep (s : State) (i : Fin 48) (fault : SoftFault) :
    (State.setSoft s i fault).sweep = s.sweep := by
  simp only [State.setSoft]
  (repeat' split) <;> (first | with_reducible rfl | simp)

@[simp] theorem State.setSoft_conditions (s : State) (i : Fin 48) (fault : SoftFault) :
    (State.setSoft s i fault).conditions = s.conditions := by
  simp only [State.setSoft]
  (repeat' split) <;> (first | with_reducible rfl | simp)

@[simp] theorem State.clearSoft_quiet (s : State) (i : Fin 48) :
    (State.clearSoft s i).quiet = s.quiet := rfl

@[simp] theorem State.clearSoft_calm (s : State) (i : Fin 48) :
    (State.clearSoft s i).calm = s.calm := rfl

@[simp] theorem State.countRefused_quiet (s : State) :
    (State.countRefused s).quiet = s.quiet := rfl

@[simp] theorem State.countRefused_calm (s : State) :
    (State.countRefused s).calm = s.calm := rfl

@[simp] theorem State.countHeld_quiet (s : State) :
    (State.countHeld s).quiet = s.quiet := rfl

@[simp] theorem State.countHeld_calm (s : State) :
    (State.countHeld s).calm = s.calm := rfl

@[simp] theorem State.countGarbled_quiet (s : State) :
    (State.countGarbled s).quiet = s.quiet := rfl

@[simp] theorem State.countGarbled_calm (s : State) :
    (State.countGarbled s).calm = s.calm := rfl

@[simp] theorem State.setPort_quiet (s : State) (p : Port) (q : PortState) :
    (State.setPort s p q).quiet = s.quiet := by cases p <;> rfl

@[simp] theorem State.setPort_calm (s : State) (p : Port) (q : PortState) :
    (State.setPort s p q).calm = s.calm := by cases p <;> rfl

@[simp] theorem State.modifyPort_quiet (s : State) (p : Port) (f : PortState → PortState) :
    (State.modifyPort s p f).quiet = s.quiet := by cases p <;> rfl

@[simp] theorem State.modifyPort_calm (s : State) (p : Port) (f : PortState → PortState) :
    (State.modifyPort s p f).calm = s.calm := by cases p <;> rfl

@[simp] theorem State.countCheckError_quiet (s : State) (p : Port) :
    (State.countCheckError s p).quiet = s.quiet := by cases p <;> rfl

@[simp] theorem State.countCheckError_calm (s : State) (p : Port) :
    (State.countCheckError s p).calm = s.calm := by cases p <;> rfl

@[simp] theorem State.beginFrame_quiet (s : State) (p : Port) (f : BackboneFrame) :
    (State.beginFrame s p f).quiet = s.quiet := by cases p <;> rfl

@[simp] theorem State.beginFrame_calm (s : State) (p : Port) (f : BackboneFrame) :
    (State.beginFrame s p f).calm = s.calm := by cases p <;> rfl

@[simp] theorem State.serveHandover_quiet (s : State) (p : Port) (i : Fin 48) :
    (State.serveHandover s p i).quiet = s.quiet := by
  simp only [State.serveHandover]
  (repeat' split) <;> (first | with_reducible rfl | simp)

@[simp] theorem State.serveHandover_calm (s : State) (p : Port) (i : Fin 48) :
    (State.serveHandover s p i).calm = s.calm := by
  simp only [State.serveHandover]
  (repeat' split) <;> (first | with_reducible rfl | simp)

@[simp] theorem State.serveHandover_air (s : State) (p : Port) (i : Fin 48) :
    (State.serveHandover s p i).air = s.air := by
  simp only [State.serveHandover]
  (repeat' split) <;> (first | with_reducible rfl | simp)

@[simp] theorem State.serveHandover_cells (s : State) (p : Port) (i : Fin 48) :
    (State.serveHandover s p i).cells = s.cells := by
  simp only [State.serveHandover]
  (repeat' split) <;> (first | with_reducible rfl | simp)

@[simp] theorem State.serveHandover_pool (s : State) (p : Port) (i : Fin 48) :
    (State.serveHandover s p i).pool = s.pool := by
  simp only [State.serveHandover]
  (repeat' split) <;> (first | with_reducible rfl | simp)

@[simp] theorem State.serveHandover_sweep (s : State) (p : Port) (i : Fin 48) :
    (State.serveHandover s p i).sweep = s.sweep := by
  simp only [State.serveHandover]
  (repeat' split) <;> (first | with_reducible rfl | simp)

@[simp] theorem State.serveHandover_host (s : State) (p : Port) (i : Fin 48) :
    (State.serveHandover s p i).host = s.host := by
  simp only [State.serveHandover]
  (repeat' split) <;> (first | with_reducible rfl | simp)

@[simp] theorem State.serveHandover_conditions (s : State) (p : Port) (i : Fin 48) :
    (State.serveHandover s p i).conditions = s.conditions := by
  simp only [State.serveHandover]
  (repeat' split) <;> (first | with_reducible rfl | simp)

@[simp] theorem State.serveTraffic_quiet (s : State) (p : Port) :
    (State.serveTraffic s p).quiet = s.quiet := by
  simp only [State.serveTraffic]
  (repeat' split) <;> (first | with_reducible rfl | simp)

@[simp] theorem State.serveTraffic_calm (s : State) (p : Port) :
    (State.serveTraffic s p).calm = s.calm := by
  simp only [State.serveTraffic]
  (repeat' split) <;> (first | with_reducible rfl | simp)

@[simp] theorem State.serveTraffic_air (s : State) (p : Port) :
    (State.serveTraffic s p).air = s.air := by
  simp only [State.serveTraffic]
  (repeat' split) <;> (first | with_reducible rfl | simp)

@[simp] theorem State.serveTraffic_roster (s : State) (p : Port) :
    (State.serveTraffic s p).roster = s.roster := by
  simp only [State.serveTraffic]
  (repeat' split) <;> (first | with_reducible rfl | simp)

@[simp] theorem State.serveTraffic_cells (s : State) (p : Port) :
    (State.serveTraffic s p).cells = s.cells := by
  simp only [State.serveTraffic]
  (repeat' split) <;> (first | with_reducible rfl | simp)

@[simp] theorem State.serveTraffic_pool (s : State) (p : Port) :
    (State.serveTraffic s p).pool = s.pool := by
  simp only [State.serveTraffic]
  (repeat' split) <;> (first | with_reducible rfl | simp)

@[simp] theorem State.serveTraffic_sweep (s : State) (p : Port) :
    (State.serveTraffic s p).sweep = s.sweep := by
  simp only [State.serveTraffic]
  (repeat' split) <;> (first | with_reducible rfl | simp)

@[simp] theorem State.serveTraffic_host (s : State) (p : Port) :
    (State.serveTraffic s p).host = s.host := by
  simp only [State.serveTraffic]
  (repeat' split) <;> (first | with_reducible rfl | simp)

@[simp] theorem State.serveTraffic_conditions (s : State) (p : Port) :
    (State.serveTraffic s p).conditions = s.conditions := by
  simp only [State.serveTraffic]
  (repeat' split) <;> (first | with_reducible rfl | simp)

@[simp] theorem State.chooseSource_quiet (s : State) (p : Port) :
    (State.chooseSource s p).quiet = s.quiet := by
  simp only [State.chooseSource]
  (repeat' split) <;> (first | with_reducible rfl | simp)

@[simp] theorem State.chooseSource_calm (s : State) (p : Port) :
    (State.chooseSource s p).calm = s.calm := by
  simp only [State.chooseSource]
  (repeat' split) <;> (first | with_reducible rfl | simp)

@[simp] theorem State.chooseSource_air (s : State) (p : Port) :
    (State.chooseSource s p).air = s.air := by
  simp only [State.chooseSource]
  (repeat' split) <;> (first | with_reducible rfl | simp)

@[simp] theorem State.chooseSource_cells (s : State) (p : Port) :
    (State.chooseSource s p).cells = s.cells := by
  simp only [State.chooseSource]
  (repeat' split) <;> (first | with_reducible rfl | simp)

@[simp] theorem State.chooseSource_pool (s : State) (p : Port) :
    (State.chooseSource s p).pool = s.pool := by
  simp only [State.chooseSource]
  (repeat' split) <;> (first | with_reducible rfl | simp)

@[simp] theorem State.chooseSource_sweep (s : State) (p : Port) :
    (State.chooseSource s p).sweep = s.sweep := by
  simp only [State.chooseSource]
  (repeat' split) <;> (first | with_reducible rfl | simp)

@[simp] theorem State.chooseSource_host (s : State) (p : Port) :
    (State.chooseSource s p).host = s.host := by
  simp only [State.chooseSource]
  (repeat' split) <;> (first | with_reducible rfl | simp)

@[simp] theorem State.chooseSource_conditions (s : State) (p : Port) :
    (State.chooseSource s p).conditions = s.conditions := by
  simp only [State.chooseSource]
  (repeat' split) <;> (first | with_reducible rfl | simp)

@[simp] theorem State.arbitrate_quiet (s : State) (p : Port) :
    (State.arbitrate s p).quiet = s.quiet := by
  simp only [State.arbitrate]
  (repeat' split) <;> (first | with_reducible rfl | simp)

@[simp] theorem State.arbitrate_calm (s : State) (p : Port) :
    (State.arbitrate s p).calm = s.calm := by
  simp only [State.arbitrate]
  (repeat' split) <;> (first | with_reducible rfl | simp)

@[simp] theorem State.arbitrate_air (s : State) (p : Port) :
    (State.arbitrate s p).air = s.air := by
  simp only [State.arbitrate]
  (repeat' split) <;> (first | with_reducible rfl | simp)

@[simp] theorem State.arbitrate_cells (s : State) (p : Port) :
    (State.arbitrate s p).cells = s.cells := by
  simp only [State.arbitrate]
  (repeat' split) <;> (first | with_reducible rfl | simp)

@[simp] theorem State.arbitrate_pool (s : State) (p : Port) :
    (State.arbitrate s p).pool = s.pool := by
  simp only [State.arbitrate]
  (repeat' split) <;> (first | with_reducible rfl | simp)

@[simp] theorem State.arbitrate_sweep (s : State) (p : Port) :
    (State.arbitrate s p).sweep = s.sweep := by
  simp only [State.arbitrate]
  (repeat' split) <;> (first | with_reducible rfl | simp)

@[simp] theorem State.arbitrate_host (s : State) (p : Port) :
    (State.arbitrate s p).host = s.host := by
  simp only [State.arbitrate]
  (repeat' split) <;> (first | with_reducible rfl | simp)

@[simp] theorem State.arbitrate_conditions (s : State) (p : Port) :
    (State.arbitrate s p).conditions = s.conditions := by
  simp only [State.arbitrate]
  (repeat' split) <;> (first | with_reducible rfl | simp)

@[simp] theorem State.countTrafficFull_quiet (s : State) (p : Port) :
    (State.countTrafficFull s p).quiet = s.quiet := by cases p <;> rfl

@[simp] theorem State.countTrafficFull_calm (s : State) (p : Port) :
    (State.countTrafficFull s p).calm = s.calm := by cases p <;> rfl

@[simp] theorem State.offerTraffic_quiet (s : State) (p : Port) (f : BackboneFrame) :
    (State.offerTraffic s p f).quiet = s.quiet := by
  simp only [State.offerTraffic]
  (repeat' split) <;> (first | with_reducible rfl | simp)

@[simp] theorem State.offerTraffic_calm (s : State) (p : Port) (f : BackboneFrame) :
    (State.offerTraffic s p f).calm = s.calm := by
  simp only [State.offerTraffic]
  (repeat' split) <;> (first | with_reducible rfl | simp)

@[simp] theorem State.offerTraffic_air (s : State) (p : Port) (f : BackboneFrame) :
    (State.offerTraffic s p f).air = s.air := by
  simp only [State.offerTraffic]
  (repeat' split) <;> (first | with_reducible rfl | simp)

@[simp] theorem State.offerTraffic_cells (s : State) (p : Port) (f : BackboneFrame) :
    (State.offerTraffic s p f).cells = s.cells := by
  simp only [State.offerTraffic]
  (repeat' split) <;> (first | with_reducible rfl | simp)

@[simp] theorem State.offerTraffic_pool (s : State) (p : Port) (f : BackboneFrame) :
    (State.offerTraffic s p f).pool = s.pool := by
  simp only [State.offerTraffic]
  (repeat' split) <;> (first | with_reducible rfl | simp)

@[simp] theorem State.offerTraffic_sweep (s : State) (p : Port) (f : BackboneFrame) :
    (State.offerTraffic s p f).sweep = s.sweep := by
  simp only [State.offerTraffic]
  (repeat' split) <;> (first | with_reducible rfl | simp)

@[simp] theorem State.offerTraffic_host (s : State) (p : Port) (f : BackboneFrame) :
    (State.offerTraffic s p f).host = s.host := by
  simp only [State.offerTraffic]
  (repeat' split) <;> (first | with_reducible rfl | simp)

@[simp] theorem State.offerTraffic_conditions (s : State) (p : Port) (f : BackboneFrame) :
    (State.offerTraffic s p f).conditions = s.conditions := by
  simp only [State.offerTraffic]
  (repeat' split) <;> (first | with_reducible rfl | simp)

@[simp] theorem State.sendToward_quiet (s : State) (dest : Nat) (payload : Payload) :
    (State.sendToward s dest payload).quiet = s.quiet := by
  simp only [State.sendToward]
  (repeat' split) <;> (first | with_reducible rfl | simp)

@[simp] theorem State.sendToward_calm (s : State) (dest : Nat) (payload : Payload) :
    (State.sendToward s dest payload).calm = s.calm := by
  simp only [State.sendToward]
  (repeat' split) <;> (first | with_reducible rfl | simp)

@[simp] theorem State.sendToward_air (s : State) (dest : Nat) (payload : Payload) :
    (State.sendToward s dest payload).air = s.air := by
  simp only [State.sendToward]
  (repeat' split) <;> (first | with_reducible rfl | simp)

@[simp] theorem State.sendToward_cells (s : State) (dest : Nat) (payload : Payload) :
    (State.sendToward s dest payload).cells = s.cells := by
  simp only [State.sendToward]
  (repeat' split) <;> (first | with_reducible rfl | simp)

@[simp] theorem State.sendToward_pool (s : State) (dest : Nat) (payload : Payload) :
    (State.sendToward s dest payload).pool = s.pool := by
  simp only [State.sendToward]
  (repeat' split) <;> (first | with_reducible rfl | simp)

@[simp] theorem State.sendToward_sweep (s : State) (dest : Nat) (payload : Payload) :
    (State.sendToward s dest payload).sweep = s.sweep := by
  simp only [State.sendToward]
  (repeat' split) <;> (first | with_reducible rfl | simp)

@[simp] theorem State.sendToward_host (s : State) (dest : Nat) (payload : Payload) :
    (State.sendToward s dest payload).host = s.host := by
  simp only [State.sendToward]
  (repeat' split) <;> (first | with_reducible rfl | simp)

@[simp] theorem State.sendToward_conditions (s : State) (dest : Nat) (payload : Payload) :
    (State.sendToward s dest payload).conditions = s.conditions := by
  simp only [State.sendToward]
  (repeat' split) <;> (first | with_reducible rfl | simp)

@[simp] theorem State.sendNote_quiet (s : State) (car number : Nat) (outcome : NoteOutcome) :
    (State.sendNote s car number outcome).quiet = s.quiet := by
  simp only [State.sendNote]
  (repeat' split) <;> (first | with_reducible rfl | simp)

@[simp] theorem State.sendNote_calm (s : State) (car number : Nat) (outcome : NoteOutcome) :
    (State.sendNote s car number outcome).calm = s.calm := by
  simp only [State.sendNote]
  (repeat' split) <;> (first | with_reducible rfl | simp)

@[simp] theorem State.sendNote_air (s : State) (car number : Nat) (outcome : NoteOutcome) :
    (State.sendNote s car number outcome).air = s.air := by
  simp only [State.sendNote]
  (repeat' split) <;> (first | with_reducible rfl | simp)

@[simp] theorem State.sendNote_cells (s : State) (car number : Nat) (outcome : NoteOutcome) :
    (State.sendNote s car number outcome).cells = s.cells := by
  simp only [State.sendNote]
  (repeat' split) <;> (first | with_reducible rfl | simp)

@[simp] theorem State.sendNote_pool (s : State) (car number : Nat) (outcome : NoteOutcome) :
    (State.sendNote s car number outcome).pool = s.pool := by
  simp only [State.sendNote]
  (repeat' split) <;> (first | with_reducible rfl | simp)

@[simp] theorem State.sendNote_sweep (s : State) (car number : Nat) (outcome : NoteOutcome) :
    (State.sendNote s car number outcome).sweep = s.sweep := by
  simp only [State.sendNote]
  (repeat' split) <;> (first | with_reducible rfl | simp)

@[simp] theorem State.sendNote_host (s : State) (car number : Nat) (outcome : NoteOutcome) :
    (State.sendNote s car number outcome).host = s.host := by
  simp only [State.sendNote]
  (repeat' split) <;> (first | with_reducible rfl | simp)

@[simp] theorem State.sendNote_conditions (s : State) (car number : Nat) (outcome : NoteOutcome) :
    (State.sendNote s car number outcome).conditions = s.conditions := by
  simp only [State.sendNote]
  (repeat' split) <;> (first | with_reducible rfl | simp)

@[simp] theorem State.noteFor_quiet (s : State) (car : Nat) (source : Source) (receipt : Bool) (outcome : NoteOutcome) :
    (State.noteFor s car source receipt outcome).quiet = s.quiet := by
  simp only [State.noteFor]
  (repeat' split) <;> (first | with_reducible rfl | simp)

@[simp] theorem State.noteFor_calm (s : State) (car : Nat) (source : Source) (receipt : Bool) (outcome : NoteOutcome) :
    (State.noteFor s car source receipt outcome).calm = s.calm := by
  simp only [State.noteFor]
  (repeat' split) <;> (first | with_reducible rfl | simp)

@[simp] theorem State.noteFor_air (s : State) (car : Nat) (source : Source) (receipt : Bool) (outcome : NoteOutcome) :
    (State.noteFor s car source receipt outcome).air = s.air := by
  simp only [State.noteFor]
  (repeat' split) <;> (first | with_reducible rfl | simp)

@[simp] theorem State.noteFor_cells (s : State) (car : Nat) (source : Source) (receipt : Bool) (outcome : NoteOutcome) :
    (State.noteFor s car source receipt outcome).cells = s.cells := by
  simp only [State.noteFor]
  (repeat' split) <;> (first | with_reducible rfl | simp)

@[simp] theorem State.noteFor_pool (s : State) (car : Nat) (source : Source) (receipt : Bool) (outcome : NoteOutcome) :
    (State.noteFor s car source receipt outcome).pool = s.pool := by
  simp only [State.noteFor]
  (repeat' split) <;> (first | with_reducible rfl | simp)

@[simp] theorem State.noteFor_sweep (s : State) (car : Nat) (source : Source) (receipt : Bool) (outcome : NoteOutcome) :
    (State.noteFor s car source receipt outcome).sweep = s.sweep := by
  simp only [State.noteFor]
  (repeat' split) <;> (first | with_reducible rfl | simp)

@[simp] theorem State.noteFor_host (s : State) (car : Nat) (source : Source) (receipt : Bool) (outcome : NoteOutcome) :
    (State.noteFor s car source receipt outcome).host = s.host := by
  simp only [State.noteFor]
  (repeat' split) <;> (first | with_reducible rfl | simp)

@[simp] theorem State.noteFor_conditions (s : State) (car : Nat) (source : Source) (receipt : Bool) (outcome : NoteOutcome) :
    (State.noteFor s car source receipt outcome).conditions = s.conditions := by
  simp only [State.noteFor]
  (repeat' split) <;> (first | with_reducible rfl | simp)

@[simp] theorem State.giveCell_quiet (s : State) (slot phase : Nat) (h : CellHolding) :
    (State.giveCell s slot phase h).quiet = s.quiet := rfl

@[simp] theorem State.giveCell_calm (s : State) (slot phase : Nat) (h : CellHolding) :
    (State.giveCell s slot phase h).calm = s.calm := rfl

@[simp] theorem State.giveTurnCells_quiet (s : State) (i : Fin 48) (t : Turn) (role : CellRole) :
    (State.giveTurnCells s i t role).quiet = s.quiet := by
  simp only [State.giveTurnCells]
  (repeat' split) <;> first
    | (simp; done)
    | (refine (foldl_keep (fun t : State => t.quiet) _ ?_ _ _).trans ?_ <;> (try intro _ _) <;> (repeat' split) <;> simp)
    | (simp only [State.modifyRecord_quiet]; refine (foldl_keep (fun t : State => t.quiet) _ ?_ _ _).trans ?_ <;> (try intro _ _) <;> (repeat' split) <;> simp)

@[simp] theorem State.giveTurnCells_calm (s : State) (i : Fin 48) (t : Turn) (role : CellRole) :
    (State.giveTurnCells s i t role).calm = s.calm := by
  simp only [State.giveTurnCells]
  (repeat' split) <;> first
    | (simp; done)
    | (refine (foldl_keep (fun t : State => t.calm) _ ?_ _ _).trans ?_ <;> (try intro _ _) <;> (repeat' split) <;> simp)
    | (simp only [State.modifyRecord_calm]; refine (foldl_keep (fun t : State => t.calm) _ ?_ _ _).trans ?_ <;> (try intro _ _) <;> (repeat' split) <;> simp)

@[simp] theorem State.giveTurnCells_air (s : State) (i : Fin 48) (t : Turn) (role : CellRole) :
    (State.giveTurnCells s i t role).air = s.air := by
  simp only [State.giveTurnCells]
  (repeat' split) <;> first
    | (simp; done)
    | (refine (foldl_keep (fun t : State => t.air) _ ?_ _ _).trans ?_ <;> (try intro _ _) <;> (repeat' split) <;> simp)
    | (simp only [State.modifyRecord_air]; refine (foldl_keep (fun t : State => t.air) _ ?_ _ _).trans ?_ <;> (try intro _ _) <;> (repeat' split) <;> simp)

@[simp] theorem State.giveTurnCells_roster (s : State) (i : Fin 48) (t : Turn) (role : CellRole) :
    (State.giveTurnCells s i t role).roster = s.roster := by
  simp only [State.giveTurnCells]
  (repeat' split) <;> first
    | (simp; done)
    | (refine (foldl_keep (fun t : State => t.roster) _ ?_ _ _).trans ?_ <;> (try intro _ _) <;> (repeat' split) <;> simp)
    | (simp only [State.modifyRecord_roster]; refine (foldl_keep (fun t : State => t.roster) _ ?_ _ _).trans ?_ <;> (try intro _ _) <;> (repeat' split) <;> simp)

@[simp] theorem State.giveTurnCells_pool (s : State) (i : Fin 48) (t : Turn) (role : CellRole) :
    (State.giveTurnCells s i t role).pool = s.pool := by
  simp only [State.giveTurnCells]
  (repeat' split) <;> first
    | (simp; done)
    | (refine (foldl_keep (fun t : State => t.pool) _ ?_ _ _).trans ?_ <;> (try intro _ _) <;> (repeat' split) <;> simp)
    | (simp only [State.modifyRecord_pool]; refine (foldl_keep (fun t : State => t.pool) _ ?_ _ _).trans ?_ <;> (try intro _ _) <;> (repeat' split) <;> simp)

@[simp] theorem State.giveTurnCells_ports (s : State) (i : Fin 48) (t : Turn) (role : CellRole) :
    (State.giveTurnCells s i t role).ports = s.ports := by
  simp only [State.giveTurnCells]
  (repeat' split) <;> first
    | (simp; done)
    | (refine (foldl_keep (fun t : State => t.ports) _ ?_ _ _).trans ?_ <;> (try intro _ _) <;> (repeat' split) <;> simp)
    | (simp only [State.modifyRecord_ports]; refine (foldl_keep (fun t : State => t.ports) _ ?_ _ _).trans ?_ <;> (try intro _ _) <;> (repeat' split) <;> simp)

@[simp] theorem State.giveTurnCells_sweep (s : State) (i : Fin 48) (t : Turn) (role : CellRole) :
    (State.giveTurnCells s i t role).sweep = s.sweep := by
  simp only [State.giveTurnCells]
  (repeat' split) <;> first
    | (simp; done)
    | (refine (foldl_keep (fun t : State => t.sweep) _ ?_ _ _).trans ?_ <;> (try intro _ _) <;> (repeat' split) <;> simp)
    | (simp only [State.modifyRecord_sweep]; refine (foldl_keep (fun t : State => t.sweep) _ ?_ _ _).trans ?_ <;> (try intro _ _) <;> (repeat' split) <;> simp)

@[simp] theorem State.giveTurnCells_host (s : State) (i : Fin 48) (t : Turn) (role : CellRole) :
    (State.giveTurnCells s i t role).host = s.host := by
  simp only [State.giveTurnCells]
  (repeat' split) <;> first
    | (simp; done)
    | (refine (foldl_keep (fun t : State => t.host) _ ?_ _ _).trans ?_ <;> (try intro _ _) <;> (repeat' split) <;> simp)
    | (simp only [State.modifyRecord_host]; refine (foldl_keep (fun t : State => t.host) _ ?_ _ _).trans ?_ <;> (try intro _ _) <;> (repeat' split) <;> simp)

@[simp] theorem State.giveTurnCells_conditions (s : State) (i : Fin 48) (t : Turn) (role : CellRole) :
    (State.giveTurnCells s i t role).conditions = s.conditions := by
  simp only [State.giveTurnCells]
  (repeat' split) <;> first
    | (simp; done)
    | (refine (foldl_keep (fun t : State => t.conditions) _ ?_ _ _).trans ?_ <;> (try intro _ _) <;> (repeat' split) <;> simp)
    | (simp only [State.modifyRecord_conditions]; refine (foldl_keep (fun t : State => t.conditions) _ ?_ _ _).trans ?_ <;> (try intro _ _) <;> (repeat' split) <;> simp)

@[simp] theorem State.freeCellsWhere_quiet (s : State) (test : CellHolding → Bool) :
    (State.freeCellsWhere s test).quiet = s.quiet := by
  simp only [State.freeCellsWhere]
  (repeat' split) <;> (first | with_reducible rfl | simp)

@[simp] theorem State.freeCellsWhere_calm (s : State) (test : CellHolding → Bool) :
    (State.freeCellsWhere s test).calm = s.calm := by
  simp only [State.freeCellsWhere]
  (repeat' split) <;> (first | with_reducible rfl | simp)

@[simp] theorem State.freeCellsWhere_air (s : State) (test : CellHolding → Bool) :
    (State.freeCellsWhere s test).air = s.air := by
  simp only [State.freeCellsWhere]
  (repeat' split) <;> (first | with_reducible rfl | simp)

@[simp] theorem State.freeCellsWhere_roster (s : State) (test : CellHolding → Bool) :
    (State.freeCellsWhere s test).roster = s.roster := by
  simp only [State.freeCellsWhere]
  (repeat' split) <;> (first | with_reducible rfl | simp)

@[simp] theorem State.freeCellsWhere_pool (s : State) (test : CellHolding → Bool) :
    (State.freeCellsWhere s test).pool = s.pool := by
  simp only [State.freeCellsWhere]
  (repeat' split) <;> (first | with_reducible rfl | simp)

@[simp] theorem State.freeCellsWhere_ports (s : State) (test : CellHolding → Bool) :
    (State.freeCellsWhere s test).ports = s.ports := by
  simp only [State.freeCellsWhere]
  (repeat' split) <;> (first | with_reducible rfl | simp)

@[simp] theorem State.freeCellsWhere_sweep (s : State) (test : CellHolding → Bool) :
    (State.freeCellsWhere s test).sweep = s.sweep := by
  simp only [State.freeCellsWhere]
  (repeat' split) <;> (first | with_reducible rfl | simp)

@[simp] theorem State.freeCellsWhere_host (s : State) (test : CellHolding → Bool) :
    (State.freeCellsWhere s test).host = s.host := by
  simp only [State.freeCellsWhere]
  (repeat' split) <;> (first | with_reducible rfl | simp)

@[simp] theorem State.freeCellsOf_quiet (s : State) (i : Fin 48) :
    (State.freeCellsOf s i).quiet = s.quiet := by
  simp only [State.freeCellsOf]
  (repeat' split) <;> (first | with_reducible rfl | simp)

@[simp] theorem State.freeCellsOf_calm (s : State) (i : Fin 48) :
    (State.freeCellsOf s i).calm = s.calm := by
  simp only [State.freeCellsOf]
  (repeat' split) <;> (first | with_reducible rfl | simp)

@[simp] theorem State.freeCellsOf_air (s : State) (i : Fin 48) :
    (State.freeCellsOf s i).air = s.air := by
  simp only [State.freeCellsOf]
  (repeat' split) <;> (first | with_reducible rfl | simp)

@[simp] theorem State.freeCellsOf_roster (s : State) (i : Fin 48) :
    (State.freeCellsOf s i).roster = s.roster := by
  simp only [State.freeCellsOf]
  (repeat' split) <;> (first | with_reducible rfl | simp)

@[simp] theorem State.freeCellsOf_pool (s : State) (i : Fin 48) :
    (State.freeCellsOf s i).pool = s.pool := by
  simp only [State.freeCellsOf]
  (repeat' split) <;> (first | with_reducible rfl | simp)

@[simp] theorem State.freeCellsOf_ports (s : State) (i : Fin 48) :
    (State.freeCellsOf s i).ports = s.ports := by
  simp only [State.freeCellsOf]
  (repeat' split) <;> (first | with_reducible rfl | simp)

@[simp] theorem State.freeCellsOf_sweep (s : State) (i : Fin 48) :
    (State.freeCellsOf s i).sweep = s.sweep := by
  simp only [State.freeCellsOf]
  (repeat' split) <;> (first | with_reducible rfl | simp)

@[simp] theorem State.freeCellsOf_host (s : State) (i : Fin 48) :
    (State.freeCellsOf s i).host = s.host := by
  simp only [State.freeCellsOf]
  (repeat' split) <;> (first | with_reducible rfl | simp)

@[simp] theorem State.freeRoleOf_quiet (s : State) (i : Fin 48) (role : CellRole) :
    (State.freeRoleOf s i role).quiet = s.quiet := by
  simp only [State.freeRoleOf]
  (repeat' split) <;> (first | with_reducible rfl | simp)

@[simp] theorem State.freeRoleOf_calm (s : State) (i : Fin 48) (role : CellRole) :
    (State.freeRoleOf s i role).calm = s.calm := by
  simp only [State.freeRoleOf]
  (repeat' split) <;> (first | with_reducible rfl | simp)

@[simp] theorem State.freeRoleOf_air (s : State) (i : Fin 48) (role : CellRole) :
    (State.freeRoleOf s i role).air = s.air := by
  simp only [State.freeRoleOf]
  (repeat' split) <;> (first | with_reducible rfl | simp)

@[simp] theorem State.freeRoleOf_roster (s : State) (i : Fin 48) (role : CellRole) :
    (State.freeRoleOf s i role).roster = s.roster := by
  simp only [State.freeRoleOf]
  (repeat' split) <;> (first | with_reducible rfl | simp)

@[simp] theorem State.freeRoleOf_pool (s : State) (i : Fin 48) (role : CellRole) :
    (State.freeRoleOf s i role).pool = s.pool := by
  simp only [State.freeRoleOf]
  (repeat' split) <;> (first | with_reducible rfl | simp)

@[simp] theorem State.freeRoleOf_ports (s : State) (i : Fin 48) (role : CellRole) :
    (State.freeRoleOf s i role).ports = s.ports := by
  simp only [State.freeRoleOf]
  (repeat' split) <;> (first | with_reducible rfl | simp)

@[simp] theorem State.freeRoleOf_sweep (s : State) (i : Fin 48) (role : CellRole) :
    (State.freeRoleOf s i role).sweep = s.sweep := by
  simp only [State.freeRoleOf]
  (repeat' split) <;> (first | with_reducible rfl | simp)

@[simp] theorem State.freeRoleOf_host (s : State) (i : Fin 48) (role : CellRole) :
    (State.freeRoleOf s i role).host = s.host := by
  simp only [State.freeRoleOf]
  (repeat' split) <;> (first | with_reducible rfl | simp)

@[simp] theorem State.cancelRetune_quiet (s : State) (i : Fin 48) :
    (State.cancelRetune s i).quiet = s.quiet := by
  simp only [State.cancelRetune]
  (repeat' split) <;> (first | with_reducible rfl | simp)

@[simp] theorem State.cancelRetune_calm (s : State) (i : Fin 48) :
    (State.cancelRetune s i).calm = s.calm := by
  simp only [State.cancelRetune]
  (repeat' split) <;> (first | with_reducible rfl | simp)

@[simp] theorem State.cancelRetune_air (s : State) (i : Fin 48) :
    (State.cancelRetune s i).air = s.air := by
  simp only [State.cancelRetune]
  (repeat' split) <;> (first | with_reducible rfl | simp)

@[simp] theorem State.cancelRetune_pool (s : State) (i : Fin 48) :
    (State.cancelRetune s i).pool = s.pool := by
  simp only [State.cancelRetune]
  (repeat' split) <;> (first | with_reducible rfl | simp)

@[simp] theorem State.cancelRetune_ports (s : State) (i : Fin 48) :
    (State.cancelRetune s i).ports = s.ports := by
  simp only [State.cancelRetune]
  (repeat' split) <;> (first | with_reducible rfl | simp)

@[simp] theorem State.cancelRetune_sweep (s : State) (i : Fin 48) :
    (State.cancelRetune s i).sweep = s.sweep := by
  simp only [State.cancelRetune]
  (repeat' split) <;> (first | with_reducible rfl | simp)

@[simp] theorem State.cancelRetune_host (s : State) (i : Fin 48) :
    (State.cancelRetune s i).host = s.host := by
  simp only [State.cancelRetune]
  (repeat' split) <;> (first | with_reducible rfl | simp)

@[simp] theorem State.setBuffer_quiet (s : State) (b : Fin 64) (m : Option Message) :
    (State.setBuffer s b m).quiet = s.quiet := rfl

@[simp] theorem State.setBuffer_calm (s : State) (b : Fin 64) (m : Option Message) :
    (State.setBuffer s b m).calm = s.calm := rfl

@[simp] theorem State.placeMessage_quiet (s : State) (m : Message) :
    (State.placeMessage s m).quiet = s.quiet := by
  simp only [State.placeMessage]
  (repeat' split) <;> (first | with_reducible rfl | simp)

@[simp] theorem State.placeMessage_calm (s : State) (m : Message) :
    (State.placeMessage s m).calm = s.calm := by
  simp only [State.placeMessage]
  (repeat' split) <;> (first | with_reducible rfl | simp)

@[simp] theorem State.placeMessage_air (s : State) (m : Message) :
    (State.placeMessage s m).air = s.air := by
  simp only [State.placeMessage]
  (repeat' split) <;> (first | with_reducible rfl | simp)

@[simp] theorem State.placeMessage_cells (s : State) (m : Message) :
    (State.placeMessage s m).cells = s.cells := by
  simp only [State.placeMessage]
  (repeat' split) <;> (first | with_reducible rfl | simp)

@[simp] theorem State.placeMessage_ports (s : State) (m : Message) :
    (State.placeMessage s m).ports = s.ports := by
  simp only [State.placeMessage]
  (repeat' split) <;> (first | with_reducible rfl | simp)

@[simp] theorem State.placeMessage_sweep (s : State) (m : Message) :
    (State.placeMessage s m).sweep = s.sweep := by
  simp only [State.placeMessage]
  (repeat' split) <;> (first | with_reducible rfl | simp)

@[simp] theorem State.placeMessage_host (s : State) (m : Message) :
    (State.placeMessage s m).host = s.host := by
  simp only [State.placeMessage]
  (repeat' split) <;> (first | with_reducible rfl | simp)

@[simp] theorem State.removeMessage_quiet (s : State) (i : Fin 48) (b : Fin 64) :
    (State.removeMessage s i b).quiet = s.quiet := by
  simp only [State.removeMessage]
  (repeat' split) <;> (first | with_reducible rfl | simp)

@[simp] theorem State.removeMessage_calm (s : State) (i : Fin 48) (b : Fin 64) :
    (State.removeMessage s i b).calm = s.calm := by
  simp only [State.removeMessage]
  (repeat' split) <;> (first | with_reducible rfl | simp)

@[simp] theorem State.removeMessage_air (s : State) (i : Fin 48) (b : Fin 64) :
    (State.removeMessage s i b).air = s.air := by
  simp only [State.removeMessage]
  (repeat' split) <;> (first | with_reducible rfl | simp)

@[simp] theorem State.removeMessage_cells (s : State) (i : Fin 48) (b : Fin 64) :
    (State.removeMessage s i b).cells = s.cells := by
  simp only [State.removeMessage]
  (repeat' split) <;> (first | with_reducible rfl | simp)

@[simp] theorem State.removeMessage_ports (s : State) (i : Fin 48) (b : Fin 64) :
    (State.removeMessage s i b).ports = s.ports := by
  simp only [State.removeMessage]
  (repeat' split) <;> (first | with_reducible rfl | simp)

@[simp] theorem State.removeMessage_sweep (s : State) (i : Fin 48) (b : Fin 64) :
    (State.removeMessage s i b).sweep = s.sweep := by
  simp only [State.removeMessage]
  (repeat' split) <;> (first | with_reducible rfl | simp)

@[simp] theorem State.removeMessage_host (s : State) (i : Fin 48) (b : Fin 64) :
    (State.removeMessage s i b).host = s.host := by
  simp only [State.removeMessage]
  (repeat' split) <;> (first | with_reducible rfl | simp)

@[simp] theorem State.freeListed_quiet (notes : Bool) (car : Nat) (s : State) (b : Fin 64) :
    (State.freeListed notes car s b).quiet = s.quiet := by
  simp only [State.freeListed]
  (repeat' split) <;> (first | with_reducible rfl | simp)

@[simp] theorem State.freeListed_calm (notes : Bool) (car : Nat) (s : State) (b : Fin 64) :
    (State.freeListed notes car s b).calm = s.calm := by
  simp only [State.freeListed]
  (repeat' split) <;> (first | with_reducible rfl | simp)

@[simp] theorem State.freeListed_air (notes : Bool) (car : Nat) (s : State) (b : Fin 64) :
    (State.freeListed notes car s b).air = s.air := by
  simp only [State.freeListed]
  (repeat' split) <;> (first | with_reducible rfl | simp)

@[simp] theorem State.freeListed_cells (notes : Bool) (car : Nat) (s : State) (b : Fin 64) :
    (State.freeListed notes car s b).cells = s.cells := by
  simp only [State.freeListed]
  (repeat' split) <;> (first | with_reducible rfl | simp)

@[simp] theorem State.freeListed_sweep (notes : Bool) (car : Nat) (s : State) (b : Fin 64) :
    (State.freeListed notes car s b).sweep = s.sweep := by
  simp only [State.freeListed]
  (repeat' split) <;> (first | with_reducible rfl | simp)

@[simp] theorem State.freeListed_host (notes : Bool) (car : Nat) (s : State) (b : Fin 64) :
    (State.freeListed notes car s b).host = s.host := by
  simp only [State.freeListed]
  (repeat' split) <;> (first | with_reducible rfl | simp)

@[simp] theorem State.freeMessages_quiet (s : State) (i : Fin 48) (notes : Bool) :
    (State.freeMessages s i notes).quiet = s.quiet := by
  simp only [State.freeMessages]
  (repeat' split) <;> first
    | (simp; done)
    | (refine (foldl_keep (fun t : State => t.quiet) _ ?_ _ _).trans ?_ <;> (try intro _ _) <;> (repeat' split) <;> simp)
    | (simp only [State.modifyRecord_quiet]; refine (foldl_keep (fun t : State => t.quiet) _ ?_ _ _).trans ?_ <;> (try intro _ _) <;> (repeat' split) <;> simp)

@[simp] theorem State.freeMessages_calm (s : State) (i : Fin 48) (notes : Bool) :
    (State.freeMessages s i notes).calm = s.calm := by
  simp only [State.freeMessages]
  (repeat' split) <;> first
    | (simp; done)
    | (refine (foldl_keep (fun t : State => t.calm) _ ?_ _ _).trans ?_ <;> (try intro _ _) <;> (repeat' split) <;> simp)
    | (simp only [State.modifyRecord_calm]; refine (foldl_keep (fun t : State => t.calm) _ ?_ _ _).trans ?_ <;> (try intro _ _) <;> (repeat' split) <;> simp)

@[simp] theorem State.freeMessages_air (s : State) (i : Fin 48) (notes : Bool) :
    (State.freeMessages s i notes).air = s.air := by
  simp only [State.freeMessages]
  (repeat' split) <;> first
    | (simp; done)
    | (refine (foldl_keep (fun t : State => t.air) _ ?_ _ _).trans ?_ <;> (try intro _ _) <;> (repeat' split) <;> simp)
    | (simp only [State.modifyRecord_air]; refine (foldl_keep (fun t : State => t.air) _ ?_ _ _).trans ?_ <;> (try intro _ _) <;> (repeat' split) <;> simp)

@[simp] theorem State.freeMessages_cells (s : State) (i : Fin 48) (notes : Bool) :
    (State.freeMessages s i notes).cells = s.cells := by
  simp only [State.freeMessages]
  (repeat' split) <;> first
    | (simp; done)
    | (refine (foldl_keep (fun t : State => t.cells) _ ?_ _ _).trans ?_ <;> (try intro _ _) <;> (repeat' split) <;> simp)
    | (simp only [State.modifyRecord_cells]; refine (foldl_keep (fun t : State => t.cells) _ ?_ _ _).trans ?_ <;> (try intro _ _) <;> (repeat' split) <;> simp)

@[simp] theorem State.freeMessages_sweep (s : State) (i : Fin 48) (notes : Bool) :
    (State.freeMessages s i notes).sweep = s.sweep := by
  simp only [State.freeMessages]
  (repeat' split) <;> first
    | (simp; done)
    | (refine (foldl_keep (fun t : State => t.sweep) _ ?_ _ _).trans ?_ <;> (try intro _ _) <;> (repeat' split) <;> simp)
    | (simp only [State.modifyRecord_sweep]; refine (foldl_keep (fun t : State => t.sweep) _ ?_ _ _).trans ?_ <;> (try intro _ _) <;> (repeat' split) <;> simp)

@[simp] theorem State.freeMessages_host (s : State) (i : Fin 48) (notes : Bool) :
    (State.freeMessages s i notes).host = s.host := by
  simp only [State.freeMessages]
  (repeat' split) <;> first
    | (simp; done)
    | (refine (foldl_keep (fun t : State => t.host) _ ?_ _ _).trans ?_ <;> (try intro _ _) <;> (repeat' split) <;> simp)
    | (simp only [State.modifyRecord_host]; refine (foldl_keep (fun t : State => t.host) _ ?_ _ _).trans ?_ <;> (try intro _ _) <;> (repeat' split) <;> simp)

@[simp] theorem State.endSweep_quiet (s : State) (outcome : SweepOutcome) :
    (State.endSweep s outcome).quiet = s.quiet := rfl

@[simp] theorem State.endSweep_calm (s : State) (outcome : SweepOutcome) :
    (State.endSweep s outcome).calm = s.calm := rfl

@[simp] theorem State.endIfAccounted_quiet (s : State) :
    (State.endIfAccounted s).quiet = s.quiet := by
  simp only [State.endIfAccounted]
  (repeat' split) <;> (first | with_reducible rfl | simp)

@[simp] theorem State.endIfAccounted_calm (s : State) :
    (State.endIfAccounted s).calm = s.calm := by
  simp only [State.endIfAccounted]
  (repeat' split) <;> (first | with_reducible rfl | simp)

@[simp] theorem State.endIfAccounted_air (s : State) :
    (State.endIfAccounted s).air = s.air := by
  simp only [State.endIfAccounted]
  (repeat' split) <;> (first | with_reducible rfl | simp)

@[simp] theorem State.endIfAccounted_roster (s : State) :
    (State.endIfAccounted s).roster = s.roster := by
  simp only [State.endIfAccounted]
  (repeat' split) <;> (first | with_reducible rfl | simp)

@[simp] theorem State.endIfAccounted_cells (s : State) :
    (State.endIfAccounted s).cells = s.cells := by
  simp only [State.endIfAccounted]
  (repeat' split) <;> (first | with_reducible rfl | simp)

@[simp] theorem State.endIfAccounted_pool (s : State) :
    (State.endIfAccounted s).pool = s.pool := by
  simp only [State.endIfAccounted]
  (repeat' split) <;> (first | with_reducible rfl | simp)

@[simp] theorem State.endIfAccounted_ports (s : State) :
    (State.endIfAccounted s).ports = s.ports := by
  simp only [State.endIfAccounted]
  (repeat' split) <;> (first | with_reducible rfl | simp)

@[simp] theorem State.endIfAccounted_conditions (s : State) :
    (State.endIfAccounted s).conditions = s.conditions := by
  simp only [State.endIfAccounted]
  (repeat' split) <;> (first | with_reducible rfl | simp)

@[simp] theorem State.markLeft_quiet (s : State) (i : Fin 48) :
    (State.markLeft s i).quiet = s.quiet := by
  simp only [State.markLeft]
  (repeat' split) <;> (first | with_reducible rfl | simp)

@[simp] theorem State.markLeft_calm (s : State) (i : Fin 48) :
    (State.markLeft s i).calm = s.calm := by
  simp only [State.markLeft]
  (repeat' split) <;> (first | with_reducible rfl | simp)

@[simp] theorem State.markLeft_air (s : State) (i : Fin 48) :
    (State.markLeft s i).air = s.air := by
  simp only [State.markLeft]
  (repeat' split) <;> (first | with_reducible rfl | simp)

@[simp] theorem State.markLeft_cells (s : State) (i : Fin 48) :
    (State.markLeft s i).cells = s.cells := by
  simp only [State.markLeft]
  (repeat' split) <;> (first | with_reducible rfl | simp)

@[simp] theorem State.markLeft_pool (s : State) (i : Fin 48) :
    (State.markLeft s i).pool = s.pool := by
  simp only [State.markLeft]
  (repeat' split) <;> (first | with_reducible rfl | simp)

@[simp] theorem State.markLeft_ports (s : State) (i : Fin 48) :
    (State.markLeft s i).ports = s.ports := by
  simp only [State.markLeft]
  (repeat' split) <;> (first | with_reducible rfl | simp)

@[simp] theorem State.markLeft_conditions (s : State) (i : Fin 48) :
    (State.markLeft s i).conditions = s.conditions := by
  simp only [State.markLeft]
  (repeat' split) <;> (first | with_reducible rfl | simp)

@[simp] theorem State.creditSweep_quiet (s : State) (i : Fin 48) :
    (State.creditSweep s i).quiet = s.quiet := by
  simp only [State.creditSweep]
  (repeat' split) <;> (first | with_reducible rfl | simp)

@[simp] theorem State.creditSweep_calm (s : State) (i : Fin 48) :
    (State.creditSweep s i).calm = s.calm := by
  simp only [State.creditSweep]
  (repeat' split) <;> (first | with_reducible rfl | simp)

@[simp] theorem State.creditSweep_air (s : State) (i : Fin 48) :
    (State.creditSweep s i).air = s.air := by
  simp only [State.creditSweep]
  (repeat' split) <;> (first | with_reducible rfl | simp)

@[simp] theorem State.creditSweep_cells (s : State) (i : Fin 48) :
    (State.creditSweep s i).cells = s.cells := by
  simp only [State.creditSweep]
  (repeat' split) <;> (first | with_reducible rfl | simp)

@[simp] theorem State.creditSweep_pool (s : State) (i : Fin 48) :
    (State.creditSweep s i).pool = s.pool := by
  simp only [State.creditSweep]
  (repeat' split) <;> (first | with_reducible rfl | simp)

@[simp] theorem State.creditSweep_ports (s : State) (i : Fin 48) :
    (State.creditSweep s i).ports = s.ports := by
  simp only [State.creditSweep]
  (repeat' split) <;> (first | with_reducible rfl | simp)

@[simp] theorem State.creditSweep_conditions (s : State) (i : Fin 48) :
    (State.creditSweep s i).conditions = s.conditions := by
  simp only [State.creditSweep]
  (repeat' split) <;> (first | with_reducible rfl | simp)

@[simp] theorem State.countEntered_quiet (s : State) :
    (State.countEntered s).quiet = s.quiet := by
  simp only [State.countEntered]
  (repeat' split) <;> (first | with_reducible rfl | simp)

@[simp] theorem State.countEntered_calm (s : State) :
    (State.countEntered s).calm = s.calm := by
  simp only [State.countEntered]
  (repeat' split) <;> (first | with_reducible rfl | simp)

@[simp] theorem State.countEntered_air (s : State) :
    (State.countEntered s).air = s.air := by
  simp only [State.countEntered]
  (repeat' split) <;> (first | with_reducible rfl | simp)

@[simp] theorem State.countEntered_roster (s : State) :
    (State.countEntered s).roster = s.roster := by
  simp only [State.countEntered]
  (repeat' split) <;> (first | with_reducible rfl | simp)

@[simp] theorem State.countEntered_cells (s : State) :
    (State.countEntered s).cells = s.cells := by
  simp only [State.countEntered]
  (repeat' split) <;> (first | with_reducible rfl | simp)

@[simp] theorem State.countEntered_pool (s : State) :
    (State.countEntered s).pool = s.pool := by
  simp only [State.countEntered]
  (repeat' split) <;> (first | with_reducible rfl | simp)

@[simp] theorem State.countEntered_ports (s : State) :
    (State.countEntered s).ports = s.ports := by
  simp only [State.countEntered]
  (repeat' split) <;> (first | with_reducible rfl | simp)

@[simp] theorem State.countEntered_host (s : State) :
    (State.countEntered s).host = s.host := by
  simp only [State.countEntered]
  (repeat' split) <;> (first | with_reducible rfl | simp)

@[simp] theorem State.countEntered_conditions (s : State) :
    (State.countEntered s).conditions = s.conditions := by
  simp only [State.countEntered]
  (repeat' split) <;> (first | with_reducible rfl | simp)

@[simp] theorem State.giveTag_quiet (s : State) (i : Fin 48) :
    (State.giveTag s i).quiet = s.quiet := rfl

@[simp] theorem State.giveTag_calm (s : State) (i : Fin 48) :
    (State.giveTag s i).calm = s.calm := rfl

@[simp] theorem State.endSummon_quiet (s : State) (i : Fin 48) (outcome : SummonOutcome) :
    (State.endSummon s i outcome).quiet = s.quiet := by
  simp only [State.endSummon]
  (repeat' split) <;> (first | with_reducible rfl | simp)

@[simp] theorem State.endSummon_calm (s : State) (i : Fin 48) (outcome : SummonOutcome) :
    (State.endSummon s i outcome).calm = s.calm := by
  simp only [State.endSummon]
  (repeat' split) <;> (first | with_reducible rfl | simp)

@[simp] theorem State.endSummon_air (s : State) (i : Fin 48) (outcome : SummonOutcome) :
    (State.endSummon s i outcome).air = s.air := by
  simp only [State.endSummon]
  (repeat' split) <;> (first | with_reducible rfl | simp)

@[simp] theorem State.endSummon_cells (s : State) (i : Fin 48) (outcome : SummonOutcome) :
    (State.endSummon s i outcome).cells = s.cells := by
  simp only [State.endSummon]
  (repeat' split) <;> (first | with_reducible rfl | simp)

@[simp] theorem State.endSummon_pool (s : State) (i : Fin 48) (outcome : SummonOutcome) :
    (State.endSummon s i outcome).pool = s.pool := by
  simp only [State.endSummon]
  (repeat' split) <;> (first | with_reducible rfl | simp)

@[simp] theorem State.endSummon_ports (s : State) (i : Fin 48) (outcome : SummonOutcome) :
    (State.endSummon s i outcome).ports = s.ports := by
  simp only [State.endSummon]
  (repeat' split) <;> (first | with_reducible rfl | simp)

@[simp] theorem State.endSummon_sweep (s : State) (i : Fin 48) (outcome : SummonOutcome) :
    (State.endSummon s i outcome).sweep = s.sweep := by
  simp only [State.endSummon]
  (repeat' split) <;> (first | with_reducible rfl | simp)

@[simp] theorem State.endSummon_conditions (s : State) (i : Fin 48) (outcome : SummonOutcome) :
    (State.endSummon s i outcome).conditions = s.conditions := by
  simp only [State.endSummon]
  (repeat' split) <;> (first | with_reducible rfl | simp)

@[simp] theorem State.attachSummon_quiet (s : State) (i : Fin 48) :
    (State.attachSummon s i).quiet = s.quiet := rfl

@[simp] theorem State.attachSummon_calm (s : State) (i : Fin 48) :
    (State.attachSummon s i).calm = s.calm := rfl

@[simp] theorem State.withdrawGrant_quiet (s : State) (i : Fin 48) :
    (State.withdrawGrant s i).quiet = s.quiet := rfl

@[simp] theorem State.withdrawGrant_calm (s : State) (i : Fin 48) :
    (State.withdrawGrant s i).calm = s.calm := rfl

@[simp] theorem State.placeGrant_quiet (s : State) (i : Fin 48) :
    (State.placeGrant s i).quiet = s.quiet := by
  simp only [State.placeGrant]
  (repeat' split) <;> (first | with_reducible rfl | simp)

@[simp] theorem State.placeGrant_calm (s : State) (i : Fin 48) :
    (State.placeGrant s i).calm = s.calm := by
  simp only [State.placeGrant]
  (repeat' split) <;> (first | with_reducible rfl | simp)

@[simp] theorem State.placeGrant_roster (s : State) (i : Fin 48) :
    (State.placeGrant s i).roster = s.roster := by
  simp only [State.placeGrant]
  (repeat' split) <;> (first | with_reducible rfl | simp)

@[simp] theorem State.placeGrant_cells (s : State) (i : Fin 48) :
    (State.placeGrant s i).cells = s.cells := by
  simp only [State.placeGrant]
  (repeat' split) <;> (first | with_reducible rfl | simp)

@[simp] theorem State.placeGrant_pool (s : State) (i : Fin 48) :
    (State.placeGrant s i).pool = s.pool := by
  simp only [State.placeGrant]
  (repeat' split) <;> (first | with_reducible rfl | simp)

@[simp] theorem State.placeGrant_ports (s : State) (i : Fin 48) :
    (State.placeGrant s i).ports = s.ports := by
  simp only [State.placeGrant]
  (repeat' split) <;> (first | with_reducible rfl | simp)

@[simp] theorem State.placeGrant_sweep (s : State) (i : Fin 48) :
    (State.placeGrant s i).sweep = s.sweep := by
  simp only [State.placeGrant]
  (repeat' split) <;> (first | with_reducible rfl | simp)

@[simp] theorem State.placeGrant_host (s : State) (i : Fin 48) :
    (State.placeGrant s i).host = s.host := by
  simp only [State.placeGrant]
  (repeat' split) <;> (first | with_reducible rfl | simp)

@[simp] theorem State.placeGrant_conditions (s : State) (i : Fin 48) :
    (State.placeGrant s i).conditions = s.conditions := by
  simp only [State.placeGrant]
  (repeat' split) <;> (first | with_reducible rfl | simp)

@[simp] theorem State.dropContext_quiet (s : State) (i : Fin 48) :
    (State.dropContext s i).quiet = s.quiet := rfl

@[simp] theorem State.dropContext_calm (s : State) (i : Fin 48) :
    (State.dropContext s i).calm = s.calm := rfl

@[simp] theorem State.dropClaim_quiet (s : State) (i : Fin 48) :
    (State.dropClaim s i).quiet = s.quiet := by
  simp only [State.dropClaim]
  (repeat' split) <;> (first | with_reducible rfl | simp)

@[simp] theorem State.dropClaim_calm (s : State) (i : Fin 48) :
    (State.dropClaim s i).calm = s.calm := by
  simp only [State.dropClaim]
  (repeat' split) <;> (first | with_reducible rfl | simp)

@[simp] theorem State.dropClaim_air (s : State) (i : Fin 48) :
    (State.dropClaim s i).air = s.air := by
  simp only [State.dropClaim]
  (repeat' split) <;> (first | with_reducible rfl | simp)

@[simp] theorem State.dropClaim_cells (s : State) (i : Fin 48) :
    (State.dropClaim s i).cells = s.cells := by
  simp only [State.dropClaim]
  (repeat' split) <;> (first | with_reducible rfl | simp)

@[simp] theorem State.dropClaim_pool (s : State) (i : Fin 48) :
    (State.dropClaim s i).pool = s.pool := by
  simp only [State.dropClaim]
  (repeat' split) <;> (first | with_reducible rfl | simp)

@[simp] theorem State.dropClaim_ports (s : State) (i : Fin 48) :
    (State.dropClaim s i).ports = s.ports := by
  simp only [State.dropClaim]
  (repeat' split) <;> (first | with_reducible rfl | simp)

@[simp] theorem State.dropClaim_sweep (s : State) (i : Fin 48) :
    (State.dropClaim s i).sweep = s.sweep := by
  simp only [State.dropClaim]
  (repeat' split) <;> (first | with_reducible rfl | simp)

@[simp] theorem State.dropClaim_host (s : State) (i : Fin 48) :
    (State.dropClaim s i).host = s.host := by
  simp only [State.dropClaim]
  (repeat' split) <;> (first | with_reducible rfl | simp)

@[simp] theorem State.dropClaim_conditions (s : State) (i : Fin 48) :
    (State.dropClaim s i).conditions = s.conditions := by
  simp only [State.dropClaim]
  (repeat' split) <;> (first | with_reducible rfl | simp)

@[simp] theorem State.arbitrateToward_quiet (s : State) (peer : Nat) :
    (State.arbitrateToward s peer).quiet = s.quiet := by
  simp only [State.arbitrateToward]
  (repeat' split) <;> (first | with_reducible rfl | simp)

@[simp] theorem State.arbitrateToward_calm (s : State) (peer : Nat) :
    (State.arbitrateToward s peer).calm = s.calm := by
  simp only [State.arbitrateToward]
  (repeat' split) <;> (first | with_reducible rfl | simp)

@[simp] theorem State.arbitrateToward_air (s : State) (peer : Nat) :
    (State.arbitrateToward s peer).air = s.air := by
  simp only [State.arbitrateToward]
  (repeat' split) <;> (first | with_reducible rfl | simp)

@[simp] theorem State.arbitrateToward_cells (s : State) (peer : Nat) :
    (State.arbitrateToward s peer).cells = s.cells := by
  simp only [State.arbitrateToward]
  (repeat' split) <;> (first | with_reducible rfl | simp)

@[simp] theorem State.arbitrateToward_pool (s : State) (peer : Nat) :
    (State.arbitrateToward s peer).pool = s.pool := by
  simp only [State.arbitrateToward]
  (repeat' split) <;> (first | with_reducible rfl | simp)

@[simp] theorem State.arbitrateToward_sweep (s : State) (peer : Nat) :
    (State.arbitrateToward s peer).sweep = s.sweep := by
  simp only [State.arbitrateToward]
  (repeat' split) <;> (first | with_reducible rfl | simp)

@[simp] theorem State.arbitrateToward_host (s : State) (peer : Nat) :
    (State.arbitrateToward s peer).host = s.host := by
  simp only [State.arbitrateToward]
  (repeat' split) <;> (first | with_reducible rfl | simp)

@[simp] theorem State.arbitrateToward_conditions (s : State) (peer : Nat) :
    (State.arbitrateToward s peer).conditions = s.conditions := by
  simp only [State.arbitrateToward]
  (repeat' split) <;> (first | with_reducible rfl | simp)

@[simp] theorem State.openContext_quiet (s : State) (i : Fin 48) (role : HandoverRole) (peer : Nat) (claimLevel : Option Nat) :
    (State.openContext s i role peer claimLevel).quiet = s.quiet := by
  simp only [State.openContext]
  (repeat' split) <;> (first | with_reducible rfl | simp)

@[simp] theorem State.openContext_calm (s : State) (i : Fin 48) (role : HandoverRole) (peer : Nat) (claimLevel : Option Nat) :
    (State.openContext s i role peer claimLevel).calm = s.calm := by
  simp only [State.openContext]
  (repeat' split) <;> (first | with_reducible rfl | simp)

@[simp] theorem State.openContext_air (s : State) (i : Fin 48) (role : HandoverRole) (peer : Nat) (claimLevel : Option Nat) :
    (State.openContext s i role peer claimLevel).air = s.air := by
  simp only [State.openContext]
  (repeat' split) <;> (first | with_reducible rfl | simp)

@[simp] theorem State.openContext_cells (s : State) (i : Fin 48) (role : HandoverRole) (peer : Nat) (claimLevel : Option Nat) :
    (State.openContext s i role peer claimLevel).cells = s.cells := by
  simp only [State.openContext]
  (repeat' split) <;> (first | with_reducible rfl | simp)

@[simp] theorem State.openContext_pool (s : State) (i : Fin 48) (role : HandoverRole) (peer : Nat) (claimLevel : Option Nat) :
    (State.openContext s i role peer claimLevel).pool = s.pool := by
  simp only [State.openContext]
  (repeat' split) <;> (first | with_reducible rfl | simp)

@[simp] theorem State.openContext_sweep (s : State) (i : Fin 48) (role : HandoverRole) (peer : Nat) (claimLevel : Option Nat) :
    (State.openContext s i role peer claimLevel).sweep = s.sweep := by
  simp only [State.openContext]
  (repeat' split) <;> (first | with_reducible rfl | simp)

@[simp] theorem State.openContext_host (s : State) (i : Fin 48) (role : HandoverRole) (peer : Nat) (claimLevel : Option Nat) :
    (State.openContext s i role peer claimLevel).host = s.host := by
  simp only [State.openContext]
  (repeat' split) <;> (first | with_reducible rfl | simp)

@[simp] theorem State.openContext_conditions (s : State) (i : Fin 48) (role : HandoverRole) (peer : Nat) (claimLevel : Option Nat) :
    (State.openContext s i role peer claimLevel).conditions = s.conditions := by
  simp only [State.openContext]
  (repeat' split) <;> (first | with_reducible rfl | simp)

@[simp] theorem State.enterPaging_quiet (s : State) (i : Fin 48) :
    (State.enterPaging s i).quiet = s.quiet := rfl

@[simp] theorem State.enterPaging_calm (s : State) (i : Fin 48) :
    (State.enterPaging s i).calm = s.calm := rfl

@[simp] theorem State.fallToPaging_quiet (s : State) (i : Fin 48) (peer : Nat) :
    (State.fallToPaging s i peer).quiet = s.quiet := by
  simp only [State.fallToPaging]
  (repeat' split) <;> (first | with_reducible rfl | simp)

@[simp] theorem State.fallToPaging_calm (s : State) (i : Fin 48) (peer : Nat) :
    (State.fallToPaging s i peer).calm = s.calm := by
  simp only [State.fallToPaging]
  (repeat' split) <;> (first | with_reducible rfl | simp)

@[simp] theorem State.fallToPaging_air (s : State) (i : Fin 48) (peer : Nat) :
    (State.fallToPaging s i peer).air = s.air := by
  simp only [State.fallToPaging]
  (repeat' split) <;> (first | with_reducible rfl | simp)

@[simp] theorem State.fallToPaging_cells (s : State) (i : Fin 48) (peer : Nat) :
    (State.fallToPaging s i peer).cells = s.cells := by
  simp only [State.fallToPaging]
  (repeat' split) <;> (first | with_reducible rfl | simp)

@[simp] theorem State.fallToPaging_pool (s : State) (i : Fin 48) (peer : Nat) :
    (State.fallToPaging s i peer).pool = s.pool := by
  simp only [State.fallToPaging]
  (repeat' split) <;> (first | with_reducible rfl | simp)

@[simp] theorem State.fallToPaging_ports (s : State) (i : Fin 48) (peer : Nat) :
    (State.fallToPaging s i peer).ports = s.ports := by
  simp only [State.fallToPaging]
  (repeat' split) <;> (first | with_reducible rfl | simp)

@[simp] theorem State.fallToPaging_sweep (s : State) (i : Fin 48) (peer : Nat) :
    (State.fallToPaging s i peer).sweep = s.sweep := by
  simp only [State.fallToPaging]
  (repeat' split) <;> (first | with_reducible rfl | simp)

@[simp] theorem State.fallToPaging_host (s : State) (i : Fin 48) (peer : Nat) :
    (State.fallToPaging s i peer).host = s.host := by
  simp only [State.fallToPaging]
  (repeat' split) <;> (first | with_reducible rfl | simp)

@[simp] theorem State.fallToPaging_conditions (s : State) (i : Fin 48) (peer : Nat) :
    (State.fallToPaging s i peer).conditions = s.conditions := by
  simp only [State.fallToPaging]
  (repeat' split) <;> (first | with_reducible rfl | simp)

@[simp] theorem State.lapseClaim_quiet (s : State) (i : Fin 48) :
    (State.lapseClaim s i).quiet = s.quiet := by
  simp only [State.lapseClaim]
  (repeat' split) <;> (first | with_reducible rfl | simp)

@[simp] theorem State.lapseClaim_calm (s : State) (i : Fin 48) :
    (State.lapseClaim s i).calm = s.calm := by
  simp only [State.lapseClaim]
  (repeat' split) <;> (first | with_reducible rfl | simp)

@[simp] theorem State.lapseClaim_air (s : State) (i : Fin 48) :
    (State.lapseClaim s i).air = s.air := by
  simp only [State.lapseClaim]
  (repeat' split) <;> (first | with_reducible rfl | simp)

@[simp] theorem State.lapseClaim_cells (s : State) (i : Fin 48) :
    (State.lapseClaim s i).cells = s.cells := by
  simp only [State.lapseClaim]
  (repeat' split) <;> (first | with_reducible rfl | simp)

@[simp] theorem State.lapseClaim_pool (s : State) (i : Fin 48) :
    (State.lapseClaim s i).pool = s.pool := by
  simp only [State.lapseClaim]
  (repeat' split) <;> (first | with_reducible rfl | simp)

@[simp] theorem State.lapseClaim_ports (s : State) (i : Fin 48) :
    (State.lapseClaim s i).ports = s.ports := by
  simp only [State.lapseClaim]
  (repeat' split) <;> (first | with_reducible rfl | simp)

@[simp] theorem State.lapseClaim_sweep (s : State) (i : Fin 48) :
    (State.lapseClaim s i).sweep = s.sweep := by
  simp only [State.lapseClaim]
  (repeat' split) <;> (first | with_reducible rfl | simp)

@[simp] theorem State.lapseClaim_conditions (s : State) (i : Fin 48) :
    (State.lapseClaim s i).conditions = s.conditions := by
  simp only [State.lapseClaim]
  (repeat' split) <;> (first | with_reducible rfl | simp)

@[simp] theorem State.loseContext_quiet (s : State) (i : Fin 48) :
    (State.loseContext s i).quiet = s.quiet := by
  simp only [State.loseContext]
  (repeat' split) <;> (first | with_reducible rfl | simp)

@[simp] theorem State.loseContext_calm (s : State) (i : Fin 48) :
    (State.loseContext s i).calm = s.calm := by
  simp only [State.loseContext]
  (repeat' split) <;> (first | with_reducible rfl | simp)

@[simp] theorem State.loseContext_air (s : State) (i : Fin 48) :
    (State.loseContext s i).air = s.air := by
  simp only [State.loseContext]
  (repeat' split) <;> (first | with_reducible rfl | simp)

@[simp] theorem State.loseContext_cells (s : State) (i : Fin 48) :
    (State.loseContext s i).cells = s.cells := by
  simp only [State.loseContext]
  (repeat' split) <;> (first | with_reducible rfl | simp)

@[simp] theorem State.loseContext_pool (s : State) (i : Fin 48) :
    (State.loseContext s i).pool = s.pool := by
  simp only [State.loseContext]
  (repeat' split) <;> (first | with_reducible rfl | simp)

@[simp] theorem State.loseContext_ports (s : State) (i : Fin 48) :
    (State.loseContext s i).ports = s.ports := by
  simp only [State.loseContext]
  (repeat' split) <;> (first | with_reducible rfl | simp)

@[simp] theorem State.loseContext_sweep (s : State) (i : Fin 48) :
    (State.loseContext s i).sweep = s.sweep := by
  simp only [State.loseContext]
  (repeat' split) <;> (first | with_reducible rfl | simp)

@[simp] theorem State.loseContext_conditions (s : State) (i : Fin 48) :
    (State.loseContext s i).conditions = s.conditions := by
  simp only [State.loseContext]
  (repeat' split) <;> (first | with_reducible rfl | simp)

@[simp] theorem State.losePort_quiet (s : State) (p : Port) :
    (State.losePort s p).quiet = s.quiet := by
  simp only [State.losePort]
  (repeat' split) <;> first
    | (simp; done)
    | (refine (foldl_keep (fun t : State => t.quiet) _ ?_ _ _).trans ?_ <;> (try intro _ _) <;> (repeat' split) <;> simp)
    | (simp only [State.modifyRecord_quiet]; refine (foldl_keep (fun t : State => t.quiet) _ ?_ _ _).trans ?_ <;> (try intro _ _) <;> (repeat' split) <;> simp)

@[simp] theorem State.losePort_calm (s : State) (p : Port) :
    (State.losePort s p).calm = s.calm := by
  simp only [State.losePort]
  (repeat' split) <;> first
    | (simp; done)
    | (refine (foldl_keep (fun t : State => t.calm) _ ?_ _ _).trans ?_ <;> (try intro _ _) <;> (repeat' split) <;> simp)
    | (simp only [State.modifyRecord_calm]; refine (foldl_keep (fun t : State => t.calm) _ ?_ _ _).trans ?_ <;> (try intro _ _) <;> (repeat' split) <;> simp)

@[simp] theorem State.losePort_air (s : State) (p : Port) :
    (State.losePort s p).air = s.air := by
  simp only [State.losePort]
  (repeat' split) <;> first
    | (simp; done)
    | (refine (foldl_keep (fun t : State => t.air) _ ?_ _ _).trans ?_ <;> (try intro _ _) <;> (repeat' split) <;> simp)
    | (simp only [State.modifyRecord_air]; refine (foldl_keep (fun t : State => t.air) _ ?_ _ _).trans ?_ <;> (try intro _ _) <;> (repeat' split) <;> simp)

@[simp] theorem State.losePort_cells (s : State) (p : Port) :
    (State.losePort s p).cells = s.cells := by
  simp only [State.losePort]
  (repeat' split) <;> first
    | (simp; done)
    | (refine (foldl_keep (fun t : State => t.cells) _ ?_ _ _).trans ?_ <;> (try intro _ _) <;> (repeat' split) <;> simp)
    | (simp only [State.modifyRecord_cells]; refine (foldl_keep (fun t : State => t.cells) _ ?_ _ _).trans ?_ <;> (try intro _ _) <;> (repeat' split) <;> simp)

@[simp] theorem State.losePort_pool (s : State) (p : Port) :
    (State.losePort s p).pool = s.pool := by
  simp only [State.losePort]
  (repeat' split) <;> first
    | (simp; done)
    | (refine (foldl_keep (fun t : State => t.pool) _ ?_ _ _).trans ?_ <;> (try intro _ _) <;> (repeat' split) <;> simp)
    | (simp only [State.modifyRecord_pool]; refine (foldl_keep (fun t : State => t.pool) _ ?_ _ _).trans ?_ <;> (try intro _ _) <;> (repeat' split) <;> simp)

@[simp] theorem State.losePort_ports (s : State) (p : Port) :
    (State.losePort s p).ports = s.ports := by
  simp only [State.losePort]
  (repeat' split) <;> first
    | (simp; done)
    | (refine (foldl_keep (fun t : State => t.ports) _ ?_ _ _).trans ?_ <;> (try intro _ _) <;> (repeat' split) <;> simp)
    | (simp only [State.modifyRecord_ports]; refine (foldl_keep (fun t : State => t.ports) _ ?_ _ _).trans ?_ <;> (try intro _ _) <;> (repeat' split) <;> simp)

@[simp] theorem State.losePort_sweep (s : State) (p : Port) :
    (State.losePort s p).sweep = s.sweep := by
  simp only [State.losePort]
  (repeat' split) <;> first
    | (simp; done)
    | (refine (foldl_keep (fun t : State => t.sweep) _ ?_ _ _).trans ?_ <;> (try intro _ _) <;> (repeat' split) <;> simp)
    | (simp only [State.modifyRecord_sweep]; refine (foldl_keep (fun t : State => t.sweep) _ ?_ _ _).trans ?_ <;> (try intro _ _) <;> (repeat' split) <;> simp)

@[simp] theorem State.losePort_conditions (s : State) (p : Port) :
    (State.losePort s p).conditions = s.conditions := by
  simp only [State.losePort]
  (repeat' split) <;> first
    | (simp; done)
    | (refine (foldl_keep (fun t : State => t.conditions) _ ?_ _ _).trans ?_ <;> (try intro _ _) <;> (repeat' split) <;> simp)
    | (simp only [State.modifyRecord_conditions]; refine (foldl_keep (fun t : State => t.conditions) _ ?_ _ _).trans ?_ <;> (try intro _ _) <;> (repeat' split) <;> simp)

@[simp] theorem State.reportAllocatable_quiet (s : State) (i : Fin 48) :
    (State.reportAllocatable s i).quiet = s.quiet := by
  simp only [State.reportAllocatable]
  (repeat' split) <;> (first | with_reducible rfl | simp)

@[simp] theorem State.reportAllocatable_calm (s : State) (i : Fin 48) :
    (State.reportAllocatable s i).calm = s.calm := by
  simp only [State.reportAllocatable]
  (repeat' split) <;> (first | with_reducible rfl | simp)

@[simp] theorem State.reportAllocatable_air (s : State) (i : Fin 48) :
    (State.reportAllocatable s i).air = s.air := by
  simp only [State.reportAllocatable]
  (repeat' split) <;> (first | with_reducible rfl | simp)

@[simp] theorem State.reportAllocatable_roster (s : State) (i : Fin 48) :
    (State.reportAllocatable s i).roster = s.roster := by
  simp only [State.reportAllocatable]
  (repeat' split) <;> (first | with_reducible rfl | simp)

@[simp] theorem State.reportAllocatable_cells (s : State) (i : Fin 48) :
    (State.reportAllocatable s i).cells = s.cells := by
  simp only [State.reportAllocatable]
  (repeat' split) <;> (first | with_reducible rfl | simp)

@[simp] theorem State.reportAllocatable_pool (s : State) (i : Fin 48) :
    (State.reportAllocatable s i).pool = s.pool := by
  simp only [State.reportAllocatable]
  (repeat' split) <;> (first | with_reducible rfl | simp)

@[simp] theorem State.reportAllocatable_ports (s : State) (i : Fin 48) :
    (State.reportAllocatable s i).ports = s.ports := by
  simp only [State.reportAllocatable]
  (repeat' split) <;> (first | with_reducible rfl | simp)

@[simp] theorem State.reportAllocatable_sweep (s : State) (i : Fin 48) :
    (State.reportAllocatable s i).sweep = s.sweep := by
  simp only [State.reportAllocatable]
  (repeat' split) <;> (first | with_reducible rfl | simp)

@[simp] theorem State.reportAllocatable_host (s : State) (i : Fin 48) :
    (State.reportAllocatable s i).host = s.host := by
  simp only [State.reportAllocatable]
  (repeat' split) <;> (first | with_reducible rfl | simp)

@[simp] theorem State.dropPin_quiet (s : State) (i : Fin 48) :
    (State.dropPin s i).quiet = s.quiet := by
  simp only [State.dropPin]
  (repeat' split) <;> (first | with_reducible rfl | simp)

@[simp] theorem State.dropPin_calm (s : State) (i : Fin 48) :
    (State.dropPin s i).calm = s.calm := by
  simp only [State.dropPin]
  (repeat' split) <;> (first | with_reducible rfl | simp)

@[simp] theorem State.dropPin_air (s : State) (i : Fin 48) :
    (State.dropPin s i).air = s.air := by
  simp only [State.dropPin]
  (repeat' split) <;> (first | with_reducible rfl | simp)

@[simp] theorem State.dropPin_cells (s : State) (i : Fin 48) :
    (State.dropPin s i).cells = s.cells := by
  simp only [State.dropPin]
  (repeat' split) <;> (first | with_reducible rfl | simp)

@[simp] theorem State.dropPin_pool (s : State) (i : Fin 48) :
    (State.dropPin s i).pool = s.pool := by
  simp only [State.dropPin]
  (repeat' split) <;> (first | with_reducible rfl | simp)

@[simp] theorem State.dropPin_ports (s : State) (i : Fin 48) :
    (State.dropPin s i).ports = s.ports := by
  simp only [State.dropPin]
  (repeat' split) <;> (first | with_reducible rfl | simp)

@[simp] theorem State.dropPin_sweep (s : State) (i : Fin 48) :
    (State.dropPin s i).sweep = s.sweep := by
  simp only [State.dropPin]
  (repeat' split) <;> (first | with_reducible rfl | simp)

@[simp] theorem State.dropPin_host (s : State) (i : Fin 48) :
    (State.dropPin s i).host = s.host := by
  simp only [State.dropPin]
  (repeat' split) <;> (first | with_reducible rfl | simp)

@[simp] theorem State.dropPin_conditions (s : State) (i : Fin 48) :
    (State.dropPin s i).conditions = s.conditions := by
  simp only [State.dropPin]
  (repeat' split) <;> (first | with_reducible rfl | simp)

@[simp] theorem State.emptyRecord_quiet (s : State) (i : Fin 48) :
    (State.emptyRecord s i).quiet = s.quiet := by
  simp only [State.emptyRecord]
  (repeat' split) <;> (first | with_reducible rfl | simp)

@[simp] theorem State.emptyRecord_calm (s : State) (i : Fin 48) :
    (State.emptyRecord s i).calm = s.calm := by
  simp only [State.emptyRecord]
  (repeat' split) <;> (first | with_reducible rfl | simp)

@[simp] theorem State.emptyRecord_air (s : State) (i : Fin 48) :
    (State.emptyRecord s i).air = s.air := by
  simp only [State.emptyRecord]
  (repeat' split) <;> (first | with_reducible rfl | simp)

@[simp] theorem State.emptyRecord_cells (s : State) (i : Fin 48) :
    (State.emptyRecord s i).cells = s.cells := by
  simp only [State.emptyRecord]
  (repeat' split) <;> (first | with_reducible rfl | simp)

@[simp] theorem State.emptyRecord_pool (s : State) (i : Fin 48) :
    (State.emptyRecord s i).pool = s.pool := by
  simp only [State.emptyRecord]
  (repeat' split) <;> (first | with_reducible rfl | simp)

@[simp] theorem State.emptyRecord_ports (s : State) (i : Fin 48) :
    (State.emptyRecord s i).ports = s.ports := by
  simp only [State.emptyRecord]
  (repeat' split) <;> (first | with_reducible rfl | simp)

@[simp] theorem State.emptyRecord_sweep (s : State) (i : Fin 48) :
    (State.emptyRecord s i).sweep = s.sweep := by
  simp only [State.emptyRecord]
  (repeat' split) <;> (first | with_reducible rfl | simp)

@[simp] theorem State.emptyRecord_host (s : State) (i : Fin 48) :
    (State.emptyRecord s i).host = s.host := by
  simp only [State.emptyRecord]
  (repeat' split) <;> (first | with_reducible rfl | simp)

@[simp] theorem State.offerReasonOpt_quiet (s : State) (i : Fin 48) (x : Option Reason) :
    (State.offerReason? s i x).quiet = s.quiet := by cases x <;> simp [State.offerReason?]

@[simp] theorem State.offerReasonOpt_calm (s : State) (i : Fin 48) (x : Option Reason) :
    (State.offerReason? s i x).calm = s.calm := by cases x <;> simp [State.offerReason?]

@[simp] theorem State.offerReasonOpt_air (s : State) (i : Fin 48) (x : Option Reason) :
    (State.offerReason? s i x).air = s.air := by cases x <;> simp [State.offerReason?]

@[simp] theorem State.offerReasonOpt_roster (s : State) (i : Fin 48) (x : Option Reason) :
    (State.offerReason? s i x).roster = s.roster := by cases x <;> simp [State.offerReason?]

@[simp] theorem State.offerReasonOpt_cells (s : State) (i : Fin 48) (x : Option Reason) :
    (State.offerReason? s i x).cells = s.cells := by cases x <;> simp [State.offerReason?]

@[simp] theorem State.offerReasonOpt_pool (s : State) (i : Fin 48) (x : Option Reason) :
    (State.offerReason? s i x).pool = s.pool := by cases x <;> simp [State.offerReason?]

@[simp] theorem State.offerReasonOpt_ports (s : State) (i : Fin 48) (x : Option Reason) :
    (State.offerReason? s i x).ports = s.ports := by cases x <;> simp [State.offerReason?]

@[simp] theorem State.offerReasonOpt_sweep (s : State) (i : Fin 48) (x : Option Reason) :
    (State.offerReason? s i x).sweep = s.sweep := by cases x <;> simp [State.offerReason?]

@[simp] theorem State.offerReasonOpt_conditions (s : State) (i : Fin 48) (x : Option Reason) :
    (State.offerReason? s i x).conditions = s.conditions := by cases x <;> simp [State.offerReason?]

@[simp] theorem State.becomeFree_quiet (s : State) (i : Fin 48) (notes : Bool) (reason : Option Reason) :
    (State.becomeFree s i notes reason).quiet = s.quiet := by
  simp only [State.becomeFree]
  (repeat' split) <;> (first | with_reducible rfl | simp)

@[simp] theorem State.becomeFree_calm (s : State) (i : Fin 48) (notes : Bool) (reason : Option Reason) :
    (State.becomeFree s i notes reason).calm = s.calm := by
  simp only [State.becomeFree]
  (repeat' split) <;> (first | with_reducible rfl | simp)

@[simp] theorem State.giveUpTurn_quiet (s : State) (i : Fin 48) :
    (State.giveUpTurn s i).quiet = s.quiet := by
  simp only [State.giveUpTurn]
  (repeat' split) <;> (first | with_reducible rfl | simp)

@[simp] theorem State.giveUpTurn_calm (s : State) (i : Fin 48) :
    (State.giveUpTurn s i).calm = s.calm := by
  simp only [State.giveUpTurn]
  (repeat' split) <;> (first | with_reducible rfl | simp)

@[simp] theorem State.giveUpTurn_air (s : State) (i : Fin 48) :
    (State.giveUpTurn s i).air = s.air := by
  simp only [State.giveUpTurn]
  (repeat' split) <;> (first | with_reducible rfl | simp)

@[simp] theorem State.giveUpTurn_pool (s : State) (i : Fin 48) :
    (State.giveUpTurn s i).pool = s.pool := by
  simp only [State.giveUpTurn]
  (repeat' split) <;> (first | with_reducible rfl | simp)

@[simp] theorem State.giveUpTurn_ports (s : State) (i : Fin 48) :
    (State.giveUpTurn s i).ports = s.ports := by
  simp only [State.giveUpTurn]
  (repeat' split) <;> (first | with_reducible rfl | simp)

@[simp] theorem State.giveUpTurn_sweep (s : State) (i : Fin 48) :
    (State.giveUpTurn s i).sweep = s.sweep := by
  simp only [State.giveUpTurn]
  (repeat' split) <;> (first | with_reducible rfl | simp)

@[simp] theorem State.giveUpTurn_host (s : State) (i : Fin 48) :
    (State.giveUpTurn s i).host = s.host := by
  simp only [State.giveUpTurn]
  (repeat' split) <;> (first | with_reducible rfl | simp)

@[simp] theorem State.becomeDormant_quiet (s : State) (i : Fin 48) :
    (State.becomeDormant s i).quiet = s.quiet := by
  simp only [State.becomeDormant]
  (repeat' split) <;> (first | with_reducible rfl | simp)

@[simp] theorem State.becomeDormant_calm (s : State) (i : Fin 48) :
    (State.becomeDormant s i).calm = s.calm := by
  simp only [State.becomeDormant]
  (repeat' split) <;> (first | with_reducible rfl | simp)

@[simp] theorem State.becomeDormant_air (s : State) (i : Fin 48) :
    (State.becomeDormant s i).air = s.air := by
  simp only [State.becomeDormant]
  (repeat' split) <;> (first | with_reducible rfl | simp)

@[simp] theorem State.becomeDormant_cells (s : State) (i : Fin 48) :
    (State.becomeDormant s i).cells = s.cells := by
  simp only [State.becomeDormant]
  (repeat' split) <;> (first | with_reducible rfl | simp)

@[simp] theorem State.becomeDormant_pool (s : State) (i : Fin 48) :
    (State.becomeDormant s i).pool = s.pool := by
  simp only [State.becomeDormant]
  (repeat' split) <;> (first | with_reducible rfl | simp)

@[simp] theorem State.becomeDormant_ports (s : State) (i : Fin 48) :
    (State.becomeDormant s i).ports = s.ports := by
  simp only [State.becomeDormant]
  (repeat' split) <;> (first | with_reducible rfl | simp)

@[simp] theorem State.becomeDormant_sweep (s : State) (i : Fin 48) :
    (State.becomeDormant s i).sweep = s.sweep := by
  simp only [State.becomeDormant]
  (repeat' split) <;> (first | with_reducible rfl | simp)

@[simp] theorem State.becomeDormant_conditions (s : State) (i : Fin 48) :
    (State.becomeDormant s i).conditions = s.conditions := by
  simp only [State.becomeDormant]
  (repeat' split) <;> (first | with_reducible rfl | simp)

@[simp] theorem State.releaseRecord_quiet (s : State) (i : Fin 48) :
    (State.releaseRecord s i).quiet = s.quiet := by
  simp only [State.releaseRecord]
  (repeat' split) <;> (first | with_reducible rfl | simp)

@[simp] theorem State.releaseRecord_calm (s : State) (i : Fin 48) :
    (State.releaseRecord s i).calm = s.calm := by
  simp only [State.releaseRecord]
  (repeat' split) <;> (first | with_reducible rfl | simp)

@[simp] theorem State.releaseRecord_pool (s : State) (i : Fin 48) :
    (State.releaseRecord s i).pool = s.pool := by
  simp only [State.releaseRecord]
  (repeat' split) <;> (first | with_reducible rfl | simp)

@[simp] theorem State.releaseRecord_ports (s : State) (i : Fin 48) :
    (State.releaseRecord s i).ports = s.ports := by
  simp only [State.releaseRecord]
  (repeat' split) <;> (first | with_reducible rfl | simp)

@[simp] theorem State.releaseRecord_sweep (s : State) (i : Fin 48) :
    (State.releaseRecord s i).sweep = s.sweep := by
  simp only [State.releaseRecord]
  (repeat' split) <;> (first | with_reducible rfl | simp)

@[simp] theorem State.applyReading_quiet (s : State) (i : Fin 48) (reading : Nat) :
    (State.applyReading s i reading).quiet = s.quiet := by
  simp only [State.applyReading]
  (repeat' split) <;> (first | with_reducible rfl | simp)

@[simp] theorem State.applyReading_calm (s : State) (i : Fin 48) (reading : Nat) :
    (State.applyReading s i reading).calm = s.calm := by
  simp only [State.applyReading]
  (repeat' split) <;> (first | with_reducible rfl | simp)

@[simp] theorem State.startMessage_quiet (s : State) (i : Fin 48) (b : Fin 64) :
    (State.startMessage s i b).quiet = s.quiet := by
  simp only [State.startMessage]
  (repeat' split) <;> (first | with_reducible rfl | simp)

@[simp] theorem State.startMessage_calm (s : State) (i : Fin 48) (b : Fin 64) :
    (State.startMessage s i b).calm = s.calm := by
  simp only [State.startMessage]
  (repeat' split) <;> (first | with_reducible rfl | simp)

@[simp] theorem State.startForPoll_quiet (s : State) (i : Fin 48) :
    (State.startForPoll s i).quiet = s.quiet := by
  simp only [State.startForPoll]
  (repeat' split) <;> (first | with_reducible rfl | simp)

@[simp] theorem State.startForPoll_calm (s : State) (i : Fin 48) :
    (State.startForPoll s i).calm = s.calm := by
  simp only [State.startForPoll]
  (repeat' split) <;> (first | with_reducible rfl | simp)

@[simp] theorem State.retireMessage_quiet (s : State) (i : Fin 48) (b : Fin 64) :
    (State.retireMessage s i b).quiet = s.quiet := by
  simp only [State.retireMessage]
  (repeat' split) <;> (first | with_reducible rfl | simp)

@[simp] theorem State.retireMessage_calm (s : State) (i : Fin 48) (b : Fin 64) :
    (State.retireMessage s i b).calm = s.calm := by
  simp only [State.retireMessage]
  (repeat' split) <;> (first | with_reducible rfl | simp)

@[simp] theorem State.deliverMessage_quiet (s : State) (i : Fin 48) :
    (State.deliverMessage s i).quiet = s.quiet := by
  simp only [State.deliverMessage]
  (repeat' split) <;> (first | with_reducible rfl | simp)

@[simp] theorem State.deliverMessage_calm (s : State) (i : Fin 48) :
    (State.deliverMessage s i).calm = s.calm := by
  simp only [State.deliverMessage]
  (repeat' split) <;> (first | with_reducible rfl | simp)

@[simp] theorem State.failMessage_quiet (s : State) (i : Fin 48) :
    (State.failMessage s i).quiet = s.quiet := by
  simp only [State.failMessage]
  (repeat' split) <;> (first | with_reducible rfl | simp)

@[simp] theorem State.failMessage_calm (s : State) (i : Fin 48) :
    (State.failMessage s i).calm = s.calm := by
  simp only [State.failMessage]
  (repeat' split) <;> (first | with_reducible rfl | simp)

@[simp] theorem State.acceptUpBit_quiet (s : State) (i : Fin 48) (b : Bool) :
    (State.acceptUpBit s i b).quiet = s.quiet := by
  simp only [State.acceptUpBit]
  (repeat' split) <;> (first | with_reducible rfl | simp)

@[simp] theorem State.acceptUpBit_calm (s : State) (i : Fin 48) (b : Bool) :
    (State.acceptUpBit s i b).calm = s.calm := by
  simp only [State.acceptUpBit]
  (repeat' split) <;> (first | with_reducible rfl | simp)

@[simp] theorem State.queueInbound_calm (s : State) (i : Fin 48) (body : List Byte) :
    (State.queueInbound s i body).calm = s.calm := by
  simp only [State.queueInbound]
  (repeat' split) <;> (first | with_reducible rfl | simp)

@[simp] theorem State.placeUplink_quiet (s : State) (i : Fin 48) (body : List Byte) :
    (State.placeUplink s i body).quiet = s.quiet := by
  simp only [State.placeUplink]
  (repeat' split) <;> (first | with_reducible rfl | simp)

@[simp] theorem State.placeUplink_calm (s : State) (i : Fin 48) (body : List Byte) :
    (State.placeUplink s i body).calm = s.calm := by
  simp only [State.placeUplink]
  (repeat' split) <;> (first | with_reducible rfl | simp)

@[simp] theorem State.takeInbound_calm (s : State) (i : Fin 48) (m : AnswerMessage) :
    (State.takeInbound s i m).calm = s.calm := by
  simp only [State.takeInbound]
  (repeat' split) <;> (first | with_reducible rfl | simp)

@[simp] theorem State.ageCells_quiet (s : State) :
    (State.ageCells s).quiet = s.quiet := by
  simp only [State.ageCells]
  (repeat' split) <;> (first | with_reducible rfl | simp)

@[simp] theorem State.ageCells_calm (s : State) :
    (State.ageCells s).calm = s.calm := by
  simp only [State.ageCells]
  (repeat' split) <;> (first | with_reducible rfl | simp)

@[simp] theorem State.endCycle_quiet (s : State) :
    (State.endCycle s).quiet = s.quiet := by
  simp only [State.endCycle]
  (repeat' split) <;> (first | with_reducible rfl | simp)

@[simp] theorem State.endCycle_calm (s : State) :
    (State.endCycle s).calm = s.calm := by
  simp only [State.endCycle]
  (repeat' split) <;> (first | with_reducible rfl | simp)

@[simp] theorem State.lend_quiet (s : State) (i : Fin 48) (slot : Nat) :
    (State.lend s i slot).quiet = s.quiet := by
  simp only [State.lend]
  (repeat' split) <;> (first | with_reducible rfl | simp)

@[simp] theorem State.lend_calm (s : State) (i : Fin 48) (slot : Nat) :
    (State.lend s i slot).calm = s.calm := by
  simp only [State.lend]
  (repeat' split) <;> (first | with_reducible rfl | simp)

@[simp] theorem State.reserveRetune_quiet (s : State) (i : Fin 48) (t : Turn) :
    (State.reserveRetune s i t).quiet = s.quiet := by
  simp only [State.reserveRetune]
  (repeat' split) <;> (first | with_reducible rfl | simp)

@[simp] theorem State.reserveRetune_calm (s : State) (i : Fin 48) (t : Turn) :
    (State.reserveRetune s i t).calm = s.calm := by
  simp only [State.reserveRetune]
  (repeat' split) <;> (first | with_reducible rfl | simp)

@[simp] theorem State.confirmRetune_quiet (s : State) (i : Fin 48) :
    (State.confirmRetune s i).quiet = s.quiet := by
  simp only [State.confirmRetune]
  (repeat' split) <;> (first | with_reducible rfl | simp)

@[simp] theorem State.confirmRetune_calm (s : State) (i : Fin 48) :
    (State.confirmRetune s i).calm = s.calm := by
  simp only [State.confirmRetune]
  (repeat' split) <;> (first | with_reducible rfl | simp)

@[simp] theorem State.failRetune_quiet (s : State) (i : Fin 48) :
    (State.failRetune s i).quiet = s.quiet := by
  simp only [State.failRetune]
  (repeat' split) <;> (first | with_reducible rfl | simp)

@[simp] theorem State.failRetune_calm (s : State) (i : Fin 48) :
    (State.failRetune s i).calm = s.calm := by
  simp only [State.failRetune]
  (repeat' split) <;> (first | with_reducible rfl | simp)

@[simp] theorem State.tryRetune_quiet (s : State) (i : Fin 48) :
    (State.tryRetune s i).quiet = s.quiet := by
  simp only [State.tryRetune]
  (repeat' split) <;> (first | with_reducible rfl | simp)

@[simp] theorem State.tryRetune_calm (s : State) (i : Fin 48) :
    (State.tryRetune s i).calm = s.calm := by
  simp only [State.tryRetune]
  (repeat' split) <;> (first | with_reducible rfl | simp)

@[simp] theorem State.openClaim_quiet (s : State) (i : Fin 48) (peer level : Nat) :
    (State.openClaim s i peer level).quiet = s.quiet := by
  simp only [State.openClaim]
  (repeat' split) <;> (first | with_reducible rfl | simp)

@[simp] theorem State.openClaim_calm (s : State) (i : Fin 48) (peer level : Nat) :
    (State.openClaim s i peer level).calm = s.calm := by
  simp only [State.openClaim]
  (repeat' split) <;> (first | with_reducible rfl | simp)

@[simp] theorem State.refuseHail_quiet (s : State) (c : ConditionClass) :
    (State.refuseHail s c).quiet = s.quiet := by
  simp only [State.refuseHail]
  (repeat' split) <;> (first | with_reducible rfl | simp)

@[simp] theorem State.refuseHail_calm (s : State) (c : ConditionClass) :
    (State.refuseHail s c).calm = s.calm := by
  simp only [State.refuseHail]
  (repeat' split) <;> (first | with_reducible rfl | simp)

@[simp] theorem State.allocateTurn_quiet (s : State) (i : Fin 48) (t : Turn) :
    (State.allocateTurn s i t).quiet = s.quiet := by
  simp only [State.allocateTurn]
  (repeat' split) <;> (first | with_reducible rfl | simp)

@[simp] theorem State.allocateTurn_calm (s : State) (i : Fin 48) (t : Turn) :
    (State.allocateTurn s i t).calm = s.calm := by
  simp only [State.allocateTurn]
  (repeat' split) <;> (first | with_reducible rfl | simp)

@[simp] theorem State.noteDegrade_quiet (s : State) (i : Fin 48) (asked granted : Period) :
    (State.noteDegrade s i asked granted).quiet = s.quiet := by
  simp only [State.noteDegrade]
  (repeat' split) <;> (first | with_reducible rfl | simp)

@[simp] theorem State.noteDegrade_calm (s : State) (i : Fin 48) (asked granted : Period) :
    (State.noteDegrade s i asked granted).calm = s.calm := by
  simp only [State.noteDegrade]
  (repeat' split) <;> (first | with_reducible rfl | simp)

@[simp] theorem State.admit_quiet (s : State) (h : Hail) (level : Nat) :
    (State.admitCar s h level).quiet = s.quiet := by
  simp only [State.admitCar]
  (repeat' split) <;> (first | with_reducible rfl | simp)

@[simp] theorem State.admit_calm (s : State) (h : Hail) (level : Nat) :
    (State.admitCar s h level).calm = s.calm := by
  simp only [State.admitCar]
  (repeat' split) <;> (first | with_reducible rfl | simp)

@[simp] theorem State.regrant_quiet (s : State) (i : Fin 48) (level : Nat) :
    (State.regrant s i level).quiet = s.quiet := by
  simp only [State.regrant]
  (repeat' split) <;> (first | with_reducible rfl | simp)

@[simp] theorem State.regrant_calm (s : State) (i : Fin 48) (level : Nat) :
    (State.regrant s i level).calm = s.calm := by
  simp only [State.regrant]
  (repeat' split) <;> (first | with_reducible rfl | simp)

@[simp] theorem State.reenter_quiet (s : State) (i : Fin 48) (h : Hail) (level : Nat) :
    (State.reenter s i h level).quiet = s.quiet := by
  simp only [State.reenter]
  (repeat' split) <;> (first | with_reducible rfl | simp)

@[simp] theorem State.reenter_calm (s : State) (i : Fin 48) (h : Hail) (level : Nat) :
    (State.reenter s i h level).calm = s.calm := by
  simp only [State.reenter]
  (repeat' split) <;> (first | with_reducible rfl | simp)

@[simp] theorem State.revive_quiet (s : State) (i : Fin 48) (h : Hail) (level : Nat) :
    (State.revive s i h level).quiet = s.quiet := by
  simp only [State.revive]
  (repeat' split) <;> (first | with_reducible rfl | simp)

@[simp] theorem State.revive_calm (s : State) (i : Fin 48) (h : Hail) (level : Nat) :
    (State.revive s i h level).calm = s.calm := by
  simp only [State.revive]
  (repeat' split) <;> (first | with_reducible rfl | simp)

@[simp] theorem State.decideHail_quiet (s : State) (h : Hail) (level : Nat) :
    (State.decideHail s h level).quiet = s.quiet := by
  simp only [State.decideHail]
  (repeat' split) <;> (first | with_reducible rfl | simp)

@[simp] theorem State.decideHail_calm (s : State) (h : Hail) (level : Nat) :
    (State.decideHail s h level).calm = s.calm := by
  simp only [State.decideHail]
  (repeat' split) <;> (first | with_reducible rfl | simp)

@[simp] theorem State.lapseGrant_quiet (s : State) (i : Fin 48) :
    (State.lapseGrant s i).quiet = s.quiet := by
  simp only [State.lapseGrant]
  (repeat' split) <;> (first | with_reducible rfl | simp)

@[simp] theorem State.lapseGrant_calm (s : State) (i : Fin 48) :
    (State.lapseGrant s i).calm = s.calm := by
  simp only [State.lapseGrant]
  (repeat' split) <;> (first | with_reducible rfl | simp)

@[simp] theorem State.lapse_quiet (s : State) (i : Fin 48) :
    (State.lapse s i).quiet = s.quiet := by
  simp only [State.lapse]
  (repeat' split) <;> (first | with_reducible rfl | simp)

@[simp] theorem State.lapse_calm (s : State) (i : Fin 48) :
    (State.lapse s i).calm = s.calm := by
  simp only [State.lapse]
  (repeat' split) <;> (first | with_reducible rfl | simp)

@[simp] theorem State.takeIdentity_quiet (s : State) (i : Fin 48) :
    (State.takeIdentity s i).quiet = s.quiet := by
  simp only [State.takeIdentity]
  (repeat' split) <;> (first | with_reducible rfl | simp)

@[simp] theorem State.takeIdentity_calm (s : State) (i : Fin 48) :
    (State.takeIdentity s i).calm = s.calm := by
  simp only [State.takeIdentity]
  (repeat' split) <;> (first | with_reducible rfl | simp)

@[simp] theorem State.clearMisses_quiet (s : State) (i : Fin 48) :
    (State.clearMisses s i).quiet = s.quiet := by
  simp only [State.clearMisses]
  (repeat' split) <;> (first | with_reducible rfl | simp)

@[simp] theorem State.clearMisses_calm (s : State) (i : Fin 48) :
    (State.clearMisses s i).calm = s.calm := by
  simp only [State.clearMisses]
  (repeat' split) <;> (first | with_reducible rfl | simp)

@[simp] theorem State.makeContact_quiet (s : State) (i : Fin 48) :
    (State.makeContact s i).quiet = s.quiet := by
  simp only [State.makeContact]
  (repeat' split) <;> (first | with_reducible rfl | simp)

@[simp] theorem State.makeContact_calm (s : State) (i : Fin 48) :
    (State.makeContact s i).calm = s.calm := by
  simp only [State.makeContact]
  (repeat' split) <;> (first | with_reducible rfl | simp)

@[simp] theorem State.judgeAck_quiet (s : State) (i : Fin 48) (poll : Poll) (downAck : Bool) :
    (State.judgeAck s i poll downAck).quiet = s.quiet := by
  simp only [State.judgeAck]
  (repeat' split) <;> (first | with_reducible rfl | simp)

@[simp] theorem State.judgeAck_calm (s : State) (i : Fin 48) (poll : Poll) (downAck : Bool) :
    (State.judgeAck s i poll downAck).calm = s.calm := by
  simp only [State.judgeAck]
  (repeat' split) <;> (first | with_reducible rfl | simp)

@[simp] theorem State.takeAnswerMessage_calm (s : State) (i : Fin 48) (a : Answer) :
    (State.takeAnswerMessage s i a).calm = s.calm := by
  simp only [State.takeAnswerMessage]
  (repeat' split) <;> (first | with_reducible rfl | simp)

@[simp] theorem State.matchedExchange_calm (s : State) (i : Fin 48) (poll : Poll) (a : Answer) (level slot : Nat) :
    (State.matchedExchange s i poll a level slot).calm = s.calm := by
  simp only [State.matchedExchange]
  (repeat' split) <;> (first | with_reducible rfl | simp)

@[simp] theorem State.countMiss_quiet (s : State) (i : Fin 48) (own : Bool) :
    (State.countMiss s i own).quiet = s.quiet := by
  simp only [State.countMiss]
  (repeat' split) <;> (first | with_reducible rfl | simp)

@[simp] theorem State.countMiss_calm (s : State) (i : Fin 48) (own : Bool) :
    (State.countMiss s i own).calm = s.calm := by
  simp only [State.countMiss]
  (repeat' split) <;> (first | with_reducible rfl | simp)

@[simp] theorem State.countMismatch_quiet (s : State) (i : Fin 48) :
    (State.countMismatch s i).quiet = s.quiet := by
  simp only [State.countMismatch]
  (repeat' split) <;> (first | with_reducible rfl | simp)

@[simp] theorem State.countMismatch_calm (s : State) (i : Fin 48) :
    (State.countMismatch s i).calm = s.calm := by
  simp only [State.countMismatch]
  (repeat' split) <;> (first | with_reducible rfl | simp)

@[simp] theorem State.noteOutcome_quiet (s : State) (i : Fin 48) (own : Bool) (o : ExchangeOutcome) :
    (State.noteOutcome s i own o).quiet = s.quiet := by
  simp only [State.noteOutcome]
  (repeat' split) <;> (first | with_reducible rfl | simp)

@[simp] theorem State.noteOutcome_calm (s : State) (i : Fin 48) (own : Bool) (o : ExchangeOutcome) :
    (State.noteOutcome s i own o).calm = s.calm := by
  simp only [State.noteOutcome]
  (repeat' split) <;> (first | with_reducible rfl | simp)

@[simp] theorem State.missedExchange_quiet (s : State) (i : Fin 48) (own : Bool) (poll : Poll) (o : ExchangeOutcome) :
    (State.missedExchange s i own poll o).quiet = s.quiet := by
  simp only [State.missedExchange]
  (repeat' split) <;> (first | with_reducible rfl | simp)

@[simp] theorem State.missedExchange_calm (s : State) (i : Fin 48) (own : Bool) (poll : Poll) (o : ExchangeOutcome) :
    (State.missedExchange s i own poll o).calm = s.calm := by
  simp only [State.missedExchange]
  (repeat' split) <;> (first | with_reducible rfl | simp)

@[simp] theorem State.completeRelease_quiet (s : State) (i : Fin 48) :
    (State.completeRelease s i).quiet = s.quiet := by
  simp only [State.completeRelease]
  (repeat' split) <;> (first | with_reducible rfl | simp)

@[simp] theorem State.completeRelease_calm (s : State) (i : Fin 48) :
    (State.completeRelease s i).calm = s.calm := by
  simp only [State.completeRelease]
  (repeat' split) <;> (first | with_reducible rfl | simp)

@[simp] theorem State.judgeExchange_calm (s : State) (x : Exchange) (sent : Bool) (slot : Nat) (o : ExchangeOutcome) :
    (State.judgeExchange s x sent slot o).calm = s.calm := by
  simp only [State.judgeExchange]
  (repeat' split) <;> (first | with_reducible rfl | simp)

@[simp] theorem State.usePage_quiet (s : State) (p : BeaconPage) :
    (State.usePage s p).quiet = s.quiet := by
  simp only [State.usePage]
  (repeat' split) <;> (first | with_reducible rfl | simp)

@[simp] theorem State.usePage_calm (s : State) (p : BeaconPage) :
    (State.usePage s p).calm = s.calm := by
  simp only [State.usePage]
  (repeat' split) <;> (first | with_reducible rfl | simp)

@[simp] theorem State.usePages_quiet (s : State) (pages : List BeaconPage) :
    (State.usePages s pages).quiet = s.quiet := by
  simp only [State.usePages]
  (repeat' split) <;> first
    | (simp; done)
    | (refine (foldl_keep (fun t : State => t.quiet) _ ?_ _ _).trans ?_ <;> (try intro _ _) <;> (repeat' split) <;> simp)
    | (simp only [State.modifyRecord_quiet]; refine (foldl_keep (fun t : State => t.quiet) _ ?_ _ _).trans ?_ <;> (try intro _ _) <;> (repeat' split) <;> simp)

@[simp] theorem State.usePages_calm (s : State) (pages : List BeaconPage) :
    (State.usePages s pages).calm = s.calm := by
  simp only [State.usePages]
  (repeat' split) <;> first
    | (simp; done)
    | (refine (foldl_keep (fun t : State => t.calm) _ ?_ _ _).trans ?_ <;> (try intro _ _) <;> (repeat' split) <;> simp)
    | (simp only [State.modifyRecord_calm]; refine (foldl_keep (fun t : State => t.calm) _ ?_ _ _).trans ?_ <;> (try intro _ _) <;> (repeat' split) <;> simp)

@[simp] theorem State.exhaust_quiet (s : State) (i : Fin 48) :
    (State.exhaust s i).quiet = s.quiet := by
  simp only [State.exhaust]
  (repeat' split) <;> (first | with_reducible rfl | simp)

@[simp] theorem State.exhaust_calm (s : State) (i : Fin 48) :
    (State.exhaust s i).calm = s.calm := by
  simp only [State.exhaust]
  (repeat' split) <;> (first | with_reducible rfl | simp)

@[simp] theorem State.exhaustPages_quiet (s : State) :
    (State.exhaustPages s).quiet = s.quiet := by
  simp only [State.exhaustPages]
  (repeat' split) <;> first
    | (simp; done)
    | (refine (foldl_keep (fun t : State => t.quiet) _ ?_ _ _).trans ?_ <;> (try intro _ _) <;> (repeat' split) <;> simp)
    | (simp only [State.modifyRecord_quiet]; refine (foldl_keep (fun t : State => t.quiet) _ ?_ _ _).trans ?_ <;> (try intro _ _) <;> (repeat' split) <;> simp)

@[simp] theorem State.exhaustPages_calm (s : State) :
    (State.exhaustPages s).calm = s.calm := by
  simp only [State.exhaustPages]
  (repeat' split) <;> first
    | (simp; done)
    | (refine (foldl_keep (fun t : State => t.calm) _ ?_ _ _).trans ?_ <;> (try intro _ _) <;> (repeat' split) <;> simp)
    | (simp only [State.modifyRecord_calm]; refine (foldl_keep (fun t : State => t.calm) _ ?_ _ _).trans ?_ <;> (try intro _ _) <;> (repeat' split) <;> simp)

@[simp] theorem State.acceptClaim_quiet (s : State) (i : Fin 48) (claimant : Nat) :
    (State.acceptClaim s i claimant).quiet = s.quiet := by
  simp only [State.acceptClaim]
  (repeat' split) <;> (first | with_reducible rfl | simp)

@[simp] theorem State.acceptClaim_calm (s : State) (i : Fin 48) (claimant : Nat) :
    (State.acceptClaim s i claimant).calm = s.calm := by
  simp only [State.acceptClaim]
  (repeat' split) <;> (first | with_reducible rfl | simp)

@[simp] theorem State.makeDue_quiet (s : State) (i : Fin 48) :
    (State.makeDue s i).quiet = s.quiet := by
  simp only [State.makeDue]
  (repeat' split) <;> (first | with_reducible rfl | simp)

@[simp] theorem State.makeDue_calm (s : State) (i : Fin 48) :
    (State.makeDue s i).calm = s.calm := by
  simp only [State.makeDue]
  (repeat' split) <;> (first | with_reducible rfl | simp)

@[simp] theorem State.takeClaim_quiet (s : State) (claimant car level : Nat) :
    (State.takeClaim s claimant car level).quiet = s.quiet := by
  simp only [State.takeClaim]
  (repeat' split) <;> (first | with_reducible rfl | simp)

@[simp] theorem State.takeClaim_calm (s : State) (claimant car level : Nat) :
    (State.takeClaim s claimant car level).calm = s.calm := by
  simp only [State.takeClaim]
  (repeat' split) <;> (first | with_reducible rfl | simp)

theorem State.placeMessages_quiet (i : Fin 48) : ∀ (ms : List TransferMessage) (s : State) (n : Nat),
    (s.placeMessages i n ms).1.quiet = s.quiet
  | [], _, _ => rfl
  | m :: ms, s, n => by
    simp only [State.placeMessages]
    split
    · rw [State.placeMessages_quiet i ms]; simp
    · rfl

@[simp] theorem State.placeMessages_fst_quiet (s : State) (i : Fin 48) (n : Nat) (ms : List TransferMessage) :
    (s.placeMessages i n ms).1.quiet = s.quiet := State.placeMessages_quiet i ms s n

@[simp] theorem State.placeMessages_fst_calm (s : State) (i : Fin 48) (n : Nat) (ms : List TransferMessage) :
    (s.placeMessages i n ms).1.calm = s.calm := State.calm_of_quiet (State.placeMessages_quiet i ms s n)

@[simp] theorem State.dropTransferred_quiet (s : State) (i : Fin 48) (car : Nat) (dropped : List TransferMessage) :
    (State.dropTransferred s i car dropped).quiet = s.quiet := by
  have h : (dropped.foldl (fun s m => s.noteFor car m.source m.receipt .dropped) s).quiet = s.quiet :=
    foldl_keep (fun t : State => t.quiet) _ (fun t m => by simp) _ _
  simp only [State.dropTransferred]
  split <;> simp [h]

@[simp] theorem State.dropTransferred_calm (s : State) (i : Fin 48) (car : Nat) (dropped : List TransferMessage) :
    (State.dropTransferred s i car dropped).calm = s.calm := by
  have h : (dropped.foldl (fun s m => s.noteFor car m.source m.receipt .dropped) s).calm = s.calm :=
    foldl_keep (fun t : State => t.calm) _ (fun t m => by simp) _ _
  simp only [State.dropTransferred]
  split <;> simp [h]

@[simp] theorem State.countPlaced_quiet (s : State) (i : Fin 48) :
    (State.countPlaced s i).quiet = s.quiet := by
  simp only [State.countPlaced]
  (repeat' split) <;> (first | with_reducible rfl | simp)

@[simp] theorem State.countPlaced_calm (s : State) (i : Fin 48) :
    (State.countPlaced s i).calm = s.calm := by
  simp only [State.countPlaced]
  (repeat' split) <;> (first | with_reducible rfl | simp)

@[simp] theorem State.placeTransfer_quiet (s : State) (i : Fin 48) (sender car cls : Nat) (messages : List TransferMessage) :
    (State.placeTransfer s i sender car cls messages).quiet = s.quiet := by
  simp only [State.placeTransfer]
  (repeat' split) <;> (first | with_reducible rfl | simp)

@[simp] theorem State.placeTransfer_calm (s : State) (i : Fin 48) (sender car cls : Nat) (messages : List TransferMessage) :
    (State.placeTransfer s i sender car cls messages).calm = s.calm := by
  simp only [State.placeTransfer]
  (repeat' split) <;> (first | with_reducible rfl | simp)

@[simp] theorem State.takeTransfer_quiet (s : State) (port : Port) (sender car cls : Nat) (messages : List TransferMessage) :
    (State.takeTransfer s port sender car cls messages).quiet = s.quiet := by
  simp only [State.takeTransfer]
  (repeat' split) <;> (first | with_reducible rfl | simp)

@[simp] theorem State.takeTransfer_calm (s : State) (port : Port) (sender car cls : Nat) (messages : List TransferMessage) :
    (State.takeTransfer s port sender car cls messages).calm = s.calm := by
  simp only [State.takeTransfer]
  (repeat' split) <;> (first | with_reducible rfl | simp)

@[simp] theorem State.takeTaken_quiet (s : State) (sender car : Nat) :
    (State.takeTaken s sender car).quiet = s.quiet := by
  simp only [State.takeTaken]
  (repeat' split) <;> (first | with_reducible rfl | simp)

@[simp] theorem State.takeTaken_calm (s : State) (sender car : Nat) :
    (State.takeTaken s sender car).calm = s.calm := by
  simp only [State.takeTaken]
  (repeat' split) <;> (first | with_reducible rfl | simp)

@[simp] theorem State.refuseClaiming_quiet (s : State) (i : Fin 48) :
    (State.refuseClaiming s i).quiet = s.quiet := by
  simp only [State.refuseClaiming]
  (repeat' split) <;> (first | with_reducible rfl | simp)

@[simp] theorem State.refuseClaiming_calm (s : State) (i : Fin 48) :
    (State.refuseClaiming s i).calm = s.calm := by
  simp only [State.refuseClaiming]
  (repeat' split) <;> (first | with_reducible rfl | simp)

@[simp] theorem State.takeRefused_quiet (s : State) (sender car : Nat) (reason : RefusedReason) :
    (State.takeRefused s sender car reason).quiet = s.quiet := by
  simp only [State.takeRefused]
  (repeat' split) <;> (first | with_reducible rfl | simp)

@[simp] theorem State.takeRefused_calm (s : State) (sender car : Nat) (reason : RefusedReason) :
    (State.takeRefused s sender car reason).calm = s.calm := by
  simp only [State.takeRefused]
  (repeat' split) <;> (first | with_reducible rfl | simp)

@[simp] theorem State.takeHandoverFrame_quiet (s : State) (port : Port) (f : BackboneFrame) :
    (State.takeHandoverFrame s port f).quiet = s.quiet := by
  simp only [State.takeHandoverFrame]
  (repeat' split) <;> (first | with_reducible rfl | simp)

@[simp] theorem State.takeHandoverFrame_calm (s : State) (port : Port) (f : BackboneFrame) :
    (State.takeHandoverFrame s port f).calm = s.calm := by
  simp only [State.takeHandoverFrame]
  (repeat' split) <;> (first | with_reducible rfl | simp)

@[simp] theorem State.nextTry_quiet (s : State) (i : Fin 48) (c : HandoverContext) :
    (State.nextTry s i c).quiet = s.quiet := by
  simp only [State.nextTry]
  (repeat' split) <;> (first | with_reducible rfl | simp)

@[simp] theorem State.nextTry_calm (s : State) (i : Fin 48) (c : HandoverContext) :
    (State.nextTry s i c).calm = s.calm := by
  simp only [State.nextTry]
  (repeat' split) <;> (first | with_reducible rfl | simp)

@[simp] theorem State.expireClaim_quiet (s : State) (i : Fin 48) (c : HandoverContext) :
    (State.expireClaim s i c).quiet = s.quiet := by
  simp only [State.expireClaim]
  (repeat' split) <;> (first | with_reducible rfl | simp)

@[simp] theorem State.expireClaim_calm (s : State) (i : Fin 48) (c : HandoverContext) :
    (State.expireClaim s i c).calm = s.calm := by
  simp only [State.expireClaim]
  (repeat' split) <;> (first | with_reducible rfl | simp)

@[simp] theorem State.expireHanding_quiet (s : State) (i : Fin 48) (c : HandoverContext) :
    (State.expireHanding s i c).quiet = s.quiet := by
  simp only [State.expireHanding]
  (repeat' split) <;> (first | with_reducible rfl | simp)

@[simp] theorem State.expireHanding_calm (s : State) (i : Fin 48) (c : HandoverContext) :
    (State.expireHanding s i c).calm = s.calm := by
  simp only [State.expireHanding]
  (repeat' split) <;> (first | with_reducible rfl | simp)

@[simp] theorem State.startRetune_quiet (s : State) (i : Fin 48) (code : Byte) :
    (State.startRetune s i code).quiet = s.quiet := by
  simp only [State.startRetune]
  (repeat' split) <;> (first | with_reducible rfl | simp)

@[simp] theorem State.startRetune_calm (s : State) (i : Fin 48) (code : Byte) :
    (State.startRetune s i code).calm = s.calm := by
  simp only [State.startRetune]
  (repeat' split) <;> (first | with_reducible rfl | simp)

@[simp] theorem State.clearFault_quiet (s : State) (i : Fin 48) :
    (State.clearFault s i).quiet = s.quiet := by
  simp only [State.clearFault]
  (repeat' split) <;> (first | with_reducible rfl | simp)

@[simp] theorem State.clearFault_calm (s : State) (i : Fin 48) :
    (State.clearFault s i).calm = s.calm := by
  simp only [State.clearFault]
  (repeat' split) <;> (first | with_reducible rfl | simp)

@[simp] theorem State.pinRecord_quiet (s : State) (i : Fin 48) :
    (State.pinRecord s i).quiet = s.quiet := by
  simp only [State.pinRecord]
  (repeat' split) <;> (first | with_reducible rfl | simp)

@[simp] theorem State.pinRecord_calm (s : State) (i : Fin 48) :
    (State.pinRecord s i).calm = s.calm := by
  simp only [State.pinRecord]
  (repeat' split) <;> (first | with_reducible rfl | simp)

@[simp] theorem State.unpinRecord_quiet (s : State) (i : Fin 48) :
    (State.unpinRecord s i).quiet = s.quiet := by
  simp only [State.unpinRecord]
  (repeat' split) <;> (first | with_reducible rfl | simp)

@[simp] theorem State.unpinRecord_calm (s : State) (i : Fin 48) :
    (State.unpinRecord s i).calm = s.calm := by
  simp only [State.unpinRecord]
  (repeat' split) <;> (first | with_reducible rfl | simp)

@[simp] theorem State.applyCommand_quiet (s : State) (i : Fin 48) (x : HeldCommand) :
    (State.applyCommand s i x).quiet = s.quiet := by cases x <;> simp [State.applyCommand]

@[simp] theorem State.applyCommand_calm (s : State) (i : Fin 48) (x : HeldCommand) :
    (State.applyCommand s i x).calm = s.calm := by cases x <;> simp [State.applyCommand]

@[simp] theorem State.takeHeld_quiet (i : Fin 48) (s : State) (w : HeldWork) :
    (State.takeHeld i s w).quiet = s.quiet := by
  simp only [State.takeHeld]
  (repeat' split) <;> (first | with_reducible rfl | simp)

@[simp] theorem State.takeHeld_calm (i : Fin 48) (s : State) (w : HeldWork) :
    (State.takeHeld i s w).calm = s.calm := by
  simp only [State.takeHeld]
  (repeat' split) <;> (first | with_reducible rfl | simp)

@[simp] theorem State.closeWindow_quiet (s : State) (i : Fin 48) :
    (State.closeWindow s i).quiet = s.quiet := by
  simp only [State.closeWindow]
  (repeat' split) <;> first
    | (simp; done)
    | (refine (foldl_keep (fun t : State => t.quiet) _ ?_ _ _).trans ?_ <;> (try intro _ _) <;> (repeat' split) <;> simp)
    | (simp only [State.modifyRecord_quiet]; refine (foldl_keep (fun t : State => t.quiet) _ ?_ _ _).trans ?_ <;> (try intro _ _) <;> (repeat' split) <;> simp)

@[simp] theorem State.closeWindow_calm (s : State) (i : Fin 48) :
    (State.closeWindow s i).calm = s.calm := by
  simp only [State.closeWindow]
  (repeat' split) <;> first
    | (simp; done)
    | (refine (foldl_keep (fun t : State => t.calm) _ ?_ _ _).trans ?_ <;> (try intro _ _) <;> (repeat' split) <;> simp)
    | (simp only [State.modifyRecord_calm]; refine (foldl_keep (fun t : State => t.calm) _ ?_ _ _).trans ?_ <;> (try intro _ _) <;> (repeat' split) <;> simp)

@[simp] theorem State.hearNeighbour_quiet (s : State) (p : Port) :
    (State.hearNeighbour s p).quiet = s.quiet := by
  simp only [State.hearNeighbour]
  (repeat' split) <;> (first | with_reducible rfl | simp)

@[simp] theorem State.hearNeighbour_calm (s : State) (p : Port) :
    (State.hearNeighbour s p).calm = s.calm := by
  simp only [State.hearNeighbour]
  (repeat' split) <;> (first | with_reducible rfl | simp)

@[simp] theorem State.admitFrame_quiet (s : State) (p : Port) (f : BackboneFrame) :
    (State.admitFrame s p f).quiet = s.quiet := by
  simp only [State.admitFrame]
  (repeat' split) <;> (first | with_reducible rfl | simp)

@[simp] theorem State.admitFrame_calm (s : State) (p : Port) (f : BackboneFrame) :
    (State.admitFrame s p f).calm = s.calm := by
  simp only [State.admitFrame]
  (repeat' split) <;> (first | with_reducible rfl | simp)

@[simp] theorem State.receiveFrame_quiet (s : State) (p : Port) (bytes : List Byte) :
    (State.receiveFrame s p bytes).quiet = s.quiet := by
  simp only [State.receiveFrame]
  (repeat' split) <;> (first | with_reducible rfl | simp)

@[simp] theorem State.receiveFrame_calm (s : State) (p : Port) (bytes : List Byte) :
    (State.receiveFrame s p bytes).calm = s.calm := by
  simp only [State.receiveFrame]
  (repeat' split) <;> (first | with_reducible rfl | simp)

@[simp] theorem State.forward_quiet (s : State) (arrived leaves : Port) (f : BackboneFrame) :
    (State.forward s arrived leaves f).quiet = s.quiet := by
  simp only [State.forward]
  (repeat' split) <;> (first | with_reducible rfl | simp)

@[simp] theorem State.forward_calm (s : State) (arrived leaves : Port) (f : BackboneFrame) :
    (State.forward s arrived leaves f).calm = s.calm := by
  simp only [State.forward]
  (repeat' split) <;> (first | with_reducible rfl | simp)

@[simp] theorem State.sendLocated_quiet (s : State) (arrived : Port) (dest : Nat) (payload : Payload) :
    (State.sendLocated s arrived dest payload).quiet = s.quiet := by
  simp only [State.sendLocated]
  (repeat' split) <;> (first | with_reducible rfl | simp)

@[simp] theorem State.sendLocated_calm (s : State) (arrived : Port) (dest : Nat) (payload : Payload) :
    (State.sendLocated s arrived dest payload).calm = s.calm := by
  simp only [State.sendLocated]
  (repeat' split) <;> (first | with_reducible rfl | simp)

@[simp] theorem State.locate_quiet (s : State) (arrived : Port) (f : BackboneFrame) (car query : Nat) :
    (State.locate s arrived f car query).quiet = s.quiet := by
  simp only [State.locate]
  (repeat' split) <;> (first | with_reducible rfl | simp)

@[simp] theorem State.locate_calm (s : State) (arrived : Port) (f : BackboneFrame) (car query : Nat) :
    (State.locate s arrived f car query).calm = s.calm := by
  simp only [State.locate]
  (repeat' split) <;> (first | with_reducible rfl | simp)

@[simp] theorem State.relayPost_quiet (s : State) (car number : Nat) (m : Message) :
    (State.relayPost s car number m).quiet = s.quiet := by
  simp only [State.relayPost]
  (repeat' split) <;> (first | with_reducible rfl | simp)

@[simp] theorem State.relayPost_calm (s : State) (car number : Nat) (m : Message) :
    (State.relayPost s car number m).calm = s.calm := by
  simp only [State.relayPost]
  (repeat' split) <;> (first | with_reducible rfl | simp)

@[simp] theorem State.relayOn_quiet (s : State) (arrived leaves : Port) (f : BackboneFrame) (car number : Nat) :
    (State.relayOn s arrived leaves f car number).quiet = s.quiet := by
  simp only [State.relayOn]
  (repeat' split) <;> (first | with_reducible rfl | simp)

@[simp] theorem State.relayOn_calm (s : State) (arrived leaves : Port) (f : BackboneFrame) (car number : Nat) :
    (State.relayOn s arrived leaves f car number).calm = s.calm := by
  simp only [State.relayOn]
  (repeat' split) <;> (first | with_reducible rfl | simp)

@[simp] theorem State.relayToPeer_quiet (s : State) (arrived : Port) (f : BackboneFrame) (i : Fin 48) (car number : Nat) :
    (State.relayToPeer s arrived f i car number).quiet = s.quiet := by
  simp only [State.relayToPeer]
  (repeat' split) <;> (first | with_reducible rfl | simp)

@[simp] theorem State.relayToPeer_calm (s : State) (arrived : Port) (f : BackboneFrame) (i : Fin 48) (car number : Nat) :
    (State.relayToPeer s arrived f i car number).calm = s.calm := by
  simp only [State.relayToPeer]
  (repeat' split) <;> (first | with_reducible rfl | simp)

@[simp] theorem State.relay_quiet (s : State) (arrived : Port) (f : BackboneFrame) (car number : Nat) (urgency : Urgency) (receipt : Bool) (body : List Byte) :
    (State.relay s arrived f car number urgency receipt body).quiet = s.quiet := by
  simp only [State.relay]
  (repeat' split) <;> (first | with_reducible rfl | simp)

@[simp] theorem State.relay_calm (s : State) (arrived : Port) (f : BackboneFrame) (car number : Nat) (urgency : Urgency) (receipt : Bool) (body : List Byte) :
    (State.relay s arrived f car number urgency receipt body).calm = s.calm := by
  simp only [State.relay]
  (repeat' split) <;> (first | with_reducible rfl | simp)

@[simp] theorem State.handoverArrival_quiet (s : State) (arrived : Port) (f : BackboneFrame) (car : Nat) :
    (State.handoverArrival s arrived f car).quiet = s.quiet := by
  simp only [State.handoverArrival]
  (repeat' split) <;> (first | with_reducible rfl | simp)

@[simp] theorem State.handoverArrival_calm (s : State) (arrived : Port) (f : BackboneFrame) (car : Nat) :
    (State.handoverArrival s arrived f car).calm = s.calm := by
  simp only [State.handoverArrival]
  (repeat' split) <;> (first | with_reducible rfl | simp)

@[simp] theorem State.handleHere_quiet (s : State) (arrived : Port) (f : BackboneFrame) :
    (State.handleHere s arrived f).quiet = s.quiet := by
  simp only [State.handleHere]
  (repeat' split) <;> (first | with_reducible rfl | simp)

@[simp] theorem State.handleHere_calm (s : State) (arrived : Port) (f : BackboneFrame) :
    (State.handleHere s arrived f).calm = s.calm := by
  simp only [State.handleHere]
  (repeat' split) <;> (first | with_reducible rfl | simp)

@[simp] theorem State.route_quiet (s : State) (arrived : Port) (f : BackboneFrame) :
    (State.route s arrived f).quiet = s.quiet := by
  simp only [State.route]
  (repeat' split) <;> (first | with_reducible rfl | simp)

@[simp] theorem State.route_calm (s : State) (arrived : Port) (f : BackboneFrame) :
    (State.route s arrived f).calm = s.calm := by
  simp only [State.route]
  (repeat' split) <;> (first | with_reducible rfl | simp)

@[simp] theorem State.takeReceived_quiet (s : State) (p : Port) :
    (State.takeReceived s p).quiet = s.quiet := by
  simp only [State.takeReceived]
  (repeat' split) <;> (first | with_reducible rfl | simp)

@[simp] theorem State.takeReceived_calm (s : State) (p : Port) :
    (State.takeReceived s p).calm = s.calm := by
  simp only [State.takeReceived]
  (repeat' split) <;> (first | with_reducible rfl | simp)

@[simp] theorem State.helloDue_quiet (s : State) (p : Port) :
    (State.helloDue s p).quiet = s.quiet := by
  simp only [State.helloDue]
  (repeat' split) <;> (first | with_reducible rfl | simp)

@[simp] theorem State.helloDue_calm (s : State) (p : Port) :
    (State.helloDue s p).calm = s.calm := by
  simp only [State.helloDue]
  (repeat' split) <;> (first | with_reducible rfl | simp)

@[simp] theorem State.silenceEnds_quiet (s : State) (p : Port) :
    (State.silenceEnds s p).quiet = s.quiet := by
  simp only [State.silenceEnds]
  (repeat' split) <;> (first | with_reducible rfl | simp)

@[simp] theorem State.silenceEnds_calm (s : State) (p : Port) :
    (State.silenceEnds s p).calm = s.calm := by
  simp only [State.silenceEnds]
  (repeat' split) <;> (first | with_reducible rfl | simp)

@[simp] theorem State.transmitted_quiet (s : State) (p : Port) :
    (State.transmitted s p).quiet = s.quiet := by
  simp only [State.transmitted]
  (repeat' split) <;> (first | with_reducible rfl | simp)

@[simp] theorem State.transmitted_calm (s : State) (p : Port) :
    (State.transmitted s p).calm = s.calm := by
  simp only [State.transmitted]
  (repeat' split) <;> (first | with_reducible rfl | simp)

@[simp] theorem State.markRange_quiet (s : State) (first last : Nat) :
    (State.markRange s first last).quiet = s.quiet := by
  simp only [State.markRange]
  (repeat' split) <;> (first | with_reducible rfl | simp)

@[simp] theorem State.markRange_calm (s : State) (first last : Nat) :
    (State.markRange s first last).calm = s.calm := by
  simp only [State.markRange]
  (repeat' split) <;> (first | with_reducible rfl | simp)

@[simp] theorem State.startSweep_quiet (s : State) (first last deadline : Nat) (closeEntry : Bool) :
    (State.startSweep s first last deadline closeEntry).quiet = s.quiet := by
  simp only [State.startSweep]
  (repeat' split) <;> (first | with_reducible rfl | simp)

@[simp] theorem State.startSweep_calm (s : State) (first last deadline : Nat) (closeEntry : Bool) :
    (State.startSweep s first last deadline closeEntry).calm = s.calm := by
  simp only [State.startSweep]
  (repeat' split) <;> (first | with_reducible rfl | simp)

@[simp] theorem State.clearMarks_quiet (s : State) :
    (State.clearMarks s).quiet = s.quiet := by
  simp only [State.clearMarks]
  (repeat' split) <;> (first | with_reducible rfl | simp)

@[simp] theorem State.clearMarks_calm (s : State) :
    (State.clearMarks s).calm = s.calm := by
  simp only [State.clearMarks]
  (repeat' split) <;> (first | with_reducible rfl | simp)

@[simp] theorem State.applyHalt_quiet (s : State) :
    (State.applyHalt s).quiet = s.quiet := by
  simp only [State.applyHalt]
  (repeat' split) <;> (first | with_reducible rfl | simp)

@[simp] theorem State.applyHalt_calm (s : State) :
    (State.applyHalt s).calm = s.calm := by
  simp only [State.applyHalt]
  (repeat' split) <;> (first | with_reducible rfl | simp)

@[simp] theorem State.countSweepCycle_quiet (s : State) :
    (State.countSweepCycle s).quiet = s.quiet := by
  simp only [State.countSweepCycle]
  (repeat' split) <;> (first | with_reducible rfl | simp)

@[simp] theorem State.countSweepCycle_calm (s : State) :
    (State.countSweepCycle s).calm = s.calm := by
  simp only [State.countSweepCycle]
  (repeat' split) <;> (first | with_reducible rfl | simp)

@[simp] theorem State.sweepDeadline_quiet (s : State) :
    (State.sweepDeadline s).quiet = s.quiet := by
  simp only [State.sweepDeadline]
  (repeat' split) <;> (first | with_reducible rfl | simp)

@[simp] theorem State.sweepDeadline_calm (s : State) :
    (State.sweepDeadline s).calm = s.calm := by
  simp only [State.sweepDeadline]
  (repeat' split) <;> (first | with_reducible rfl | simp)

@[simp] theorem State.clearCounts_quiet (s : State) :
    (State.clearCounts s).quiet = s.quiet := by
  simp only [State.clearCounts]
  (repeat' split) <;> (first | with_reducible rfl | simp)

@[simp] theorem State.clearCounts_calm (s : State) :
    (State.clearCounts s).calm = s.calm := by
  simp only [State.clearCounts]
  (repeat' split) <;> (first | with_reducible rfl | simp)

@[simp] theorem State.closePort_quiet (s : State) (p : Port) :
    (State.closePort s p).quiet = s.quiet := by
  simp only [State.closePort]
  (repeat' split) <;> (first | with_reducible rfl | simp)

@[simp] theorem State.closePort_calm (s : State) (p : Port) :
    (State.closePort s p).calm = s.calm := by
  simp only [State.closePort]
  (repeat' split) <;> (first | with_reducible rfl | simp)

@[simp] theorem State.openPort_quiet (s : State) (p : Port) :
    (State.openPort s p).quiet = s.quiet := by
  simp only [State.openPort]
  (repeat' split) <;> (first | with_reducible rfl | simp)

@[simp] theorem State.openPort_calm (s : State) (p : Port) :
    (State.openPort s p).calm = s.calm := by
  simp only [State.openPort]
  (repeat' split) <;> (first | with_reducible rfl | simp)

@[simp] theorem State.endContexts_quiet (s : State) :
    (State.endContexts s).quiet = s.quiet := by
  simp only [State.endContexts]
  (repeat' split) <;> first
    | (simp; done)
    | (refine (foldl_keep (fun t : State => t.quiet) _ ?_ _ _).trans ?_ <;> (try intro _ _) <;> (repeat' split) <;> simp)
    | (simp only [State.modifyRecord_quiet]; refine (foldl_keep (fun t : State => t.quiet) _ ?_ _ _).trans ?_ <;> (try intro _ _) <;> (repeat' split) <;> simp)

@[simp] theorem State.endContexts_calm (s : State) :
    (State.endContexts s).calm = s.calm := by
  simp only [State.endContexts]
  (repeat' split) <;> first
    | (simp; done)
    | (refine (foldl_keep (fun t : State => t.calm) _ ?_ _ _).trans ?_ <;> (try intro _ _) <;> (repeat' split) <;> simp)
    | (simp only [State.modifyRecord_calm]; refine (foldl_keep (fun t : State => t.calm) _ ?_ _ _).trans ?_ <;> (try intro _ _) <;> (repeat' split) <;> simp)

@[simp] theorem State.parameterChanged_quiet (s : State) (old : Params) (name : ParamName) :
    (State.parameterChanged s old name).quiet = s.quiet := by
  simp only [State.parameterChanged]
  (repeat' split) <;> (first | with_reducible rfl | simp)

@[simp] theorem State.parameterChanged_calm (s : State) (old : Params) (name : ParamName) :
    (State.parameterChanged s old name).calm = s.calm := by
  simp only [State.parameterChanged]
  (repeat' split) <;> (first | with_reducible rfl | simp)

@[simp] theorem State.setPortCheck_quiet (s : State) (n : Nat) :
    (State.setPortCheck s n).quiet = s.quiet := by
  simp only [State.setPortCheck]
  (repeat' split) <;> (first | with_reducible rfl | simp)

@[simp] theorem State.setPortCheck_calm (s : State) (n : Nat) :
    (State.setPortCheck s n).calm = s.calm := by
  simp only [State.setPortCheck]
  (repeat' split) <;> (first | with_reducible rfl | simp)

@[simp] theorem State.setDarkCount_quiet (s : State) (n : Nat) :
    (State.setDarkCount s n).quiet = s.quiet := by
  simp only [State.setDarkCount]
  (repeat' split) <;> (first | with_reducible rfl | simp)

@[simp] theorem State.setDarkCount_calm (s : State) (n : Nat) :
    (State.setDarkCount s n).calm = s.calm := by
  simp only [State.setDarkCount]
  (repeat' split) <;> (first | with_reducible rfl | simp)

@[simp] theorem State.setGarbledRun_quiet (s : State) (n : Nat) :
    (State.setGarbledRun s n).quiet = s.quiet := by
  simp only [State.setGarbledRun]
  (repeat' split) <;> (first | with_reducible rfl | simp)

@[simp] theorem State.setGarbledRun_calm (s : State) (n : Nat) :
    (State.setGarbledRun s n).calm = s.calm := by
  simp only [State.setGarbledRun]
  (repeat' split) <;> (first | with_reducible rfl | simp)

@[simp] theorem State.beginPoll_quiet (s : State) (h : CellHolding) :
    (State.beginPoll s h).quiet = s.quiet := by
  simp only [State.beginPoll]
  (repeat' split) <;> (first | with_reducible rfl | simp)

@[simp] theorem State.beginPoll_calm (s : State) (h : CellHolding) :
    (State.beginPoll s h).calm = s.calm := by
  simp only [State.beginPoll]
  (repeat' split) <;> (first | with_reducible rfl | simp)

@[simp] theorem State.chooseDown_quiet (s : State) (slot : Nat) :
    (State.chooseDown s slot).quiet = s.quiet := by
  simp only [State.chooseDown]
  (repeat' split) <;> (first | with_reducible rfl | simp)

@[simp] theorem State.chooseDown_calm (s : State) (slot : Nat) :
    (State.chooseDown s slot).calm = s.calm := by
  simp only [State.chooseDown]
  (repeat' split) <;> (first | with_reducible rfl | simp)

@[simp] theorem State.startCycle_quiet (s : State) :
    (State.startCycle s).quiet = s.quiet := by
  simp only [State.startCycle]
  (repeat' split) <;> (first | with_reducible rfl | simp)

@[simp] theorem State.startCycle_calm (s : State) :
    (State.startCycle s).calm = s.calm := by
  simp only [State.startCycle]
  (repeat' split) <;> (first | with_reducible rfl | simp)

@[simp] theorem State.prepareBeacon_quiet (s : State) :
    (State.prepareBeacon s).quiet = s.quiet := by
  simp only [State.prepareBeacon]
  (repeat' split) <;> (first | with_reducible rfl | simp)

@[simp] theorem State.prepareBeacon_calm (s : State) :
    (State.prepareBeacon s).calm = s.calm := by
  simp only [State.prepareBeacon]
  (repeat' split) <;> (first | with_reducible rfl | simp)

@[simp] theorem State.sampleReady_calm (s : State) (ready : Bool) :
    (State.sampleReady s ready).calm = s.calm := by
  simp only [State.sampleReady]
  (repeat' split) <;> (first | with_reducible rfl | simp)

@[simp] theorem State.beginSlot_quiet (s : State) (slot : Fin 32) :
    (State.beginSlot s slot).quiet = s.quiet := by
  simp only [State.beginSlot]
  (repeat' split) <;> (first | with_reducible rfl | simp)

@[simp] theorem State.beginSlot_calm (s : State) (slot : Fin 32) :
    (State.beginSlot s slot).calm = s.calm := by
  simp only [State.beginSlot]
  (repeat' split) <;> (first | with_reducible rfl | simp)

@[simp] theorem State.startSlot_calm (s : State) (slot : Fin 32) (ready : Bool) :
    (State.startSlot s slot ready).calm = s.calm := by
  simp only [State.startSlot]
  (repeat' split) <;> (first | with_reducible rfl | simp)

@[simp] theorem State.slotStart_calm (s : State) (ready : Bool) :
    (State.slotStart s ready).calm = s.calm := by
  simp only [State.slotStart]
  (repeat' split) <;> (first | with_reducible rfl | simp)

@[simp] theorem State.receiveUp_quiet (s : State) (bytes : List Byte) (level : Nat) :
    (State.receiveUp s bytes level).quiet = s.quiet := by
  simp only [State.receiveUp]
  (repeat' split) <;> (first | with_reducible rfl | simp)

@[simp] theorem State.receiveUp_calm (s : State) (bytes : List Byte) (level : Nat) :
    (State.receiveUp s bytes level).calm = s.calm := by
  simp only [State.receiveUp]
  (repeat' split) <;> (first | with_reducible rfl | simp)

@[simp] theorem State.readyFalls_calm (s : State) (during : SlotPhase) :
    (State.readyFalls s during).calm = s.calm := by
  simp only [State.readyFalls]
  (repeat' split) <;> (first | with_reducible rfl | simp)

@[simp] theorem State.countWindow_quiet (s : State) (w : WindowResult Answer) :
    (State.countWindow s w).quiet = s.quiet := by
  simp only [State.countWindow]
  (repeat' split) <;> (first | with_reducible rfl | simp)

@[simp] theorem State.countWindow_calm (s : State) (w : WindowResult Answer) :
    (State.countWindow s w).calm = s.calm := by
  simp only [State.countWindow]
  (repeat' split) <;> (first | with_reducible rfl | simp)

@[simp] theorem State.countDarkEnd_quiet (s : State) :
    (State.countDarkEnd s).quiet = s.quiet := by
  simp only [State.countDarkEnd]
  (repeat' split) <;> (first | with_reducible rfl | simp)

@[simp] theorem State.countDarkEnd_calm (s : State) :
    (State.countDarkEnd s).calm = s.calm := by
  simp only [State.countDarkEnd]
  (repeat' split) <;> (first | with_reducible rfl | simp)

@[simp] theorem State.endBeacon_quiet (s : State) :
    (State.endBeacon s).quiet = s.quiet := by
  simp only [State.endBeacon]
  (repeat' split) <;> (first | with_reducible rfl | simp)

@[simp] theorem State.endBeacon_calm (s : State) :
    (State.endBeacon s).calm = s.calm := by
  simp only [State.endBeacon]
  (repeat' split) <;> (first | with_reducible rfl | simp)

@[simp] theorem State.endEntry_quiet (s : State) (slot : Nat) :
    (State.endEntry s slot).quiet = s.quiet := by
  simp only [State.endEntry]
  (repeat' split) <;> (first | with_reducible rfl | simp)

@[simp] theorem State.endEntry_calm (s : State) (slot : Nat) :
    (State.endEntry s slot).calm = s.calm := by
  simp only [State.endEntry]
  (repeat' split) <;> (first | with_reducible rfl | simp)

@[simp] theorem State.endTurn_calm (s : State) (slot : Nat) :
    (State.endTurn s slot).calm = s.calm := by
  simp only [State.endTurn]
  (repeat' split) <;> (first | with_reducible rfl | simp)

@[simp] theorem State.endNotice_calm (s : State) (slot : Nat) :
    (State.endNotice s slot).calm = s.calm := by
  simp only [State.endNotice]
  (repeat' split) <;> (first | with_reducible rfl | simp)

@[simp] theorem State.finishClosing_quiet (s : State) :
    (State.finishClosing s).quiet = s.quiet := by
  simp only [State.finishClosing]
  (repeat' split) <;> (first | with_reducible rfl | simp)

@[simp] theorem State.finishClosing_calm (s : State) :
    (State.finishClosing s).calm = s.calm := by
  simp only [State.finishClosing]
  (repeat' split) <;> (first | with_reducible rfl | simp)

@[simp] theorem State.clearSlot_quiet (s : State) :
    (State.clearSlot s).quiet = s.quiet := by
  simp only [State.clearSlot]
  (repeat' split) <;> (first | with_reducible rfl | simp)

@[simp] theorem State.clearSlot_calm (s : State) :
    (State.clearSlot s).calm = s.calm := by
  simp only [State.clearSlot]
  (repeat' split) <;> (first | with_reducible rfl | simp)

@[simp] theorem State.finishSlot_calm (s : State) (slot : Nat) :
    (State.finishSlot s slot).calm = s.calm := by
  simp only [State.finishSlot]
  (repeat' split) <;> (first | with_reducible rfl | simp)

end Sys2Proof.Machine
end

