-- ==== Sys2Proof/Laws/Cells.lean ====
section
/-! SUPPORT. Cells of the Turn Plan: their places, what giving a turn's cells does, and the places of a period. -/

namespace Sys2Proof.Machine

theorem cellIndex_lt {slot phase : Nat} (h1 : 3 ≤ slot) (h2 : slot ≤ 31) (h3 : phase < 8) :
    cellIndex slot phase < 232 := by
  unfold cellIndex
  omega

theorem cellIndex_inj {a b f g : Nat} (ha : 3 ≤ a) (hb : 3 ≤ b) (hf : f < 8) (hg : g < 8)
    (h : cellIndex a f = cellIndex b g) : a = b ∧ f = g := by
  unfold cellIndex at h
  omega

/-- A cell in the table is the entry at its place. -/
theorem State.cell_eq (s : State) {slot phase : Nat} (h1 : 3 ≤ slot) (h2 : slot ≤ 31) (h3 : phase < 8) :
    s.cell slot phase = s.cells[cellIndex slot phase]'(cellIndex_lt h1 h2 h3) := by
  unfold State.cell
  rw [if_pos ⟨h1, h2, h3⟩, Vector.getElem?_eq_getElem (cellIndex_lt h1 h2 h3)]
  rfl

theorem State.cell_congr {s t : State} (h : t.cells = s.cells) (slot phase : Nat) :
    t.cell slot phase = s.cell slot phase := by
  unfold State.cell
  rw [h]

/-- A cell after one was given. -/
theorem State.giveCell_cell (s : State) {a f : Nat} (h : CellHolding) (ha : 3 ≤ a) (ha' : a ≤ 31) (hf : f < 8)
    (slot phase : Nat) :
    (s.giveCell a f h).cell slot phase = if slot = a ∧ phase = f then some h else s.cell slot phase := by
  by_cases hin : 3 ≤ slot ∧ slot ≤ 31 ∧ phase < 8
  · obtain ⟨h1, h2, h3⟩ := hin
    rw [State.cell_eq _ h1 h2 h3, State.cell_eq _ h1 h2 h3]
    show (s.cells.setIfInBounds (cellIndex a f) (some h))[cellIndex slot phase]'_ = _
    rw [Vector.getElem_setIfInBounds]
    by_cases he : cellIndex a f = cellIndex slot phase
    · obtain ⟨rfl, rfl⟩ := cellIndex_inj ha h1 hf h3 he
      simp
    · rw [if_neg he, if_neg]
      rintro ⟨rfl, rfl⟩
      exact he rfl
  · have hn : ¬ (slot = a ∧ phase = f) := by
      rintro ⟨rfl, rfl⟩
      exact hin ⟨ha, ha', hf⟩
    rw [if_neg hn]
    unfold State.cell
    rw [if_neg hin, if_neg hin]

theorem State.giveCells_cell (slot : Nat) (h : CellHolding) (h1 : 3 ≤ slot) (h2 : slot ≤ 31) :
    ∀ (l : List Nat) (s : State), (∀ f ∈ l, f < 8) → ∀ a f,
      (l.foldl (fun s f => s.giveCell slot f h) s).cell a f = if a = slot ∧ f ∈ l then some h else s.cell a f
  | [], s, _, a, f => by simp
  | g :: l, s, hl, a, f => by
      rw [List.foldl_cons, State.giveCells_cell slot h h1 h2 l _ (fun f hf => hl f (List.mem_cons_of_mem _ hf)),
        State.giveCell_cell s h h1 h2 (hl g (List.mem_cons_self ..))]
      by_cases ha : a = slot <;> by_cases hg : f = g <;> by_cases hm : f ∈ l <;> simp [ha, hg, hm]

theorem Turn.phases_lt {t : Turn} (h : t.phase < t.period.cycles) : ∀ f ∈ t.phases, f < 8 := by
  intro f hf
  unfold Turn.phases at hf
  simp only [List.mem_map, List.mem_range] at hf
  obtain ⟨k, hk, rfl⟩ := hf
  cases hp : t.period <;> simp only [hp, Period.cycles] at h hk ⊢ <;> omega

/-- The cells after a turn's cells were given to a record. -/
theorem State.giveTurnCells_cell (s : State) (i : Fin 48) (t : Turn) (role : CellRole) (h1 : 3 ≤ t.slot)
    (h2 : t.slot ≤ 31) (h3 : t.phase < t.period.cycles) (a f : Nat) :
    (s.giveTurnCells i t role).cell a f =
      if a = t.slot ∧ f ∈ t.phases then some { holder := i, role := role } else s.cell a f :=
  State.giveCells_cell t.slot _ h1 h2 t.phases s (Turn.phases_lt h3) a f

/-- The places of a period are its turns in slots 3 to 31. -/
theorem mem_placesOf {p : Period} {t : Turn} :
    t ∈ placesOf p ↔ t.period = p ∧ 3 ≤ t.slot ∧ t.slot ≤ 31 ∧ t.phase < p.cycles := by
  obtain ⟨slot, period, phase⟩ := t
  unfold placesOf
  simp only [List.mem_flatMap, List.mem_range, List.mem_map, Turn.mk.injEq]
  constructor
  · rintro ⟨a, ha, b, hb, h1, h2, h3⟩
    exact ⟨h2.symm, by omega, by omega, by omega⟩
  · rintro ⟨h1, h2, h3, h4⟩
    exact ⟨slot - 3, by omega, phase, h4, by omega, h1.symm, rfl⟩

/-- A place that the search finds is a turn of the period asked, in slots 3 to 31. -/
theorem State.findPlace_range {s : State} {p : Period} {t : Turn} (h : s.findPlace p = some t) :
    t.period = p ∧ 3 ≤ t.slot ∧ t.slot ≤ 31 ∧ t.phase < t.period.cycles := by
  have hm := mem_placesOf.mp (List.mem_of_find?_eq_some h)
  obtain ⟨rfl, h1, h2, h3⟩ := hm
  exact ⟨rfl, h1, h2, h3⟩

end Sys2Proof.Machine
end

