-- ==== Sys2Proof/Laws/Ops.lean ====
section
/-! SUPPORT. What the shared operations of Ops do: to the records, to the tail of the roster, to the cells and the pool;
what they report to the Condition Unit, what the return of a record to FREE comes to, whom an accepted claim passes over,
and what a page list handed back lowers. -/

namespace Sys2Proof.Machine

/-! ## Records that at most lose a due frame -/

theorem Record.sameButSent.refl (r : Record) : r.sameButSent r := Or.inl rfl

theorem Record.sameButSent.trans {r t u : Record} (h : r.sameButSent t) (k : t.sameButSent u) : r.sameButSent u := by
  rcases h with rfl | ⟨c, hc, rfl⟩
  · exact k
  · rcases k with rfl | ⟨d, hd, rfl⟩
    · exact Or.inr ⟨c, hc, rfl⟩
    · cases hd
      exact Or.inr ⟨c, hc, rfl⟩

/-- Every record of `t` is as in `s`, but that a frame due in its context may have begun. -/
def State.recordsSent (s t : State) : Prop := ∀ j, (s.record j).sameButSent (t.record j)

theorem State.recordsSent.refl (s : State) : s.recordsSent s := fun _ => Record.sameButSent.refl _

theorem State.recordsSent.trans {s t u : State} (h : s.recordsSent t) (k : t.recordsSent u) : s.recordsSent u :=
  fun j => (h j).trans (k j)

theorem State.recordsSent_of_roster {s t : State} (h : t.roster = s.roster) : s.recordsSent t :=
  fun j => Or.inl (State.record_congr h j)

theorem State.serveHandover_recordsSent (s : State) (p : Port) (i : Fin 48) : s.recordsSent (s.serveHandover p i) := by
  unfold State.serveHandover
  split
  · rename_i c hc
    intro j
    by_cases h : i = j
    · subst h
      refine Or.inr ⟨c, hc, ?_⟩
      rw [State.record_congr (State.modifyPort_roster _ _ _), State.record_modifyRecord]
      rw [State.record_congr (State.beginFrame_roster _ _ _)]
    · refine Or.inl ?_
      rw [State.record_congr (State.modifyPort_roster _ _ _), State.record_modifyRecord_ne _ _ h]
      rw [State.record_congr (State.beginFrame_roster _ _ _)]
  · exact State.recordsSent.refl s

theorem State.chooseSource_recordsSent (s : State) (p : Port) : s.recordsSent (s.chooseSource p) := by
  unfold State.chooseSource
  (repeat' split) <;>
    first
      | exact State.serveHandover_recordsSent _ _ _
      | exact State.recordsSent_of_roster (by simp)

theorem State.arbitrate_recordsSent (s : State) (p : Port) : s.recordsSent (s.arbitrate p) := by
  unfold State.arbitrate
  (repeat' split) <;>
    first
      | exact State.recordsSent_of_roster (by simp)
      | exact State.chooseSource_recordsSent _ _
      | exact (State.recordsSent_of_roster (by simp)).trans (State.chooseSource_recordsSent _ _)

theorem State.offerTraffic_recordsSent (s : State) (p : Port) (f : BackboneFrame) :
    s.recordsSent (s.offerTraffic p f) := by
  unfold State.offerTraffic
  split
  · exact (State.recordsSent_of_roster (by simp)).trans (State.arbitrate_recordsSent _ _)
  · exact State.recordsSent_of_roster (by simp)

theorem State.noteFor_recordsSent (s : State) (car : Nat) (source : Source) (receipt : Bool) (outcome : NoteOutcome) :
    s.recordsSent (s.noteFor car source receipt outcome) := by
  unfold State.noteFor
  (repeat' split) <;> first
    | exact State.recordsSent.refl s
    | exact State.offerTraffic_recordsSent _ _ _

theorem State.sendToward_recordsSent (s : State) (dest : Nat) (payload : Payload) :
    s.recordsSent (s.sendToward dest payload) := by
  unfold State.sendToward
  split
  · exact State.offerTraffic_recordsSent _ _ _
  · exact State.recordsSent.refl s

theorem State.arbitrateToward_recordsSent (s : State) (peer : Nat) : s.recordsSent (s.arbitrateToward peer) := by
  unfold State.arbitrateToward
  split
  · exact State.arbitrate_recordsSent _ _
  · exact State.recordsSent.refl s


/-! ## The tail of the roster -/

/-- The roster but for its records: the tag counter, the page pointer, the two counts, the held work and the
records passed over. -/
def State.tail (s : State) : Nat × Fin 48 × Nat × Nat × List HeldWork × List (Fin 48) :=
  (s.roster.tagCounter, s.roster.pagePointer, s.roster.summonCount, s.roster.pinnedCount, s.roster.held,
    s.roster.passedOver)

theorem State.tail_congr {s t : State} (h : t.roster = s.roster) : t.tail = s.tail := by simp only [State.tail, h]

@[simp] theorem State.setRecord_tail (s : State) (i : Fin 48) (r : Record) : (s.setRecord i r).tail = s.tail := rfl

@[simp] theorem State.modifyRecord_tail (s : State) (i : Fin 48) (f : Record → Record) :
    (s.modifyRecord i f).tail = s.tail := rfl

@[simp] theorem State.offerReason_tail (s : State) (i : Fin 48) (r : Reason) : (s.offerReason i r).tail = s.tail :=
  State.tail_congr (by simp)

@[simp] theorem State.setSoft_tail (s : State) (i : Fin 48) (f : SoftFault) : (s.setSoft i f).tail = s.tail := by
  simp [State.setSoft]

@[simp] theorem State.dropContext_tail (s : State) (i : Fin 48) : (s.dropContext i).tail = s.tail := rfl

@[simp] theorem State.serveHandover_tail (s : State) (p : Port) (i : Fin 48) : (s.serveHandover p i).tail = s.tail := by
  unfold State.serveHandover
  split
  · exact (State.tail_congr (State.modifyPort_roster _ _ _)).trans
      ((State.modifyRecord_tail _ _ _).trans (State.tail_congr (State.beginFrame_roster _ _ _)))
  · rfl

@[simp] theorem State.chooseSource_tail (s : State) (p : Port) : (s.chooseSource p).tail = s.tail := by
  unfold State.chooseSource
  (repeat' split) <;> first
    | exact State.serveHandover_tail _ _ _
    | exact State.tail_congr (by simp)

@[simp] theorem State.arbitrate_tail (s : State) (p : Port) : (s.arbitrate p).tail = s.tail := by
  unfold State.arbitrate
  (repeat' split) <;> first
    | exact State.tail_congr (by simp)
    | exact State.chooseSource_tail _ _
    | exact (State.chooseSource_tail _ _).trans (State.tail_congr (by simp))

@[simp] theorem State.offerTraffic_tail (s : State) (p : Port) (f : BackboneFrame) :
    (s.offerTraffic p f).tail = s.tail := by
  unfold State.offerTraffic
  split
  · exact (State.arbitrate_tail _ _).trans (State.tail_congr (by simp))
  · exact State.tail_congr (by simp)

@[simp] theorem State.noteFor_tail (s : State) (car : Nat) (source : Source) (receipt : Bool) (outcome : NoteOutcome) :
    (s.noteFor car source receipt outcome).tail = s.tail := by
  unfold State.noteFor
  (repeat' split) <;> first
    | rfl
    | exact State.offerTraffic_tail _ _ _

@[simp] theorem State.arbitrateToward_tail (s : State) (peer : Nat) : (s.arbitrateToward peer).tail = s.tail := by
  unfold State.arbitrateToward
  split <;> simp

theorem State.passOver_tail (s : State) (i : Fin 48) :
    (s.passOver i).tail =
      (s.tail.1, s.tail.2.1, s.tail.2.2.1, s.tail.2.2.2.1, s.tail.2.2.2.2.1, (s.passOver i).roster.passedOver) := rfl

/-- The records passed over, with one that leaves its contact state (R84). -/
theorem State.mem_passOver (s : State) (i j : Fin 48) :
    j ∈ (s.passOver i).roster.passedOver ↔ j ∈ s.roster.passedOver ∨ (j = i ∧ s.leavesPaging i = true) := by
  unfold State.passOver
  cases s.leavesPaging i <;> simp [List.mem_insert_iff, or_comm]

/-- A record leaves PAGING during slot 0 exactly when it is PAGING in a slot 0 in progress. -/
theorem State.leavesPaging_iff (s : State) (i : Fin 48) :
    s.leavesPaging i = true ↔ s.air.slot = some 0 ∧ s.air.work ≠ none ∧ (s.record i).contact = .paging := by
  simp [State.leavesPaging, and_assoc, Option.isSome_iff_ne_none]

/-! ## Cells -/

theorem State.freeCellsWhere_cells (s : State) (test : CellHolding → Bool) :
    (s.freeCellsWhere test).cells = s.cells.map fun c => if Option.any test c then none else c := by
  unfold State.freeCellsWhere
  split
  · rfl
  · rename_i h
    simp only [List.any_eq_true, not_exists, not_and, Vector.mem_toList_iff] at h
    ext k hk : 1
    simp only [Vector.getElem_map]
    split
    · rename_i hc
      exact absurd hc (h _ (by simp))
    · rfl

/-- A cell after a freeing: free when the test picks what it held, and otherwise as it was. -/
theorem State.freeCellsWhere_getElem (s : State) (test : CellHolding → Bool) (k : Nat) (h : k < 232) :
    (s.freeCellsWhere test).cells[k] = if Option.any test s.cells[k] then none else s.cells[k] := by
  simp only [State.freeCellsWhere_cells, Vector.getElem_map]

/-! ## The freeing of a record's messages -/

theorem State.freeListed_pool (notes : Bool) (car : Nat) (s : State) (b c : Fin 64) :
    (State.freeListed notes car s b).pool[c] = if c = b then none else s.pool[c] := by
  unfold State.freeListed
  by_cases h : c = b
  · subst h
    (repeat' split) <;> simp_all
  · have h' : b ≠ c := fun e => h e.symm
    (repeat' split) <;> simp_all [State.setBuffer_pool_ne _ _ h']

theorem State.freeListed_recordsSent (notes : Bool) (car : Nat) (s : State) (b : Fin 64) :
    s.recordsSent (State.freeListed notes car s b) := by
  unfold State.freeListed
  (repeat' split) <;> first
    | exact State.recordsSent.refl s
    | exact State.recordsSent_of_roster (by simp)
    | exact (State.recordsSent_of_roster (by simp)).trans (State.noteFor_recordsSent _ _ _ _ _)

@[simp] theorem State.freeListed_tail (notes : Bool) (car : Nat) (s : State) (b : Fin 64) :
    (State.freeListed notes car s b).tail = s.tail := by
  unfold State.freeListed
  (repeat' split) <;> first
    | rfl
    | exact State.tail_congr (by simp)
    | exact (State.noteFor_tail _ _ _ _ _).trans (State.tail_congr (by simp))

theorem State.freeMessages_fold (notes : Bool) (car : Nat) (l : List (Fin 64)) (s : State) :
    s.recordsSent (l.foldl (State.freeListed notes car) s)
      ∧ (l.foldl (State.freeListed notes car) s).tail = s.tail
      ∧ ∀ c : Fin 64, (l.foldl (State.freeListed notes car) s).pool[c] = if c ∈ l then none else s.pool[c] := by
  induction l generalizing s with
  | nil => exact ⟨State.recordsSent.refl s, rfl, fun c => by simp⟩
  | cons b l ih =>
      obtain ⟨h1, h2, h3⟩ := ih (State.freeListed notes car s b)
      refine ⟨(State.freeListed_recordsSent notes car s b).trans h1, h2.trans (State.freeListed_tail notes car s b), ?_⟩
      intro c
      rw [List.foldl_cons, h3 c, State.freeListed_pool]
      by_cases hb : c = b <;> by_cases hl : c ∈ l <;> simp [hb, hl]


/-! ## Reports to the Condition Unit (R171, R172) -/

theorem State.onlyClasses_of_conditions {s t : State} {l : List ConditionClass} (h : t.conditions = s.conditions) :
    s.onlyClasses t l := fun c _ => State.classFlags_congr h c

theorem State.onlyClasses.trans {s t u : State} {l m : List ConditionClass} (h : s.onlyClasses t l) (k : t.onlyClasses u m) :
    s.onlyClasses u (l ++ m) := fun c hc => by
  rw [List.mem_append, not_or] at hc
  exact (k c hc.2).trans (h c hc.1)

theorem State.onlyClasses.mono {s t : State} {l m : List ConditionClass} (h : s.onlyClasses t l) (sub : l ⊆ m) :
    s.onlyClasses t m := fun c hc => h c fun hl => hc (sub hl)

theorem State.onlyClasses_reportCause (s : State) (c : ConditionClass) (b : Bool) : s.onlyClasses (s.reportCause c b) [c] :=
  fun d hd => State.classFlags_reportCause_ne s b fun e => hd (by simp [e])

theorem State.classReported_of_conditions {s t u : State} {c : ConditionClass} {b : Bool} (h : u.conditions = t.conditions)
    (ht : s.classReported t c b) : s.classReported u c b := by
  unfold State.classReported at *
  simp only [State.classFlags_congr h]
  exact ht

/-- One report. -/
theorem State.reportCause_reported (s : State) (c : ConditionClass) (b : Bool) : s.classReported (s.reportCause c b) c b := by
  unfold State.classReported
  rw [State.classFlags_reportCause]
  refine ⟨rfl, rfl, ?_, ?_⟩
  · intro h
    simp [h]
  · intro h1 h2
    simp only [ClassFlags.active] at h1
    simp [h1, h2]

/-- A report after others. -/
theorem State.classReported.report {s t : State} {c : ConditionClass} {a : Bool} (h : s.classReported t c a) (b : Bool) :
    s.classReported (t.reportCause c b) c b := by
  obtain ⟨_, h2, h3, h4⟩ := h
  obtain ⟨k1, k2, k3, k4⟩ := State.reportCause_reported t c b
  refine ⟨k1, k2.trans h2, fun e => k3 (h3 e), fun e1 e2 => ?_⟩
  cases ha : (t.classFlags c).active
  · exact k4 e1 ha
  · exact k3 (h4 ha e2)

/-- A report that a cause has ended changes the cause alone. -/
theorem State.classFlags_reportCause_false (s : State) (c : ConditionClass) :
    (s.reportCause c false).classFlags c = { s.classFlags c with cause := false } := by
  rw [State.classFlags_reportCause]
  cases h : s.classFlags c with
  | mk cause latched forced => cases cause <;> cases latched <;> cases forced <;> rfl

/-- A freeing of cells ends PLAN_FULL exactly when there were any (R48), and is reported to no other class. -/
theorem State.freeCellsWhere_planFreed (s : State) (test : CellHolding → Bool) :
    s.planFreed (s.freeCellsWhere test) (Option.any test) := by
  have hany : s.cells.toList.any (Option.any test) = true ↔ ∃ k : Fin 232, Option.any test s.cells[k] = true := by
    rw [List.any_eq_true]
    constructor
    · rintro ⟨c, hc, h⟩
      obtain ⟨n, hn, e⟩ := Vector.getElem_of_mem (Vector.mem_toList_iff.mp hc)
      exact ⟨⟨n, hn⟩, by show Option.any test s.cells[n] = true; rw [e]; exact h⟩
    · rintro ⟨k, h⟩
      exact ⟨s.cells[k.val], Vector.mem_toList_iff.mpr (Vector.getElem_mem k.isLt), h⟩
  unfold State.planFreed State.causeEnded State.freeCellsWhere
  rw [← hany]
  split <;> rename_i h
  · exact ⟨fun _ => State.classFlags_reportCause_false _ _, fun e => absurd h e⟩
  · exact ⟨fun e => absurd e h, fun _ => rfl⟩

theorem State.freeCellsWhere_onlyClasses (s : State) (test : CellHolding → Bool) :
    s.onlyClasses (s.freeCellsWhere test) [.planFull] := by
  unfold State.freeCellsWhere
  split
  · exact fun d hd => State.classFlags_reportCause_ne _ _ fun e => hd (by simp [e])
  · exact fun _ _ => rfl

theorem State.setBuffer_onlyClasses (s : State) (b : Fin 64) (m : Option Message) :
    s.onlyClasses (s.setBuffer b m) [.poolLow] := fun d hd =>
  State.classFlags_reportCause_ne { s with pool := s.pool.set b m } _ fun e => hd (by simp [e])

theorem State.freeCellsWhere_classFlags_ne (s : State) (test : CellHolding → Bool) {c : ConditionClass} (h : c ≠ .planFull) :
    (s.freeCellsWhere test).classFlags c = s.classFlags c :=
  State.freeCellsWhere_onlyClasses s test c (by simpa using h)

theorem State.setBuffer_classFlags_ne (s : State) (b : Fin 64) (m : Option Message) {c : ConditionClass} (h : c ≠ .poolLow) :
    (s.setBuffer b m).classFlags c = s.classFlags c := State.setBuffer_onlyClasses s b m c (by simpa using h)

/-- A change of a buffer is reported for POOL_LOW (R104). -/
theorem State.setBuffer_reported {s t : State} {a : Bool} (b : Fin 64) (m : Option Message)
    (h : s.classReported t .poolLow a ∨ t.classFlags .poolLow = s.classFlags .poolLow) :
    s.classReported (t.setBuffer b m) .poolLow (decide ((t.setBuffer b m).freeBuffers < t.params.poolLow)) := by
  rcases h with h | h
  · exact State.classReported.report (t := { t with pool := t.pool.set b m }) (a := a) h _
  · have k := State.reportCause_reported { t with pool := t.pool.set b m } .poolLow
      (decide ((t.setBuffer b m).freeBuffers < t.params.poolLow))
    unfold State.classReported at *
    rw [← h]
    exact k

/-- The reports of a list that is freed: POOL_LOW as long as a buffer held a message, and no other class. -/
theorem State.freeListed_fold_reported (notes : Bool) (car : Nat) (s : State) : ∀ (l : List (Fin 64)) (t : State),
    t.params = s.params →
    ((∃ a, s.classReported t .poolLow a ∧ a = decide (t.freeBuffers < s.params.poolLow))
      ∨ t.classFlags .poolLow = s.classFlags .poolLow) →
    (s.classReported t .poolLow (decide (t.freeBuffers < s.params.poolLow)) ∨ (∃ b ∈ l, t.pool[b] ≠ none) →
        s.classReported (l.foldl (State.freeListed notes car) t) .poolLow
          (decide ((l.foldl (State.freeListed notes car) t).freeBuffers < s.params.poolLow)))
      ∧ ((∀ b ∈ l, t.pool[b] = none) →
          (l.foldl (State.freeListed notes car) t).classFlags .poolLow = t.classFlags .poolLow)
      ∧ ∀ c, c ≠ .poolLow → (l.foldl (State.freeListed notes car) t).classFlags c = t.classFlags c
  | [], t, _, _ => ⟨fun h => h.elim id (by simp), fun _ => rfl, fun _ _ => rfl⟩
  | b :: l, t, hp, h => by
      cases hb : t.pool[b] with
      | none =>
          have e : State.freeListed notes car t b = t := by unfold State.freeListed; rw [hb]
          obtain ⟨k1, k2, k3⟩ := State.freeListed_fold_reported notes car s l t hp h
          rw [List.foldl_cons, e]
          refine ⟨?_, fun hn => k2 (fun b' hb' => hn b' (List.mem_cons_of_mem _ hb')), k3⟩
          rintro (h1 | ⟨b', hb', hne⟩)
          · exact k1 (Or.inl h1)
          · rcases List.mem_cons.mp hb' with rfl | hm
            · exact absurd hb hne
            · exact k1 (Or.inr ⟨b', hm, hne⟩)
      | some m =>
          obtain ⟨u, hu⟩ : ∃ u, u = State.freeListed notes car t b := ⟨_, rfl⟩
          have hc : u.conditions = (t.setBuffer b none).conditions := by
            rw [hu]; unfold State.freeListed; rw [hb]; cases notes <;> simp
          have hpool : u.pool = (t.setBuffer b none).pool := by
            rw [hu]; unfold State.freeListed; rw [hb]; cases notes <;> simp
          have hup : u.params = s.params := by
            rw [← hp, hu]; exact State.params_of_calm (by simp)
          have hfree : u.freeBuffers = (t.setBuffer b none).freeBuffers := by simp only [State.freeBuffers, hpool]
          have hrep : s.classReported u .poolLow (decide (u.freeBuffers < s.params.poolLow)) := by
            refine State.classReported_of_conditions hc ?_
            rw [hfree, ← hp]
            rcases h with ⟨a, ha, _⟩ | h
            · exact State.setBuffer_reported b none (Or.inl ha)
            · exact State.setBuffer_reported (a := false) b none (Or.inr h)
          obtain ⟨k1, k2, k3⟩ := State.freeListed_fold_reported notes car s l u hup (Or.inl ⟨_, hrep, rfl⟩)
          rw [List.foldl_cons, ← hu]
          refine ⟨fun _ => k1 (Or.inl hrep), fun hn => ?_, fun c hne => ?_⟩
          · exact absurd (hn b (List.mem_cons_self ..)) (by rw [hb]; simp)
          · rw [k3 c hne, State.classFlags_congr hc]
            exact State.setBuffer_classFlags_ne t b none hne

/-! ## The return of a record to FREE (R39) -/

/-- The record that a freeing leaves: nothing but the car ID and the sweep mark (R39 step 7). -/
def State.emptied (s : State) (i : Fin 48) : Record :=
  { Record.free with carId := (s.record i).carId, mark := (s.record i).mark }

theorem State.sweepAwaits_congr {s t : State} {i : Fin 48} (hw : t.sweep = s.sweep)
    (hm : (t.record i).mark = (s.record i).mark) : t.sweepAwaits i = s.sweepAwaits i := by
  simp [State.sweepAwaits, State.sweepInProgress, hw, hm]

/-- Leaving an active sweep: the mark and the count left (R159). -/
theorem State.markLeft_spec (s : State) (i : Fin 48) :
    (s.markLeft i).record i =
        { s.record i with mark := if s.sweepAwaits i then .left else (s.record i).mark }
      ∧ (∀ j, j ≠ i → (s.markLeft i).record j = s.record j)
      ∧ (s.markLeft i).tail = s.tail
      ∧ (s.markLeft i).sweep.left = s.sweep.left + (if s.sweepAwaits i then 1 else 0) := by
  unfold State.markLeft State.sweepAwaits
  split
  · rename_i h
    have hr : ∀ t : State, t.endIfAccounted.roster = t.roster := fun t => by simp
    have hl : ∀ t : State, t.endIfAccounted.sweep.left = t.sweep.left := by
      intro t
      unfold State.endIfAccounted State.endSweep
      split <;> rfl
    refine ⟨?_, ?_, ?_, ?_⟩
    · rw [State.record_congr (hr _), State.record_modifyRecord]
      rfl
    · intro j hj
      rw [State.record_congr (hr _), State.record_modifyRecord_ne _ _ (fun e => hj e.symm)]
      rfl
    · rw [State.tail_congr (hr _)]
      rfl
    · rw [hl]
      rfl
  · exact ⟨rfl, fun _ _ => rfl, rfl, rfl⟩

theorem State.endSummon_spec (s : State) (i : Fin 48) (o : SummonOutcome) :
    (s.endSummon i o).record i = { s.record i with summoned := false }
      ∧ (∀ j, j ≠ i → (s.endSummon i o).record j = s.record j)
      ∧ (s.endSummon i o).tail =
          (s.roster.tagCounter, s.roster.pagePointer, s.roster.summonCount - (if (s.record i).summoned then 1 else 0),
            s.roster.pinnedCount, s.roster.held, s.roster.passedOver) := by
  unfold State.endSummon
  split
  · refine ⟨?_, ?_, ?_⟩
    · rw [State.record_congr (State.offerReason_roster _ _ _), State.record_modifyRecord]
      rfl
    · intro j hj
      rw [State.record_congr (State.offerReason_roster _ _ _), State.record_modifyRecord_ne _ _ (fun e => hj e.symm)]
      rfl
    · rw [State.offerReason_tail]
      rfl
  · rename_i h
    refine ⟨?_, fun _ _ => rfl, rfl⟩
    have h' : (s.record i).summoned = false := by simpa using h
    rw [← h']

theorem State.dropPin_spec (s : State) (i : Fin 48) :
    (s.dropPin i).record i = { s.record i with pinned := false }
      ∧ (∀ j, j ≠ i → (s.dropPin i).record j = s.record j)
      ∧ (s.dropPin i).tail =
          (s.roster.tagCounter, s.roster.pagePointer, s.roster.summonCount,
            s.roster.pinnedCount - (if (s.record i).pinned then 1 else 0), s.roster.held, s.roster.passedOver) := by
  unfold State.dropPin
  split
  · refine ⟨?_, ?_, rfl⟩
    · rw [State.record_modifyRecord]
      rfl
    · intro j hj
      rw [State.record_modifyRecord_ne _ _ (fun e => hj e.symm)]
      rfl
  · rename_i h
    refine ⟨?_, fun _ _ => rfl, rfl⟩
    have h' : (s.record i).pinned = false := by simpa using h
    rw [← h']


/-- The freeing of a record's list: the list and the message in flight go, the buffers are freed, and no other record
changes but for a frame begun (R113). -/
theorem State.freeMessages_spec (s : State) (i : Fin 48) (notes : Bool) :
    (∃ r, (s.record i).sameButSent r ∧ (s.freeMessages i notes).record i = { r with messages := [], inFlight := none })
      ∧ (∀ j, j ≠ i → (s.record j).sameButSent ((s.freeMessages i notes).record j))
      ∧ (s.freeMessages i notes).tail = s.tail
      ∧ ∀ c : Fin 64, (s.freeMessages i notes).pool[c] = if c ∈ (s.record i).messages then none else s.pool[c] := by
  obtain ⟨h1, h2, h3⟩ := State.freeMessages_fold notes (s.record i).carId (s.record i).messages s
  unfold State.freeMessages
  refine ⟨⟨_, h1 i, State.record_modifyRecord _ _ _⟩, ?_, ?_, h3⟩
  · intro j hj
    rw [State.record_modifyRecord_ne _ _ (fun e => hj e.symm)]
    exact h1 j
  · rw [State.modifyRecord_tail]
    exact h2

/-- A record becomes FREE as R39 says, whatever the cause and the reason raised. -/
theorem State.becomeFree_freed (s : State) (i : Fin 48) (notes : Bool) (reason : Option Reason) :
    s.freed (s.becomeFree i notes reason) i := by
  obtain ⟨s1, e1⟩ : ∃ t, t = (s.withdrawGrant i).freeCellsOf i := ⟨_, rfl⟩
  obtain ⟨s2, e2⟩ : ∃ t, t = (s1.freeMessages i notes).dropContext i := ⟨_, rfl⟩
  obtain ⟨s3, e3⟩ : ∃ t, t = s2.endSummon i .cancelled := ⟨_, rfl⟩
  obtain ⟨s4, e4⟩ : ∃ t, t = s3.dropPin i := ⟨_, rfl⟩
  obtain ⟨s5, e5⟩ : ∃ t, t = s4.markLeft i := ⟨_, rfl⟩
  have e : s.becomeFree i notes reason = ((s5.emptyRecord i).offerReason? i reason).reportAllocatable i := by
    rw [e5, e4, e3, e2, e1]
    rfl
  have r1 : s1.roster = s.roster := by rw [e1]; simp
  obtain ⟨⟨r, hr, hri⟩, m2, m3, m4⟩ := State.freeMessages_spec s1 i notes
  obtain ⟨a1, a2, a3⟩ := State.endSummon_spec s2 i .cancelled
  obtain ⟨b1, b2, b3⟩ := State.dropPin_spec s3 i
  obtain ⟨c1, c2, c3, c4⟩ := State.markLeft_spec s4 i
  have g0 : r.carId = (s.record i).carId ∧ r.mark = (s.record i).mark ∧ r.summoned = (s.record i).summoned
      ∧ r.pinned = (s.record i).pinned ∧ r.contact = (s.record i).contact := by
    rw [State.record_congr r1 i] at hr
    rcases hr with rfl | ⟨c, _, rfl⟩ <;> exact ⟨rfl, rfl, rfl, rfl, rfl⟩
  have g2 : s2.record i = { r with messages := [], inFlight := none, handover := none } := by
    rw [e2, State.dropContext, State.record_modifyRecord, hri]
  have t2 : s2.tail = s.tail := by
    rw [e2, State.dropContext_tail, m3]
    exact State.tail_congr r1
  have w4 : s4.sweep = s.sweep := by rw [e4, e3, e2, e1]; simp
  have g4 : (s4.record i).mark = (s.record i).mark ∧ (s4.record i).carId = (s.record i).carId := by
    rw [e4, b1, e3, a1, g2]
    exact ⟨g0.2.1, g0.1⟩
  have g3 : (s3.record i).pinned = (s.record i).pinned := by
    rw [e3, a1, g2]
    exact g0.2.2.2.1
  have hw : s4.sweepAwaits i = s.sweepAwaits i := State.sweepAwaits_congr w4 g4.1
  have ht : (s.becomeFree i notes reason).tail = (s5.passOver i).tail := by
    rw [e, State.tail_congr (State.reportAllocatable_roster _ _), State.tail_congr (State.offerReasonOpt_roster _ _ _)]
    rfl
  have hrec : ∀ j, (s.becomeFree i notes reason).record j = (s5.emptyRecord i).record j := by
    intro j
    rw [e, State.record_congr (State.reportAllocatable_roster _ _), State.record_congr (State.offerReasonOpt_roster _ _ _)]
  have hs : (s.becomeFree i notes reason).sweep = s5.sweep := by rw [e]; simp
  have hpool : (s.becomeFree i notes reason).pool = (s1.freeMessages i notes).pool := by
    rw [e, e5, e4, e3, e2]; simp
  have hquiet : (s.becomeFree i notes reason).quiet = s.quiet := by simp
  have hT : s5.tail =
      (s.roster.tagCounter, s.roster.pagePointer, s.roster.summonCount - (if (s.record i).summoned then 1 else 0),
        s.roster.pinnedCount - (if (s.record i).pinned then 1 else 0), s.roster.held, s.roster.passedOver) := by
    have hs2 : (s2.record i).summoned = (s.record i).summoned := by rw [g2]; exact g0.2.2.1
    rw [e5, c3, e4, b3, g3]
    simp only [State.tail, Prod.mk.injEq] at t2 a3
    obtain ⟨p1, p2, p3, p4, p5, p6⟩ := t2
    rw [hs2, ← e3] at a3
    obtain ⟨q1, q2, q3, q4, q5, q6⟩ := a3
    rw [q1, q2, q3, q4, q5, q6, p1, p2, p3, p4, p5, p6]
  rw [State.passOver_tail, hT] at ht
  have h6 : s5.roster.passedOver = s.roster.passedOver := congrArg (fun t => t.2.2.2.2.2) hT
  simp only [State.tail, Prod.mk.injEq] at ht
  obtain ⟨k1, k2, k3, k4, k5, k6⟩ := ht
  have hcalm := State.calm_of_quiet hquiet
  have hair : (s.becomeFree i notes reason).air = (s.withdrawGrant i).air := by rw [e, e5, e4, e3, e2, e1]; simp
  have hleaves : s5.leavesPaging i = s.leavesPaging i := by
    have ha : s5.air.slot = s.air.slot ∧ s5.air.work = s.air.work := by
      have h : s5.air = (s.withdrawGrant i).air := by rw [e5, e4, e3, e2, e1]; simp
      rw [h]
      exact ⟨rfl, rfl⟩
    have hk : (s5.record i).contact = (s.record i).contact := by
      rw [e5, c1, e4, b1, e3, a1, g2]
      exact g0.2.2.2.2
    simp only [State.leavesPaging, ha.1, ha.2, hk]
  have hpassed : s.passedOverIn (s.becomeFree i notes reason) i := by
    intro j
    rw [k6, State.mem_passOver, h6, hleaves, State.leavesPaging_iff]
  obtain ⟨q1, q2, q3⟩ := State.freeListed_fold_reported notes (s1.record i).carId s1 (s1.record i).messages s1 rfl
    (Or.inr rfl)
  obtain ⟨m, hm⟩ : ∃ m, m = (s1.record i).messages.foldl (State.freeListed notes (s1.record i).carId) s1 := ⟨_, rfl⟩
  rw [← hm] at q1 q2 q3
  have hc5 : s5.conditions = m.conditions := by rw [e5, e4, e3, e2, State.freeMessages, ← hm]; simp
  have p1 : s1.params = s.params := by rw [e1]; exact State.params_of_calm (State.calm_of_quiet (by simp))
  have l1 : s1.pool = s.pool := by rw [e1]; simp
  have hf1 : ∀ c, c ≠ .planFull → s1.classFlags c = s.classFlags c := by
    intro c hc
    rw [e1]
    exact State.freeCellsWhere_classFlags_ne (s.withdrawGrant i) _ hc
  have hid : ∀ c, c ≠ .identity → c ≠ .rosterFull →
      (s.becomeFree i notes reason).classFlags c = s5.classFlags c := by
    intro c h1 h2
    rw [e]
    unfold State.reportAllocatable State.emptyRecord State.reportIdentity
    split
    · rw [State.classFlags_congr (State.offerReasonOpt_conditions _ _ _)]
      exact State.classFlags_reportCause_ne ((s5.passOver i).modifyRecord i _) _ (fun e => h1 e.symm)
    · rw [State.classFlags_reportCause_ne _ _ (fun e => h2 e.symm), State.classFlags_congr (State.offerReasonOpt_conditions _ _ _)]
      exact State.classFlags_reportCause_ne ((s5.passOver i).modifyRecord i _) _ (fun e => h1 e.symm)
  have hother : ∀ c, c ≠ .identity → c ≠ .rosterFull → c ≠ .poolLow → c ≠ .planFull →
      (s.becomeFree i notes reason).classFlags c = s.classFlags c := by
    intro c h1 h2 h3 h4
    rw [hid c h1 h2, State.classFlags_congr hc5, q3 c h3, hf1 c h4]
  have hplan : s.planFreed (s.becomeFree i notes reason) (heldBy i) := by
    have h := State.freeCellsWhere_planFreed (s.withdrawGrant i) (fun h => h.holder == i)
    have hcf : (s.becomeFree i notes reason).classFlags .planFull
        = ((s.withdrawGrant i).freeCellsWhere fun h => h.holder == i).classFlags .planFull := by
      rw [hid _ (by decide) (by decide), State.classFlags_congr hc5, q3 _ (by decide), e1]
      rfl
    have hh : (Option.any fun h : CellHolding => h.holder == i) = heldBy i := by
      funext c
      cases c <;> rfl
    rw [hh] at h
    unfold State.planFreed State.causeEnded at *
    rw [hcf]
    exact h
  have hlow : s.poolReported (s.becomeFree i notes reason) (∃ b ∈ (s.record i).messages, s.pool[b] ≠ none) := by
    have hcf : (s.becomeFree i notes reason).classFlags .poolLow = m.classFlags .poolLow := by
      rw [hid _ (by decide) (by decide), State.classFlags_congr hc5]
    have hfb : (s.becomeFree i notes reason).freeBuffers = m.freeBuffers := by
      have hpm : (s.becomeFree i notes reason).pool = m.pool := by
        rw [hpool, State.freeMessages, ← hm]
        rfl
      simp only [State.freeBuffers, hpm]
    have hs1 : s1.classFlags .poolLow = s.classFlags .poolLow := hf1 _ (by decide)
    rw [State.record_congr r1 i, l1, p1] at q1
    rw [State.record_congr r1 i, l1] at q2
    unfold State.poolReported State.classReported at *
    rw [hcf, hfb, ← hs1]
    refine ⟨fun h => q1 (Or.inr h), fun h => q2 (fun b hb => ?_)⟩
    exact Classical.byContradiction fun hne => h ⟨b, hb, hne⟩
  have hident : s.classReported (s.becomeFree i notes reason) .identity
      (decide (∃ j, j ≠ i ∧ (s.record j).hard ≠ none)) := by
    obtain ⟨w, hw'⟩ : ∃ w, w = (s5.passOver i).modifyRecord i
        fun r => { Record.free with carId := r.carId, mark := r.mark } := ⟨_, rfl⟩
    have hcause : (w.roster.records.toList.any fun r => r.hard.isSome) = decide (∃ j, j ≠ i ∧ (s.record j).hard ≠ none) := by
      have hj : ∀ j, j ≠ i → (w.record j).hard = (s.record j).hard := by
        intro j hj
        have hsent : (s.record j).sameButSent (w.record j) := by
          rw [hw', State.record_modifyRecord_ne _ _ (fun e => hj e.symm), State.record_passOver, e5, c2 j hj, e4, b2 j hj, e3,
            a2 j hj, e2, State.dropContext, State.record_modifyRecord_ne _ _ (fun e => hj e.symm)]
          have h := m2 j hj
          rwa [State.record_congr r1 j] at h
        rcases hsent with h | ⟨_, _, h⟩ <;> rw [h]
      have hi : (w.record i).hard = none := by rw [hw', State.record_modifyRecord]; rfl
      rw [Bool.eq_iff_iff, List.any_eq_true, decide_eq_true_iff]
      constructor
      · rintro ⟨r, hr, hh⟩
        obtain ⟨n, hn, en⟩ := Vector.getElem_of_mem (Vector.mem_toList_iff.mp hr)
        have en' : w.record ⟨n, hn⟩ = r := en
        refine ⟨⟨n, hn⟩, fun ei => ?_, ?_⟩
        · rw [← en', ei, hi] at hh
          exact absurd hh (by simp)
        · intro h0
          by_cases ei : (⟨n, hn⟩ : Fin 48) = i
          · rw [← en', ei, hi] at hh
            exact absurd hh (by simp)
          · rw [← en', hj _ ei, h0] at hh
            exact absurd hh (by simp)
      · rintro ⟨j, hji, hne⟩
        refine ⟨w.record j, Vector.mem_toList_iff.mpr (Vector.getElem_mem j.isLt), ?_⟩
        rw [hj j hji]
        exact Option.isSome_iff_ne_none.mpr hne
    have hcf : (s.becomeFree i notes reason).classFlags .identity = w.reportIdentity.classFlags .identity := by
      rw [e]
      unfold State.reportAllocatable
      have hx : (((s5.emptyRecord i).offerReason? i reason)).classFlags .identity = w.reportIdentity.classFlags .identity := by
        rw [State.classFlags_congr (State.offerReasonOpt_conditions _ _ _), hw']
        rfl
      split
      · exact hx
      · rw [State.classFlags_reportCause_ne _ _ (by decide)]
        exact hx
    have hw5 : w.classFlags .identity = s.classFlags .identity := by
      have h1 : w.classFlags .identity = s5.classFlags .identity := by rw [hw']; rfl
      rw [h1, State.classFlags_congr hc5, q3 _ (by decide), hf1 _ (by decide)]
    have k := State.reportCause_reported w .identity (w.roster.records.toList.any fun r => r.hard.isSome)
    rw [hcause] at k
    unfold State.reportIdentity at hcf
    rw [hcause] at hcf
    unfold State.classReported at *
    rw [hcf, ← hw5]
    exact k
  have hroster : s.causeEnded (s.becomeFree i notes reason) .rosterFull
      ((s.becomeFree i notes reason).onAttention i = false) := by
    obtain ⟨w, hw'⟩ : ∃ w, w = (s5.emptyRecord i).offerReason? i reason := ⟨_, rfl⟩
    have hw5 : w.classFlags .rosterFull = s.classFlags .rosterFull := by
      rw [hw', State.classFlags_congr (State.offerReasonOpt_conditions _ _ _)]
      have h1 : (s5.emptyRecord i).classFlags .rosterFull = s5.classFlags .rosterFull :=
        State.classFlags_reportCause_ne ((s5.passOver i).modifyRecord i _) _ (by decide)
      rw [h1, State.classFlags_congr hc5, q3 _ (by decide), hf1 _ (by decide)]
    have hatt : (w.reportAllocatable i).onAttention i = w.onAttention i := by
      unfold State.reportAllocatable
      split <;> rfl
    rw [e, ← hw']
    unfold State.causeEnded
    rw [hatt, ← hw5]
    unfold State.reportAllocatable
    split <;> rename_i h
    · exact ⟨fun e => absurd h (by simp [e]), fun _ => rfl⟩
    · exact ⟨fun _ => State.classFlags_reportCause_false _ _, fun e => absurd (by simpa using h) e⟩
  have hclasses : s.classesFreed (s.becomeFree i notes reason) i :=
    ⟨hplan, hlow, hident, hroster, hother _ (by decide) (by decide) (by decide) (by decide),
      hother _ (by decide) (by decide) (by decide) (by decide)⟩
  refine ⟨⟨?_, ?_, ?_, ?_, k3, k4, ?_, k1, k2, hpassed, hclasses, k5, State.params_of_calm hcalm, State.inbound_of_quiet hquiet,
    State.clock_of_calm hcalm, State.resetPending_of_calm hcalm, State.resetHeld_of_calm hcalm,
    State.rfReady_of_quiet hquiet, State.pending_of_calm hcalm⟩, hair,
    fun c hc => hother c (by rintro rfl; simp at hc) (by rintro rfl; simp at hc) (by rintro rfl; simp at hc)
      (by rintro rfl; simp at hc)⟩
  · rw [hrec i, State.emptyRecord, State.record_congr (State.reportIdentity_roster _), State.record_modifyRecord,
      State.record_passOver, e5, c1,
      g4.1, g4.2, hw]
  · intro j hj
    rw [hrec j, State.emptyRecord, State.record_congr (State.reportIdentity_roster _),
      State.record_modifyRecord_ne _ _ (fun e => hj e.symm), State.record_passOver, e5, c2 j hj, e4, b2 j hj, e3, a2 j hj, e2,
      State.dropContext, State.record_modifyRecord_ne _ _ (fun e => hj e.symm)]
    have h := m2 j hj
    rwa [State.record_congr r1 j] at h
  · intro k
    have hc : (s.becomeFree i notes reason).cells = s1.cells := by rw [e, e5, e4, e3, e2]; simp
    have h1 : s1.cells[k] = if heldBy i s.cells[k] then none else s.cells[k] := by
      rw [e1]
      have hf : (s.withdrawGrant i).cells = s.cells := by simp
      show ((s.withdrawGrant i).freeCellsWhere _).cells[k.val] = _
      rw [State.freeCellsWhere_getElem _ _ _ k.isLt]
      simp only [hf]
      show (if Option.any _ s.cells[k.val] = true then none else s.cells[k.val]) = if heldBy i s.cells[k.val] = true then none else s.cells[k.val]
      cases s.cells[k.val] <;> rfl
    show (s.becomeFree i notes reason).cells[k.val] = _
    simp only [hc]
    exact h1
  · intro b
    show (s.becomeFree i notes reason).pool[b.val] = _
    simp only [hpool]
    have h := m4 b
    have hp : s1.pool = s.pool := by rw [e1]; simp
    rw [State.record_congr r1 i] at h
    simp only [hp] at h
    exact h
  · rw [hs, e5, c4, hw, w4]

/-! ## An accepted claim (R143) -/

theorem State.passedOver_of_tail {s t : State} (h : t.tail = s.tail) : t.roster.passedOver = s.roster.passedOver :=
  congrArg (fun t => t.2.2.2.2.2) h

/-- A record whose claim is accepted is passed over if it leaves PAGING during slot 0, and no other is (R84). -/
theorem State.acceptClaim_passedOver (s : State) (i : Fin 48) (claimant : Nat) :
    s.passedOverIn (s.acceptClaim i claimant) i := by
  obtain ⟨s1, e1⟩ : ∃ t, t = (s.withdrawGrant i).giveUpTurn i := ⟨_, rfl⟩
  have r1 : s1.roster.passedOver = s.roster.passedOver := by
    rw [e1]
    unfold State.giveUpTurn State.freeCellsOf
    rw [State.modifyRecord_passedOver]
    unfold State.freeCellsWhere
    split <;> rfl
  have a1 : s1.air.slot = s.air.slot ∧ s1.air.work = s.air.work := by
    rw [e1]
    simp only [State.giveUpTurn_air]
    exact ⟨rfl, rfl⟩
  have k1 : (s1.record i).contact = (s.record i).contact := by
    rw [e1, State.giveUpTurn, State.record_modifyRecord]
    show (((s.withdrawGrant i).freeCellsOf i).record i).contact = _
    unfold State.freeCellsOf State.freeCellsWhere
    split <;> rfl
  have hleaves : s1.leavesPaging i = s.leavesPaging i := by simp only [State.leavesPaging, a1.1, a1.2, k1]
  have h : (s.acceptClaim i claimant).roster.passedOver = (s1.passOver i).roster.passedOver := by
    unfold State.acceptClaim
    rw [← e1]
    rw [State.passedOver_of_tail (State.markLeft_spec _ i).2.2.1]
    refine (congrArg (fun t => t.2.2.2.2.2) (State.endSummon_spec _ i .handed).2.2).trans ?_
    show (State.openContext _ i .handing claimant none).roster.passedOver = _
    unfold State.openContext
    rw [State.passedOver_of_tail (State.arbitrateToward_tail _ _)]
    rfl
  intro j
  rw [h, State.mem_passOver, r1, hleaves, State.leavesPaging_iff]

/-! ## The page list handed back (R84) -/

@[simp] theorem State.usePage_passedOver (s : State) (p : BeaconPage) :
    (s.usePage p).roster.passedOver = s.roster.passedOver := by
  unfold State.usePage
  split <;> rfl

/-- One page handed back lowers the count of its record alone, if the record is still PAGING with that car ID and has not
left PAGING during the slot. -/
theorem State.usePage_record (s : State) (p : BeaconPage) (i : Fin 48) :
    (s.usePage p).record i =
      if p.record = i ∧ (s.record i).contact = .paging ∧ (s.record i).carId = p.carId ∧ i ∉ s.roster.passedOver then
        { s.record i with pageCount := (s.record i).pageCount - 1 }
      else s.record i := by
  unfold State.usePage
  by_cases h : p.record = i
  · subst h
    split <;> rename_i h <;> simp_all
  · split <;> simp_all [State.record_modifyRecord_ne _ _ h]

/-- A page list handed back SENT lowers the counts of the records it names, each once. -/
theorem State.usePage_fold_record (pages : List BeaconPage) : ∀ s : State, (pages.map BeaconPage.record).Nodup → ∀ i,
    (pages.foldl State.usePage s).record i =
      if ∃ p ∈ pages, p.record = i ∧ (s.record i).contact = .paging ∧ (s.record i).carId = p.carId
          ∧ i ∉ s.roster.passedOver then
        { s.record i with pageCount := (s.record i).pageCount - 1 }
      else s.record i := by
  induction pages with
  | nil => intro s _ i; simp
  | cons p pages ih =>
      intro s hn i
      simp only [List.map_cons, List.nodup_cons, List.mem_map, not_exists, not_and] at hn
      rw [List.foldl_cons, ih _ hn.2, State.usePage_passedOver, State.usePage_record]
      by_cases h : p.record = i
      · have hno : ∀ P : BeaconPage → Prop, ¬ ∃ q ∈ pages, q.record = i ∧ P q :=
          fun P ⟨q, hq, e, _⟩ => hn.1 q hq (e.trans h.symm)
        simp only [hno, if_false]
        congr 1
        simp only [List.mem_cons, exists_eq_or_imp, hno, or_false]
      · simp only [h, false_and, if_false, List.mem_cons, exists_eq_or_imp, false_or]

end Sys2Proof.Machine
end

