-- ==== Sys2Proof/Laws/Events.lean ====
section
/-! SUPPORT. What the events with the most cases come to, said once for the statements about them: the end of a turn slot
with an exchange, a frame for this station taken from a receive queue, and a handover frame made due. -/

namespace Sys2Proof.Machine

/-! ## The end of a turn slot, and a frame taken -/

/-- The end of a turn slot with an exchange, in the terms of R18, R37 and R75: the window counted, the exchange judged, the
held work (here none) taken, a pending halt, and the slot cleared. -/
theorem State.slotEnd_exchange {s : State} {k : Fin 32} {x : Exchange} (h : s.endsExchange k x) :
    exec .slotEnd s = .next
      ((((s.countWindow (s.air.judge decodeAnswer)).judgeExchange x true k.val
        (x.poll.outcome (s.air.judge decodeAnswer))).closeWindow x.record).applyHalt.clearSlot) := by
  obtain ⟨h1, h2, h3, h4, h5, h6, h7, h8, -, -⟩ := h
  obtain ⟨w, hw⟩ := Option.ne_none_iff_exists'.mp h6
  have k0 : k.val ≠ 0 := by omega
  have k2 : ¬ k.val ≤ 2 := by omega
  have k31 : k.val ≠ 31 := by omega
  simp [exec, execSlotEnd, unlessHeld, State.slotEnd, State.finishSlot, State.endNotice, State.endTurn,
    State.countDarkEnd, SlotLight.sent, h1, h2, h3, h7, h8, hw, k0, k2, k31]

/-- A frame whose destination is this station or none, taken from the head of a receive queue (R127, R128). -/
theorem State.receiveQueueTake_here {s s' : State} {p : Port} {f : BackboneFrame} {rest : List BackboneFrame}
    (h : s.resetHeld = false) (hn : s.params.station ≠ 0) (hf : (s.port p).receive = f :: rest)
    (hs : s' = s.setPort p { s.port p with receive := rest }) (hd : f.dest = 0 ∨ f.dest = s.params.station) :
    exec (.receiveQueueTake p) s = .next (s'.handleHere p f) := by
  subst hs
  simp [exec, execReceiveQueueTake, unlessHeld, State.takeReceived, State.route, State.modifyPort, h, hf, hn, hd]

/-! ## Handover frames made due -/

/-- What a choice of the arbiter of a port leaves of a record with a context: the record as it was, or its frame begun on the
port and no longer due (R133). -/
def State.servedOrKept (s t : State) (p : Port) (i : Fin 48) (c : HandoverContext) : Prop :=
  t.record i = s.record i ∨
    portToward s.params.station c.peer = some p
      ∧ t.record i = { s.record i with handover := some { c with due := false } }
      ∧ (t.port p).sending = some (s.handoverFrame (s.record i) c)

theorem State.serveHandover_context (s : State) (p : Port) {i j : Fin 48} {c : HandoverContext}
    (hc : (s.record i).handover = some c) (hj : s.handoverWaiting p = some j) :
    s.servedOrKept (s.serveHandover p j) p i c := by
  have hd : s.dueThrough p j = true := List.find?_some hj
  unfold State.serveHandover
  by_cases hij : j = i
  · subst hij
    simp only [State.dueThrough, hc, Bool.and_eq_true, beq_iff_eq] at hd
    refine Or.inr ⟨hd.2, ?_, ?_⟩
    · simp only [hc]
      rw [State.record_congr (State.modifyPort_roster _ _ _), State.record_modifyRecord,
        State.record_congr (State.beginFrame_roster _ _ _)]
    · cases p <;> simp [hc, State.beginFrame, State.modifyPort, State.setPort, State.modifyRecord, State.setRecord,
        State.port]
  · left
    split
    · rw [State.record_congr (State.modifyPort_roster _ _ _), State.record_modifyRecord_ne _ _ hij,
        State.record_congr (State.beginFrame_roster _ _ _)]
    · rfl

theorem State.chooseSource_context (s : State) (p : Port) {i : Fin 48} {c : HandoverContext}
    (hc : (s.record i).handover = some c) : s.servedOrKept (s.chooseSource p) p i c := by
  unfold State.chooseSource
  (repeat' split) <;>
    first
      | exact s.serveHandover_context p hc (by assumption)
      | exact Or.inl (State.record_congr (by simp) i)

/-- The arbiter of a port, seen from one record with a context (R133): the record is as it was, or the idle transmitter of a
port in use that leads toward the peer has begun its frame, and it is no longer due. -/
theorem State.arbitrate_context (s : State) (p : Port) {i : Fin 48} {c : HandoverContext}
    (hc : (s.record i).handover = some c) :
    (s.arbitrate p).record i = s.record i ∨
      s.params.inUse p = true ∧ (s.port p).sending = none ∧ s.servedOrKept (s.arbitrate p) p i c := by
  unfold State.arbitrate
  split
  · rename_i h
    simp only [Bool.and_eq_true, Option.isNone_iff_eq_none] at h
    refine Or.inr ⟨h.1, h.2, ?_⟩
    split
    · split
      · have h' := (s.modifyPort p fun q => { q with helloDue := false }).chooseSource_context p (i := i) (c := c)
          (by rw [State.record_congr (State.modifyPort_roster _ _ _)]; exact hc)
        have e : (s.modifyPort p fun q => { q with helloDue := false }).record i = s.record i :=
          State.record_congr (State.modifyPort_roster _ _ _) i
        have ep : (s.modifyPort p fun q => { q with helloDue := false }).params = s.params := by cases p <;> rfl
        have el : ∀ r, (s.modifyPort p fun q => { q with helloDue := false }).handoverFrame r c = s.handoverFrame r c := by
          intro r; cases p <;> rfl
        unfold State.servedOrKept at h' ⊢
        rwa [e, ep, el] at h'
      · exact Or.inl (State.record_congr (by simp) i)
    · exact s.chooseSource_context p hc
  · exact Or.inl rfl

theorem State.chooseSource_ports_ne (s : State) {p q : Port} (h : q ≠ p) : (s.chooseSource p).port q = s.port q := by
  unfold State.chooseSource State.serveTraffic State.serveHandover State.beginFrame
  (repeat' split) <;> cases p <;> cases q <;> first | rfl | exact absurd rfl h

/-- The arbiter of a port leaves the other port as it was. -/
theorem State.arbitrate_ports_ne (s : State) {p q : Port} (h : q ≠ p) : (s.arbitrate p).port q = s.port q := by
  have hm : ∀ f, (s.modifyPort p f).port q = s.port q := by
    intro f; cases p <;> cases q <;> first | rfl | exact absurd rfl h
  unfold State.arbitrate
  (repeat' split)
  · rw [State.chooseSource_ports_ne _ h, hm]
  · unfold State.beginFrame
    cases p <;> cases q <;> first | rfl | exact absurd rfl h
  · exact State.chooseSource_ports_ne _ h
  · rfl

/-- A choice of the arbiter on an idle transmitter of a port in use where one record's frame alone waits: it is begun
(R133). -/
theorem State.arbitrate_alone (s : State) (p : Port) {i : Fin 48} {c : HandoverContext}
    (hc : (s.record i).handover = some c) (hd : s.dueThrough p i = true) (hu : s.params.inUse p = true)
    (hs : (s.port p).sending = none) (hh : (s.port p).helloDue = false) (ht : (s.port p).traffic = [])
    (ho : ∀ j, j ≠ i → s.dueThrough p j = false) :
    (s.arbitrate p).record i = { s.record i with handover := some { c with due := false } }
      ∧ (s.arbitrate p).port p =
          { s.port p with sending := some (s.handoverFrame (s.record i) c), rotation := i, lastServed := .handover } := by
  have hw : s.handoverWaiting p = some i := by
    cases h : s.handoverWaiting p with
    | none =>
        have h' := List.find?_eq_none.mp h i (by
          simp only [rotationFrom, List.mem_append, List.mem_filter, allRecords, List.mem_finRange, true_and, decide_eq_true_eq]
          omega)
        exact absurd hd h'
    | some j =>
        by_cases hj : j = i
        · rw [hj]
        · have h' : s.dueThrough p j = true := List.find?_some h
          rw [ho j hj] at h'
          exact absurd h' (by simp)
  have e : s.arbitrate p = s.serveHandover p i := by
    simp [State.arbitrate, State.chooseSource, hu, hs, hh, hw, ht]
  rw [e]
  unfold State.serveHandover
  simp only [hc]
  refine ⟨?_, ?_⟩
  · rw [State.record_congr (State.modifyPort_roster _ _ _), State.record_modifyRecord,
      State.record_congr (State.beginFrame_roster _ _ _)]
  · cases p <;> rfl

/-- A statement about a frame due or begun reads the ports, the parameters and the other records' contexts alone. -/
theorem State.dueOrBegun.of_before {s u t : State} {i : Fin 48} {peer : Nat} {due : Bool} {f : BackboneFrame}
    (h : s.dueOrBegun t i peer due f) (hp : s.params = u.params) (hq : ∀ p, s.port p = u.port p)
    (hr : ∀ j, j ≠ i → (s.record j).handover = (u.record j).handover) : u.dueOrBegun t i peer due f := by
  have hd : ∀ p j, j ≠ i → s.dueThrough p j = u.dueThrough p j := by
    intro p j hj
    unfold State.dueThrough
    rw [hr j hj, hp]
  obtain ⟨h1, h2⟩ := h
  refine ⟨?_, fun p hpp => ?_⟩
  · simpa only [hp, hq] using h1
  · obtain ⟨a, b, c⟩ := h2 p (by rw [hp]; exact hpp)
    refine ⟨fun q hqp => by rw [a q hqp, hq], fun hb => ?_, fun c1 c2 c3 c4 c5 => ?_⟩
    · rw [← hq]
      exact b (by rw [hp, hq]; exact hb)
    · rw [← hq]
      exact c (by rw [hp]; exact c1) (by rw [hq]; exact c2) (by rw [hq]; exact c3) (by rw [hq]; exact c4)
        (fun j hj => by rw [hd p j hj]; exact c5 j hj)

/-- The record of a context whose frame was made due, and the arbiter of the port toward its peer called (R138): the frame is
due, or it has begun. -/
theorem State.arbitrateToward_due (s : State) {i : Fin 48} {c : HandoverContext}
    (hc : (s.record i).handover = some c) (hd : c.due = true) :
    ∃ due, (s.arbitrateToward c.peer).record i = { s.record i with handover := some { c with due := due } }
      ∧ s.dueOrBegun (s.arbitrateToward c.peer) i c.peer due (s.handoverFrame (s.record i) c) := by
  have keep : { s.record i with handover := some { c with due := true } } = s.record i := by rw [← hd, ← hc]
  unfold State.arbitrateToward
  split
  · rename_i p hp
    have one : ∀ q, portToward s.params.station c.peer = some q → q = p := by
      intro q hq
      rw [hp] at hq
      exact (Option.some.inj hq).symm
    have hdt : s.dueThrough p i = true := by simp [State.dueThrough, hc, hd, hp]
    have ne : ∀ q, q ≠ p → (s.arbitrate p).port q = s.port q := fun q => State.arbitrate_ports_ne s
    have blocked : s.params.inUse p = false ∨ (s.port p).sending ≠ none → s.arbitrate p = s := by
      rintro (h | h)
      · simp [State.arbitrate, h]
      · unfold State.arbitrate
        cases h' : (s.port p).sending with
        | none => exact absurd h' h
        | some f => simp
    by_cases hb : s.params.inUse p = false ∨ (s.port p).sending ≠ none
    · refine ⟨true, by rw [blocked hb, keep], Or.inl rfl, fun q hq => ?_⟩
      obtain rfl := one q hq
      refine ⟨ne, fun _ => ⟨rfl, by rw [blocked hb]⟩, fun h1 h2 => ?_⟩
      rcases hb with hb | hb
      · rw [h1] at hb; exact absurd hb (by simp)
      · exact absurd h2 hb
    · have hu : s.params.inUse p = true := by
        cases h : s.params.inUse p with
        | true => rfl
        | false => exact absurd (Or.inl h) hb
      have hs : (s.port p).sending = none := by
        cases h : (s.port p).sending with
        | none => rfl
        | some f => exact absurd (Or.inr (by rw [h]; simp)) hb
      by_cases ha : (s.port p).helloDue = false ∧ (s.port p).traffic = [] ∧ ∀ j, j ≠ i → s.dueThrough p j = false
      · obtain ⟨a1, a2⟩ := s.arbitrate_alone p hc hdt hu hs ha.1 ha.2.1 ha.2.2
        refine ⟨false, a1, Or.inr ⟨p, hp, hu, hs, by rw [a2]⟩, fun q hq => ?_⟩
        obtain rfl := one q hq
        exact ⟨ne, fun h => absurd h hb, fun _ _ _ _ _ => ⟨rfl, a2⟩⟩
      · have rest : ∀ due, ∀ q, portToward s.params.station c.peer = some q →
            (∀ q', q' ≠ q → (s.arbitrate p).port q' = s.port q')
              ∧ (s.params.inUse q = false ∨ (s.port q).sending ≠ none → due = true ∧ (s.arbitrate p).port q = s.port q)
              ∧ (s.params.inUse q = true → (s.port q).sending = none → (s.port q).helloDue = false →
                  (s.port q).traffic = [] → (∀ j, j ≠ i → s.dueThrough q j = false) →
                  due = false ∧ (s.arbitrate p).port q =
                    { s.port q with
                      sending := some (s.handoverFrame (s.record i) c), rotation := i, lastServed := .handover }) := by
          intro due q hq
          obtain rfl := one q hq
          exact ⟨ne, fun h => absurd h hb, fun _ _ h3 h4 h5 => absurd ⟨h3, h4, h5⟩ ha⟩
        rcases s.arbitrate_context p hc with h | ⟨h1, h2, h | ⟨h3, h4, h5⟩⟩
        · exact ⟨true, by rw [h, keep], Or.inl rfl, rest true⟩
        · exact ⟨true, by rw [h, keep], Or.inl rfl, rest true⟩
        · exact ⟨false, h4, Or.inr ⟨p, h3, h1, h2, h5⟩, rest false⟩
  · rename_i hp
    exact ⟨true, keep.symm, Or.inl rfl, fun q hq => by rw [hp] at hq; exact absurd hq (by simp)⟩

end Sys2Proof.Machine
end

