-- ==== Sys2Proof/Laws/Requests.lean ====
section
/-! SUPPORT. What the shared forms of a command answer: the tests of a request, an event, an index byte, a two-byte field
and the attention list. -/

namespace Sys2Proof.Machine

/-! ## The tests of a request -/

theorem State.takesRequests_iff (s : State) :
    s.takesRequests = true ↔ s.resetHeld = false ∧ s.resetPending = false := by
  simp [State.takesRequests]

/-- A request of the right length is carried out when the part takes requests (R165). -/
theorem hostRequest_taken {s : State} (h : s.takesRequests = true) (command : State → State) :
    hostRequest true command s = .next (command s) := by
  obtain ⟨h1, h2⟩ := s.takesRequests_iff.mp h
  simp [hostRequest, h1, h2]

/-- A request of the wrong length is answered BAD_VALUE (R165). -/
theorem hostRequest_wrongLength {s : State} (h : s.resetHeld = false) (command : State → State) :
    hostRequest false command s = .next (s.refuse .badValue) := by
  simp [hostRequest, h]

/-- A request is answered BUSY while a station reset awaits its slot end (R165, R166). -/
theorem hostRequest_busy {s : State} (h : s.resetHeld = false) (hp : s.resetPending = true) (command : State → State) :
    hostRequest true command s = .next (s.refuse .busy) := by
  simp [hostRequest, h, hp]

theorem hostRequest_held {s : State} (h : s.resetHeld = true) (lengthFits : Bool) (command : State → State) :
    hostRequest lengthFits command s = .next s := by
  simp [hostRequest, h]

/-- A request always answers a next state: the state, a refusal of it, or the command's result. -/
theorem hostRequest_next (lengthFits : Bool) (command : State → State) (s : State) :
    ∃ t, hostRequest lengthFits command s = .next t
      ∧ (t = s ∨ t = s.refuse .badValue ∨ t = s.refuse .busy ∨ t = command s) := by
  unfold hostRequest
  (repeat' split) <;> simp

theorem unlessHeld_released {s : State} (h : s.resetHeld = false) (event : State → State) :
    unlessHeld event s = .next (event s) := by
  simp [unlessHeld, h]

theorem unlessHeld_held {s : State} (h : s.resetHeld = true) (event : State → State) :
    unlessHeld event s = .next s := by
  simp [unlessHeld, h]

/-- An event always answers a next state: the state, or the event's result. -/
theorem unlessHeld_next (event : State → State) (s : State) :
    ∃ t, unlessHeld event s = .next t ∧ (t = s ∨ t = event s) := by
  unfold unlessHeld
  split <;> simp

/-! ## Bytes of numbers -/

theorem byteOf_toNat (n : Nat) : (byteOf n).toNat = n % 256 := by
  simp [byteOf]

theorem byteOf_toNat_of_lt {n : Nat} (h : n < 256) : (byteOf n).toNat = n := by
  rw [byteOf_toNat, Nat.mod_eq_of_lt h]

theorem byteOf_byte (b : Byte) : byteOf b.toNat = b := by
  simp [byteOf]

theorem wordOf_bytes16 {n : Nat} (h : n < 65536) : wordOf (byteOf (n / 256)) (byteOf n) = n := by
  unfold wordOf
  rw [byteOf_toNat, byteOf_toNat]
  omega

theorem wordOf_lt (hi lo : Byte) : wordOf hi lo < 65536 := by
  have h1 := hi.isLt
  have h2 := lo.isLt
  unfold wordOf
  omega

theorem recordIndex_byteOf (i : Fin 48) : recordIndex (byteOf i.val) = some i := by
  have h : (byteOf i.val).toNat = i.val := byteOf_toNat_of_lt (by omega)
  unfold recordIndex
  simp [h]

theorem recordIndex_none {b : Byte} (h : 47 < b.toNat) : recordIndex b = none := by
  unfold recordIndex
  rw [dif_neg (by omega)]

theorem State.onIndex_byteOf (s : State) (i : Fin 48) (rest : List Byte) (command : Fin 48 → State → State) :
    s.onIndex (byteOf i.val :: rest) command = command i s := by
  simp [State.onIndex, recordIndex_byteOf]

theorem State.onIndex_high (s : State) {b : Byte} (h : 47 < b.toNat) (rest : List Byte)
    (command : Fin 48 → State → State) : s.onIndex (b :: rest) command = s.refuse .badIndex := by
  simp [State.onIndex, recordIndex_none h]

/-! ## The attention list -/

/-- The records on the list after a reason was added: as before, or with the record at the tail (R168). -/
theorem addReason_records (list : List AttentionEntry) (i : Fin 48) (reason : Reason) :
    (addReason list i reason).map AttentionEntry.record
      = if (list.any fun e => e.record == i) = true then list.map AttentionEntry.record
        else list.map AttentionEntry.record ++ [i] := by
  unfold addReason
  split
  · rw [List.map_map]
    apply List.map_congr_left
    intro e _
    simp only [Function.comp_apply]
    split <;> rfl
  · simp

end Sys2Proof.Machine
end

