-- ==== Sys2Proof/Laws/Served.lean ====
section
/-! SUPPORT. The transmitters of the ports (R133): what serves them, what keeps them served, and the ports after the NOTEs of
a record that becomes FREE. -/

namespace Sys2Proof.Machine

/-! ## One port -/

/-- The transmitter of one port leaves nothing waiting while it is idle and the port is in use (R133). -/
def State.servedAt (s : State) (p : Port) : Prop :=
  s.params.inUse p = true → (s.port p).sending = none →
    (s.port p).helloDue = false ∧ (s.port p).traffic = [] ∧ ∀ i, s.dueThrough p i = false

theorem State.ports_ext {s t : State} (h : ∀ p, t.port p = s.port p) : t.ports = s.ports := by
  have h1 : t.ports.inbye = s.ports.inbye := h .inbye
  have h2 : t.ports.outbye = s.ports.outbye := h .outbye
  revert h1 h2
  cases t.ports
  cases s.ports
  rintro rfl rfl
  rfl

/-- The contexts of `t` are those of `s`, but that some are gone. -/
def State.fewerContexts (s t : State) : Prop :=
  ∀ i, (t.record i).handover = (s.record i).handover ∨ (t.record i).handover = none

theorem State.fewerContexts.of_roster {s t : State} (h : t.roster = s.roster) : s.fewerContexts t :=
  fun i => Or.inl (by rw [State.record_congr h i])

theorem State.dueThrough_false_of_fewer {s t : State} (hp : t.params = s.params) (hc : s.fewerContexts t) {p : Port}
    {i : Fin 48} (h : s.dueThrough p i = false) : t.dueThrough p i = false := by
  unfold State.dueThrough at h ⊢
  rcases hc i with e | e
  · rw [e, hp]
    exact h
  · rw [e]

/-- Served transmitters stay served while the ports stand and contexts only end. -/
theorem State.transmittersServed.of_fewer {s t : State} (h : s.transmittersServed) (hq : t.ports = s.ports)
    (hp : t.params = s.params) (hc : s.fewerContexts t) : t.transmittersServed := by
  intro p hu hs
  rw [hp] at hu
  rw [State.port_congr hq] at hs
  obtain ⟨h1, h2, h3⟩ := h p hu hs
  rw [State.port_congr hq]
  exact ⟨h1, h2, fun i => State.dueThrough_false_of_fewer hp hc (h3 i)⟩

theorem State.handoverWaiting_none {s : State} {p : Port} (h : ∀ i, s.dueThrough p i = false) :
    s.handoverWaiting p = none :=
  List.find?_eq_none.mpr fun i _ => by simp [h i]

theorem State.dueThrough_false_of_sent {s t : State} (hp : t.params = s.params) (h : s.recordsSent t) {p : Port}
    {i : Fin 48} (hd : s.dueThrough p i = false) : t.dueThrough p i = false := by
  unfold State.dueThrough at hd ⊢
  rcases h i with e | ⟨c, _, e⟩
  · rw [e, hp]
    exact hd
  · rw [e]
    simp

theorem State.handoverWaiting_none_iff (s : State) (p : Port) :
    s.handoverWaiting p = none ↔ ∀ i, s.dueThrough p i = false := by
  refine ⟨fun h i => ?_, State.handoverWaiting_none⟩
  have h' := List.find?_eq_none.mp h i (by
    simp only [rotationFrom, List.mem_append, List.mem_filter, allRecords, List.mem_finRange, true_and, decide_eq_true_eq]
    omega)
  simpa using h'

/-! ## The arbiter serves its port -/

/-- A choice of source that leaves the transmitter idle found nothing waiting, and changed nothing (R133). -/
theorem State.chooseSource_idle {s : State} {p : Port} (h : ((s.chooseSource p).port p).sending = none) :
    s.chooseSource p = s ∧ s.handoverWaiting p = none ∧ (s.port p).traffic = [] := by
  have traffic : ∀ f rest, (s.port p).traffic = f :: rest → ((s.serveTraffic p).port p).sending = some f := by
    intro f rest ht
    simp [State.serveTraffic, ht, State.modifyPort, State.port_setPort]
  have handover : ∀ i, s.handoverWaiting p = some i → ((s.serveHandover p i).port p).sending ≠ none := by
    intro i hi
    have hd : s.dueThrough p i = true := List.find?_some hi
    unfold State.serveHandover
    cases hc : (s.record i).handover with
    | none => simp [State.dueThrough, hc] at hd
    | some c => cases p <;> simp [State.beginFrame, State.modifyPort, State.setPort, State.port, State.modifyRecord,
        State.setRecord]
  cases hw : s.handoverWaiting p with
  | none =>
      cases ht : (s.port p).traffic with
      | nil => exact ⟨by simp [State.chooseSource, hw, State.serveTraffic, ht], rfl, rfl⟩
      | cons f rest =>
          rw [show s.chooseSource p = s.serveTraffic p by simp [State.chooseSource, hw], traffic f rest ht] at h
          exact absurd h (by simp)
  | some i =>
      exfalso
      unfold State.chooseSource at h
      rw [hw] at h
      cases ht : (s.port p).traffic with
      | nil => exact handover i hw (by simpa [ht] using h)
      | cons f rest =>
          simp only [ht] at h
          revert h
          (repeat' split) <;> intro h <;> first
            | exact handover i hw h
            | (rw [traffic f rest ht] at h; exact absurd h (by simp))

theorem State.arbitrate_params (s : State) (p : Port) : (s.arbitrate p).params = s.params :=
  State.params_of_calm (State.calm_of_quiet (by simp))

/-- After its choice the arbiter's own port is served, whatever waited there (R133). -/
theorem State.arbitrate_servedAt (s : State) (p : Port) : (s.arbitrate p).servedAt p := by
  intro hu hs
  rw [State.arbitrate_params] at hu
  have idle : ∀ u : State, u.params = s.params → (u.port p).helloDue = false →
      ((u.chooseSource p).port p).sending = none →
      ((u.chooseSource p).port p).helloDue = false ∧ ((u.chooseSource p).port p).traffic = []
        ∧ ∀ i, (u.chooseSource p).dueThrough p i = false := by
    intro u _ hh h
    obtain ⟨h1, h2, h3⟩ := State.chooseSource_idle h
    rw [h1]
    exact ⟨hh, h3, (u.handoverWaiting_none_iff p).mp h2⟩
  unfold State.arbitrate at hs ⊢
  split at hs
  · rename_i hc
    simp only [hc, if_true]
    split at hs
    · rename_i hh
      simp only [hh, if_true]
      split at hs
      · rename_i hn
        simp only [hn, if_true]
        exact idle _ (State.modifyPort_params _ _ _) (by simp [State.modifyPort, State.port_setPort]) hs
      · simp [State.beginFrame, State.modifyPort, State.port_setPort] at hs
    · rename_i hh
      simp only [hh, Bool.false_eq_true, if_false]
      exact idle s rfl (by simpa using hh) hs
  · rename_i hc
    rw [hu, hs] at hc
    exact absurd rfl hc

/-- A choice of the arbiter serves its port and keeps the other one served. -/
theorem State.arbitrate_served {s : State} {p : Port} (h : ∀ q, q ≠ p → s.servedAt q) :
    (s.arbitrate p).transmittersServed := by
  intro q
  by_cases hq : q = p
  · subst hq
    exact s.arbitrate_servedAt q
  · intro hu hs
    rw [State.arbitrate_params] at hu
    rw [State.arbitrate_ports_ne s hq] at hs ⊢
    obtain ⟨h1, h2, h3⟩ := h q hq hu hs
    exact ⟨h1, h2, fun i => State.dueThrough_false_of_sent (State.arbitrate_params s p) (s.arbitrate_recordsSent p) (h3 i)⟩

/-! ## A frame offered to a served part (R132, R133) -/

/-- The port that takes a frame while its transmitter is served: counted when unused or full, else begun on an idle
transmitter and queued on a busy one. -/
def PortState.taking (q : PortState) (inUse : Bool) (f : BackboneFrame) : PortState :=
  if inUse && decide (q.traffic.length < Config.trafficDepth) then
    if q.sending.isNone then { q with sending := some f, lastServed := .traffic } else { q with traffic := q.traffic ++ [f] }
  else { q with trafficFull := satAdd Config.counterLimit q.trafficFull }

/-- A frame offered where no frame waits on an idle transmitter: only its port changes, as `PortState.taking` says. -/
theorem State.offerTraffic_served {s : State} (h : s.transmittersServed) (p : Port) (f : BackboneFrame) :
    s.offerTraffic p f = s.setPort p ((s.port p).taking (s.params.inUse p) f) := by
  unfold State.offerTraffic PortState.taking
  cases hu : s.params.inUse p with
  | false => simp [State.countTrafficFull, State.modifyPort]
  | true =>
      by_cases hl : (s.port p).traffic.length < Config.trafficDepth
      · simp only [hl, decide_true, Bool.and_self, if_true]
        cases hs : (s.port p).sending with
        | some g =>
            simp only [Option.isNone_some, Bool.false_eq_true, if_false]
            unfold State.arbitrate
            have : ((s.modifyPort p fun q => { q with traffic := q.traffic ++ [f] }).port p).sending = some g := by
              rw [State.modifyPort, State.port_setPort]
              exact hs
            simp only [this, Option.isNone_some, Bool.and_false, Bool.false_eq_true, if_false]
            simp only [State.modifyPort, hs]
        | none =>
            obtain ⟨h1, h2, h3⟩ := h p hu hs
            have e : ∀ q : PortState, (s.setPort p q).handoverWaiting p = none := fun q =>
              State.handoverWaiting_none fun i =>
                State.dueThrough_false_of_fewer (State.setPort_params _ _ _)
                  (State.fewerContexts.of_roster (by cases p <;> rfl)) (h3 i)
            have hu' : ∀ q : PortState, (s.setPort p q).params.inUse p = true := fun q => by
              rw [State.setPort_params]
              exact hu
            simp only [Option.isNone_none, if_true, State.modifyPort, State.arbitrate, State.port_setPort, hs, h1, hu', h2,
              List.nil_append, Bool.and_self, Bool.false_eq_true, if_false, State.chooseSource, e, State.serveTraffic]
            cases p <;> simp [State.setPort, State.port] at h2 ⊢ <;> rw [h2]
      · simp [hl, State.countTrafficFull, State.modifyPort]

theorem PortState.taking_sending (q : PortState) (f : BackboneFrame) (h : (q.taking true f).sending = none) :
    q.traffic.length ≥ Config.trafficDepth ∧ q.sending = none := by
  unfold PortState.taking at h
  by_cases hl : q.traffic.length < Config.trafficDepth
  · cases hs : q.sending <;> simp [hl, hs] at h
  · refine ⟨by omega, ?_⟩
    simpa [hl] using h

/-- A frame offered keeps the transmitters served. -/
theorem State.offerTraffic_keepsServed {s : State} (h : s.transmittersServed) (p : Port) (f : BackboneFrame) :
    (s.offerTraffic p f).transmittersServed := by
  rw [State.offerTraffic_served h]
  have hc : s.fewerContexts (s.setPort p ((s.port p).taking (s.params.inUse p) f)) :=
    State.fewerContexts.of_roster (by cases p <;> rfl)
  intro q hu hs
  rw [State.setPort_params] at hu
  by_cases hq : q = p
  · subst hq
    rw [State.port_setPort, hu] at hs
    obtain ⟨h1, h2⟩ := PortState.taking_sending _ _ hs
    obtain ⟨-, h4, -⟩ := h q hu h2
    rw [h4] at h1
    exact absurd h1 (by decide)
  · rw [State.port_setPort_ne _ _ (Ne.symm hq)] at hs ⊢
    obtain ⟨h1, h2, h3⟩ := h q hu hs
    exact ⟨h1, h2, fun i => State.dueThrough_false_of_fewer (State.setPort_params _ _ _) hc (h3 i)⟩

/-! ## NOTEs sent by a served part -/

/-- The ports after a NOTE depend on the ports and the parameters alone, and the transmitters stay served. -/
theorem State.noteFor_served {s u : State} (hs : s.transmittersServed) (hu : u.transmittersServed)
    (hq : u.ports = s.ports) (hp : u.params = s.params) (car : Nat) (source : Source) (receipt : Bool)
    (outcome : NoteOutcome) :
    (u.noteFor car source receipt outcome).ports = (s.noteFor car source receipt outcome).ports
      ∧ (s.noteFor car source receipt outcome).transmittersServed
      ∧ (u.noteFor car source receipt outcome).transmittersServed := by
  unfold State.noteFor
  cases source with
  | host => exact ⟨hq, hs, hu⟩
  | dispatch number =>
      cases receipt with
      | false => exact ⟨hq, hs, hu⟩
      | true =>
          refine ⟨?_, State.offerTraffic_keepsServed hs _ _, State.offerTraffic_keepsServed hu _ _⟩
          simp only [if_true, State.sendNote]
          rw [State.offerTraffic_served hs, State.offerTraffic_served hu]
          apply State.ports_ext
          intro p
          by_cases h : p = .outbye
          · subst h
            rw [State.port_setPort, State.port_setPort, State.port_congr hq, hp]
            simp [State.originate, hp]
          · rw [State.port_setPort_ne _ _ (Ne.symm h), State.port_setPort_ne _ _ (Ne.symm h), State.port_congr hq]

theorem State.noteFor_params (s : State) (car : Nat) (source : Source) (receipt : Bool) (outcome : NoteOutcome) :
    (s.noteFor car source receipt outcome).params = s.params :=
  State.params_of_calm (State.calm_of_quiet (by simp))

theorem filterMap_same {α β : Type} {f g : α → Option β} {l : List α} (h : ∀ x ∈ l, f x = g x) :
    l.filterMap f = l.filterMap g := by
  induction l with
  | nil => rfl
  | cons x l ih =>
      simp only [List.filterMap_cons, h x (by simp)]
      rw [ih fun y hy => h y (by simp [hy])]

/-- The freeing of a list's buffers sends the NOTEs of its messages in list order (R113). -/
theorem State.freeListed_notes (car : Nat) (l : List (Fin 64)) (hl : l.Nodup) :
    ∀ s u : State, s.transmittersServed → u.transmittersServed → u.ports = s.ports → u.params = s.params →
      (l.foldl (State.freeListed true car) u).ports = (s.noteEachDropped car (l.filterMap fun b => u.pool[b])).ports := by
  induction l with
  | nil => intro s u _ _ hq _; exact hq
  | cons b l ih =>
      intro s u hs hu hq hp
      obtain ⟨hb, hl'⟩ := List.nodup_cons.mp hl
      have hpool : ∀ c ∈ l, (State.freeListed true car u b).pool[c] = u.pool[c] := by
        intro c hc
        rw [State.freeListed_pool]
        refine if_neg fun e => hb ?_
        rw [← e]
        exact hc
      have hmap : (l.filterMap fun c => (State.freeListed true car u b).pool[c]) = l.filterMap fun c => u.pool[c] :=
        filterMap_same hpool
      rw [List.foldl_cons, List.filterMap_cons]
      cases hm : u.pool[b] with
      | none =>
          have e : State.freeListed true car u b = u := by
            unfold State.freeListed
            rw [hm]
          rw [← hmap, e]
          exact ih hl' s u hs hu hq hp
      | some m =>
          have e : State.freeListed true car u b = (u.setBuffer b none).noteFor car m.source m.receipt .dropped := by
            unfold State.freeListed
            rw [hm]
            rfl
          have hq' : (u.setBuffer b none).ports = s.ports := by
            rw [← hq]
            simp
          have hp' : (u.setBuffer b none).params = s.params := by
            rw [← hp]
            exact State.params_of_calm (State.calm_of_quiet (by simp))
          have hu' : (u.setBuffer b none).transmittersServed :=
            hu.of_fewer (by simp) (State.params_of_calm (State.calm_of_quiet (by simp)))
              (State.fewerContexts.of_roster (by simp))
          obtain ⟨n1, n2, n3⟩ := State.noteFor_served hs hu' hq' hp' car m.source m.receipt .dropped
          simp only
          rw [← hmap]
          show _ = ((s.noteFor car m.source m.receipt .dropped).noteEachDropped car _).ports
          refine ih hl' _ _ n2 (by rw [e]; exact n3) (by rw [e]; exact n1) ?_
          rw [e, State.noteFor_params, State.noteFor_params, hp']

/-- The ports after a record became FREE by a cause that sends NOTEs: NOTE DROPPED for each receipt-flagged DISPATCH message
of its list, in list order (R39 step 2, R113). -/
theorem State.becomeFree_ports (s : State) (i : Fin 48) (reason : Option Reason) (hs : s.transmittersServed)
    (hl : (s.record i).messages.Nodup) :
    (s.becomeFree i true reason).ports = (s.noteEachDropped (s.record i).carId (s.listed (s.record i))).ports := by
  obtain ⟨s1, e1⟩ : ∃ t, t = (s.withdrawGrant i).freeCellsOf i := ⟨_, rfl⟩
  have r1 : s1.roster = s.roster := by rw [e1]; simp
  have q1 : s1.ports = s.ports := by rw [e1]; simp
  have p1 : s1.params = s.params := by rw [e1]; exact State.params_of_calm (State.calm_of_quiet (by simp))
  have l1 : s1.pool = s.pool := by rw [e1]; simp
  have e : (s.becomeFree i true reason).ports = (s1.freeMessages i true).ports := by
    rw [e1]
    unfold State.becomeFree
    simp
  rw [e]
  unfold State.freeMessages
  rw [State.record_congr r1 i]
  have h := State.freeListed_notes (s.record i).carId (s.record i).messages hl s s1 hs
    (hs.of_fewer q1 p1 (State.fewerContexts.of_roster r1)) q1 p1
  simp only [l1] at h
  exact h

/-- What `State.notesDropped` asks holds of every return to FREE that sends NOTEs. -/
theorem State.becomeFree_notesDropped (s : State) (i : Fin 48) (reason : Option Reason) :
    s.notesDropped (s.becomeFree i true reason) i :=
  fun hp hs => State.becomeFree_ports s i reason hs (hp.2.1 i).1

end Sys2Proof.Machine
end

