-- ==== Sys2Proof/Laws/Tags.lean ====
section
/-! SUPPORT. The tag counter: where its advance comes to rest (R28). -/

namespace Sys2Proof.Machine

theorem State.tagHeld_iff (s : State) (t : Nat) :
    s.tagHeld t = true ↔ ∃ i, (s.record i).contact ≠ .free ∧ (s.record i).tag = some t := by
  unfold State.tagHeld State.record
  simp only [List.any_eq_true, Vector.mem_toList_iff, Bool.and_eq_true, bne_iff_ne, ne_eq, beq_iff_eq]
  constructor
  · rintro ⟨r, hr, h⟩
    obtain ⟨k, hk, rfl⟩ := Vector.mem_iff_getElem.mp hr
    exact ⟨⟨k, hk⟩, h⟩
  · rintro ⟨i, h⟩
    exact ⟨_, by simp, h⟩

/-- The tag `k` steps after a tag. -/
def tagAfter (t : Nat) : Nat → Nat
  | 0 => t
  | k + 1 => tagAfter (nextTag t) k

theorem nextTag_range {t : Nat} (h : 1 ≤ t ∧ t ≤ 255) : 1 ≤ nextTag t ∧ nextTag t ≤ 255 := by
  unfold nextTag
  split <;> omega

theorem tagAfter_eq (k : Nat) : ∀ t, 1 ≤ t → t ≤ 255 → tagAfter t k = (t - 1 + k) % 255 + 1 := by
  induction k with
  | zero => intro t h1 h2; simp only [tagAfter]; omega
  | succ k ih =>
      intro t h1 h2
      have h := nextTag_range ⟨h1, h2⟩
      rw [tagAfter, ih _ h.1 h.2]
      unfold nextTag
      split <;> omega

theorem State.advanceTag_range (s : State) (n : Nat) :
    ∀ t, 1 ≤ t ∧ t ≤ 255 → 1 ≤ s.advanceTag n t ∧ s.advanceTag n t ≤ 255 := by
  induction n with
  | zero => intro t h; exact h
  | succ n ih =>
      intro t h
      unfold State.advanceTag
      split
      · exact ih _ (nextTag_range h)
      · exact h

theorem State.advanceTag_free_or_all (s : State) (n : Nat) :
    ∀ t, s.tagHeld (s.advanceTag n t) = false ∨ ∀ k, k < n → s.tagHeld (tagAfter t k) = true := by
  induction n with
  | zero => intro t; exact Or.inr (fun k hk => absurd hk (by omega))
  | succ n ih =>
      intro t
      unfold State.advanceTag
      split
      · rename_i ht
        rcases ih (nextTag t) with h | h
        · exact Or.inl h
        · refine Or.inr (fun k hk => ?_)
          cases k with
          | zero => exact ht
          | succ k => exact h k (by omega)
      · rename_i ht
        exact Or.inl (by simpa using ht)

/-- Forty-nine steps of the counter reach a tag that no record holds, for there are forty-eight records. -/
theorem State.advanceTag_free (s : State) {t : Nat} (h1 : 1 ≤ t) (h2 : t ≤ 255) :
    s.tagHeld (s.advanceTag 49 t) = false := by
  rcases s.advanceTag_free_or_all 49 t with h | h
  · exact h
  · exfalso
    have hc : ∀ k : Fin 49, ∃ i : Fin 48, (s.record i).tag = some (tagAfter t k.val) := by
      intro k
      obtain ⟨i, _, hi⟩ := (s.tagHeld_iff _).mp (h k.val k.isLt)
      exact ⟨i, hi⟩
    choose f hf using hc
    obtain ⟨a, b, hab, he⟩ := Fintype.exists_ne_map_eq_of_card_lt f (by simp)
    have ha := hf a
    rw [he, hf b, Option.some.injEq, tagAfter_eq _ _ h1 h2, tagAfter_eq _ _ h1 h2] at ha
    apply hab
    apply Fin.ext
    have := a.isLt
    have := b.isLt
    omega

/-- A tag given: the record takes the counter's value and no other record changes; the counter moves to a tag that no
record that is not FREE holds (R28). -/
theorem State.giveTag_spec (s : State) (i : Fin 48) (h1 : 1 ≤ s.roster.tagCounter) (h2 : s.roster.tagCounter ≤ 255) :
    (s.giveTag i).record i = { s.record i with tag := some s.roster.tagCounter }
      ∧ (∀ j, j ≠ i → (s.giveTag i).record j = s.record j)
      ∧ 1 ≤ (s.giveTag i).roster.tagCounter ∧ (s.giveTag i).roster.tagCounter ≤ 255
      ∧ ∀ j, ((s.giveTag i).record j).contact ≠ .free →
          ((s.giveTag i).record j).tag ≠ some (s.giveTag i).roster.tagCounter := by
  obtain ⟨t, et⟩ : ∃ t, t = s.modifyRecord i fun r => { r with tag := some s.roster.tagCounter } := ⟨_, rfl⟩
  have e : s.giveTag i = { t with roster := { t.roster with tagCounter := t.advanceTag 49 (nextTag s.roster.tagCounter) } } := by
    rw [et]; rfl
  have er : ∀ j, (s.giveTag i).record j = t.record j := by intro j; rw [e]; rfl
  have ec : (s.giveTag i).roster.tagCounter = t.advanceTag 49 (nextTag s.roster.tagCounter) := by rw [e]
  have hn := nextTag_range ⟨h1, h2⟩
  have hr := t.advanceTag_range 49 _ hn
  refine ⟨?_, ?_, ?_, ?_, ?_⟩
  · rw [er, et, State.record_modifyRecord]
  · intro j hj
    rw [er, et, State.record_modifyRecord_ne _ _ (fun e => hj e.symm)]
  · rw [ec]; exact hr.1
  · rw [ec]; exact hr.2
  · intro j hj he
    have hf := t.advanceTag_free hn.1 hn.2
    rw [er] at hj he
    rw [ec] at he
    rw [(t.tagHeld_iff _).mpr ⟨j, hj, he⟩] at hf
    exact absurd hf (by simp)

/-- The counter's advance stops at the first tag that is not held, or runs out of steps on held ones. -/
theorem State.advanceTag_first (s : State) (n : Nat) :
    ∀ t, ∃ k, s.advanceTag n t = tagAfter t k ∧ ∀ m, m < k → s.tagHeld (tagAfter t m) = true := by
  induction n with
  | zero => exact fun t => ⟨0, rfl, fun m hm => absurd hm (by omega)⟩
  | succ n ih =>
      intro t
      unfold State.advanceTag
      split
      · rename_i ht
        obtain ⟨k, hk, hm⟩ := ih (nextTag t)
        refine ⟨k + 1, hk, fun m hlt => ?_⟩
        cases m with
        | zero => exact ht
        | succ m => exact hm m (by omega)
      · exact ⟨0, rfl, fun m hm => absurd hm (by omega)⟩

/-- A tag given moves the counter as R28 says. -/
theorem State.giveTag_moved (s : State) (i : Fin 48) : s.tagMoved (s.giveTag i) := by
  intro h1 h2
  obtain ⟨-, -, -, -, hfree⟩ := s.giveTag_spec i h1 h2
  obtain ⟨t, et⟩ : ∃ t, t = s.modifyRecord i fun r => { r with tag := some s.roster.tagCounter } := ⟨_, rfl⟩
  have er : ∀ j, (s.giveTag i).record j = t.record j := by intro j; rw [et]; rfl
  have ec : (s.giveTag i).roster.tagCounter = t.advanceTag 49 (nextTag s.roster.tagCounter) := by rw [et]; rfl
  have hn := nextTag_range ⟨h1, h2⟩
  have hstep : ∀ k, tagAfter (nextTag s.roster.tagCounter) k = (s.roster.tagCounter - 1 + (k + 1)) % 255 + 1 :=
    fun k => tagAfter_eq (k + 1) s.roster.tagCounter h1 h2
  obtain ⟨k, hk, hm⟩ := t.advanceTag_first 49 (nextTag s.roster.tagCounter)
  refine ⟨k + 1, by omega, by rw [ec, hk, hstep], hfree, fun n hn1 hn2 => ?_⟩
  obtain ⟨j, hj1, hj2⟩ := (t.tagHeld_iff _).mp (hm (n - 1) (by omega))
  refine ⟨j, by rw [er]; exact hj1, ?_⟩
  rw [er, hj2, hstep, show n - 1 + 1 = n by omega]

end Sys2Proof.Machine
end

