-- ==== Sys2Proof/Tests/Slice0.lean ====
section
/-! SUPPORT. Small tests: what the check of a command refuses, the manual's own bytes and numbers, one or two steps of a
family, and for every statement with hypotheses a state and operands that meet them. -/

set_option maxRecDepth 20000

namespace Sys2Proof.Tests

open Sys2Proof.Machine

/-! ## Well-formedness -/

theorem test_wf_refuses_long_parameters : (Instr.retire (List.replicate 256 0#8)).wf = false := by decide
theorem test_wf_takes_255_parameters : (Instr.retire (List.replicate 255 0#8)).wf = true := by decide
theorem test_wf_refuses_long_open_air : (Instr.openAir (List.replicate 256 0#8) true).wf = false := by decide
theorem test_wf_refuses_empty_bad_check : (Instr.badCheckRequest []).wf = false := by decide
theorem test_wf_refuses_right_bad_check : (Instr.badCheckRequest [0x48#8, 0x00#8, 0x24#8]).wf = false := by decide
theorem test_wf_takes_wrong_bad_check : (Instr.badCheckRequest [0x48#8, 0x00#8, 0x25#8]).wf = true := by decide
theorem test_wf_refuses_named_bad_command : (Instr.badCommandRequest 0x48#8 []).wf = false := by decide
theorem test_wf_refuses_long_bad_command :
    (Instr.badCommandRequest 0x49#8 (List.replicate 256 0#8)).wf = false := by decide
theorem test_wf_takes_bad_command : (Instr.badCommandRequest 0x49#8 []).wf = true := by decide
theorem test_wf_refuses_long_up_frame : (Instr.upFrameReceive (List.replicate 65 0#8) 0).wf = false := by decide
theorem test_wf_takes_64_byte_up_frame : (Instr.upFrameReceive (List.replicate 64 0#8) 63).wf = true := by decide
theorem test_wf_refuses_empty_backbone_frame : (Instr.backboneFrameReceive .inbye []).wf = false := by decide
theorem test_wf_takes_events : Instr.slotEnd.wf = true ∧ Instr.resetNAssert.wf = true := by decide

/-! ## The manual's own bytes (12.4 and its worked example) -/

theorem test_crc16_of_the_nine_characters :
    crc16 [0x31#8, 0x32#8, 0x33#8, 0x34#8, 0x35#8, 0x36#8, 0x37#8, 0x38#8, 0x39#8] = 0x29B1#16 := by decide
theorem test_crc8_after_the_first_byte : crc8 [0x48#8] = 0x0C#8 := by decide
theorem test_identify_request : decodeRequest [0x48#8, 0x00#8, 0x24#8] false = .identify [] := by decide
theorem test_identify_bad_twin :
    decodeRequest [0x48#8, 0x00#8, 0x25#8] false = .badCheckRequest [0x48#8, 0x00#8, 0x25#8] := by decide
theorem test_table_gives_no_bits : decodeTableWord 8 0x48 = none := by decide

/-! ## Frames read field by field -/

theorem test_hail_is_read :
    decodeHail (withCheckWord [0x11#8, 0x01#8, 0x23#8, 0x33#8, 0x07#8, 0x82#8]) =
      some { carId := 0x123, previousStation := 51, previousTag := 7, cls := 2, paged := true } := by decide
theorem test_hail_of_car_0_fails :
    decodeHail (withCheckWord [0x11#8, 0x00#8, 0x00#8, 0x00#8, 0x00#8, 0x00#8]) = none := by decide
theorem test_hail_of_car_4095_passes :
    (decodeHail (withCheckWord [0x11#8, 0x0F#8, 0xFF#8, 0xC8#8, 0x00#8, 0x00#8])).isSome = true := by decide
theorem test_hail_from_station_201_fails :
    decodeHail (withCheckWord [0x11#8, 0x0F#8, 0xFF#8, 0xC9#8, 0x00#8, 0x00#8]) = none := by decide
theorem test_answer_is_read :
    decodeAnswer (withCheckWord [0x12#8, 0x01#8, 0x23#8, 0x07#8, 0xE0#8, 0xC2#8, 0xAA#8, 0xBB#8]) =
      some { carId := 0x123, tag := 7, downAck := true, more := true,
             message := some { addressee := .dispatch, upBit := true, body := [0xAA#8, 0xBB#8] } } := by decide
theorem test_answer_without_message_is_read :
    decodeAnswer (withCheckWord [0x12#8, 0x01#8, 0x23#8, 0x07#8, 0x00#8]) =
      some { carId := 0x123, tag := 7, downAck := false, more := false, message := none } := by decide
theorem test_claim_is_read :
    decodeBackbone (withCheckWord [0x27#8, 0x33#8, 0x32#8, 0xFF#8, 0x01#8, 0x23#8, 0x07#8, 0x1E#8, 0x01#8]) =
      some { source := 51, dest := 50, hop := 255, payload := .claim 0x123 7 30 1 } := by decide
theorem test_poll_is_written :
    Poll.bytes { carId := 0x123, tag := 7, release := false, scan := true, sweep := false, extension := true,
                 retune := some { slot := 5, period := .four, phase := 3 }, downBit := true, inboundAck := false,
                 message := some { urgency := .urgent, body := [0xAA#8] } } =
      [0x03#8, 0x01#8, 0x23#8, 0x07#8, 0x5E#8, 0x05#8, 0x83#8, 0x81#8, 0xAA#8] := by decide

/-! ## States for the witnesses -/

/-- The part after reset with station number 50. -/
def station : State := { State.reset with params := { State.reset.params with station := 50 } }

/-- A record of car 291 in a contact state, with a turn and a tag. -/
def carRecord (c : ContactState) : Record :=
  { Record.free with
    contact := c, carId := 291, tag := some 7, cls := some 1, turn := some { slot := 5, period := .four, phase := 1 },
    level := 30 }

/-- Station 50 with the record of car 291 at index 5. -/
def withCar (c : ContactState) : State := station.setRecord 5 (carRecord c)

/-- The same with fields of the record changed. -/
def withCarBut (c : ContactState) (f : Record → Record) : State := station.setRecord 5 (f (carRecord c))

/-- A state within, or between, slots of an open air. -/
def inSlot (s : State) (k : Fin 32) (work : Option SlotPhase) : State :=
  { s with air := { s.air with state := .opened, slot := some k, work := work } }

/-- The POLL of the record at index 5, without message or retune. -/
def poll : Poll :=
  { carId := 291, tag := 7, release := false, scan := false, sweep := false, extension := false, retune := none,
    downBit := false, inboundAck := false, message := none }

/-- A state in slot 5 with the record at index 5 in exchange. -/
def inExchange (s : State) : State :=
  { inSlot s 5 (some .window) with
    air := { (inSlot s 5 (some .window)).air with exchange := some { record := 5, role := .turn, poll := poll } } }

/-- A state with an up frame taken. -/
def withUp (s : State) (bytes : List Byte) : State :=
  { s with air := { s.air with up := some { bytes := bytes, level := 40 } } }

/-- A state with one port changed. -/
def withPort (s : State) (p : Port) (f : PortState → PortState) : State := s.setPort p (f (s.port p))

/-- A context toward a station. -/
def context (role : HandoverRole) (peer tries : Nat) : HandoverContext :=
  { role := role, peer := peer, tries := tries, deadline := 2000, due := false, claimLevel := some 20 }

/-- A sweep in a state of its unit over the whole roster. -/
def withSweep (s : State) (w : SweepState) (used deadline : Nat) : State :=
  { s with sweep := { Sweep.reset with state := w, first := 0, last := 47, deadline := deadline, used := used, marked := 1 } }

/-- A state with every cell of the plan given to record 6. -/
def planFull (s : State) : State :=
  { s with cells := Vector.replicate 232 (some { holder := 6, role := .turn }) }

/-- A posted message for the record at index 5. -/
def message (attempts : Nat) : Message :=
  { target := 5, urgency := .routine, source := .host, receipt := false, attempts := attempts, body := [0x41#8],
    placement := .posted }

/-- The record at index 5 with a message in flight in buffer 0. -/
def withMessage (attempts : Nat) : State :=
  { withCarBut .present (fun r => { r with messages := [0], inFlight := some 0 }) with
    pool := Pool.reset.set 0 (some (message attempts)) }

/-- The hail of car 291 with no peer, and of car 9 that has been paged. -/
def hail (car : Nat) (paged : Bool) : List Byte :=
  withCheckWord ([0x11#8] ++ bytes16 car ++ [0x00#8, 0x00#8, if paged then 0x80#8 else 0x00#8])

/-- A good ANSWER of car 291 with a tag, the flag byte and what follows it. -/
def answer (tag flags : Byte) (rest : List Byte) : List Byte := withCheckWord ([0x12#8, 0x01#8, 0x23#8, tag, flags] ++ rest)

/-- The exchange of the record at index 5 in a role. -/
def exchange (role : CellRole) (p : Poll) : Exchange := { record := 5, role := role, poll := p }

/-- Turn slot 5 about to end with an exchange and what its window holds, no work being held. -/
def ending (s : State) (x : Exchange) (up : Option (List Byte)) : State :=
  { s with
    air := { s.air with
      state := .opened, slot := some 5, work := some .window, light := .ready, exchange := some x,
      up := up.map fun bytes => { bytes := bytes, level := 40 } },
    roster := { s.roster with held := [] } }

theorem ending_endsExchange (s : State) (x : Exchange) (up : Option (List Byte)) (h : s.resetHeld = false)
    (h' : s.resetPending = false) (hx : x.poll.release = false) : (ending s x up).endsExchange 5 x :=
  ⟨h, h', rfl, by decide, by decide, nofun, rfl, rfl, hx, rfl⟩

/-- A RETUNE context whose pending turn is slot 9 in every cycle. -/
def retuneContext (tries : Nat) : RetuneContext := { target := { slot := 9, period := .one, phase := 0 }, tries := tries }

/-- The POLL with the RETUNE field, and with a message. -/
def retunePoll : Poll := { poll with retune := some (retuneContext 0).target }
def messagePoll : Poll := { poll with message := some { urgency := .routine, body := [0x41#8] } }

/-- A frame at the head of the INBYE receive queue. -/
def arrived (s : State) (f : BackboneFrame) : State := withPort s .inbye fun q => { q with receive := [f] }

/-- A frame from station 51 for station 50. -/
def from51 (p : Payload) : BackboneFrame := { source := 51, dest := 50, hop := 9, payload := p }

/-! ## Steps of the families -/

theorem test_release_after_assert_is_reset :
    exec .resetNRelease { State.reset with resetHeld := true } = .next State.reset := by rfl
theorem test_find_car_finds_the_record :
    exec (.findCar [0x01#8, 0x23#8]) (withCar .present) =
      .next ((withCar .present).respond .done [0x05#8, 0x02#8]) :=
  congrArg Host.Outcome.next (by decide)
theorem test_open_air_without_number :
    exec (.openAir [] true) State.reset = .next (State.reset.refuse .badState) :=
  congrArg Host.Outcome.next (by decide)
theorem test_smoothing_rounds_down : smoothed 20 23 = 20 ∧ smoothed 20 24 = 21 ∧ smoothed 21 20 = 20 := by decide
theorem test_fading_at_the_fade_count :
    (({ carRecord .present with level := 0, lowCount := 2 }).withReading station.params 40).fading = true
      ∧ (({ carRecord .present with level := 0, lowCount := 1 }).withReading station.params 40).fading = false := by decide
theorem test_first_place_is_slot_3 : station.findPlace .four = some { slot := 3, period := .four, phase := 0 } := by
  decide
theorem test_admission_takes_tag_1 :
    ∃ t : State, exec .slotEnd { withUp (inSlot station 1 (some .window)) (hail 9 false) with
        air := { (withUp (inSlot station 1 (some .window)) (hail 9 false)).air with entryOpen := true } } = .next t
      ∧ (t.record 0).contact = .granted ∧ (t.record 0).carId = 9 ∧ (t.record 0).tag = some 1 ∧ t.roster.tagCounter = 2
      ∧ t.cell 3 0 = some { holder := 0, role := .waiting } ∧ t.air.grants = [0] :=
  ⟨_, rfl, by decide⟩
theorem test_hail_is_held_while_entry_is_closed :
    ∃ t : State, exec .slotEnd (withUp (inSlot station 1 (some .window)) (hail 9 false)) = .next t
      ∧ (t.record 0).contact = .free ∧ t.host.hailsHeld = 1 :=
  ⟨_, rfl, by decide⟩
theorem test_phases_of_a_turn :
    (Turn.mk 5 .two 1).phases = [1, 3, 5, 7] ∧ (Turn.mk 5 .eight 6).phases = [6] := by decide

/-! ## Witnesses: resets, requests, the host port -/

theorem witness_IdleStepIsOneMillisecond :
    (station.pending = [] ∧ station.resetHeld = false)
      ∧ ∃ s : State, s.pending = [] ∧ s.resetHeld = true :=
  ⟨by decide, { State.reset with resetHeld := true }, by decide⟩

theorem witness_EveryCommandGoesOn : ∃ t : State, exec .slotEnd State.reset = .next t := ⟨_, rfl⟩

theorem witness_PowerOnReset :
    (∃ s : State, s.resetHeld = true) ∧ Instr.slotEnd ≠ .resetNAssert ∧ Instr.slotEnd ≠ .resetNRelease :=
  ⟨⟨{ State.reset with resetHeld := true }, rfl⟩, by decide⟩

theorem witness_StationReset :
    (State.reset.takesRequests = true ∧ State.reset.air.state = .closed)
      ∧ (∃ s : State, s.takesRequests = true ∧ s.air.state ≠ .closed)
      ∧ ∃ s : State, s.resetHeld = false ∧ s.resetPending = true ∧ s.air.slot ≠ none ∧ s.air.work ≠ none :=
  ⟨by decide, ⟨inSlot station 5 none, by decide⟩,
    ⟨{ inSlot station 5 (some .lead) with resetPending := true }, by decide⟩⟩

theorem witness_RequestTests :
    (requestOf (.retire []) = some (0x13, []) ∧ lengthRight 0x13 [] = false)
      ∧ (requestOf (.retire [0#8]) = some (0x13, [0#8]) ∧ lengthRight 0x13 [0#8] = true ∧ (0x13 : Nat) ≠ 0x48)
      ∧ (lengthRight 0x12 [0#8, 0#8, 1#8, 0x41#8] = true ∧ lengthRight 0x12 [0#8, 0#8, 2#8, 0x41#8] = false)
      ∧ ∃ s : State, s.resetHeld = false ∧ s.resetPending = true :=
  ⟨by decide, by decide, by decide, { State.reset with resetPending := true }, by decide⟩

theorem witness_Conditions :
    station.takesRequests = true ∧ 8 ≤ (8#8 : Byte).toNat
      ∧ (7#8 : Byte).toNat = (ConditionClass.portCheck).index.val ∧ (0#8 : Byte).toNat = (ConditionClass.rosterFull).index.val
      ∧ (station.classFlags .portCheck).active = false ∧ 1 < (2#8 : Byte).toNat
      ∧ ((station.forceClass .portCheck true).classFlags .portCheck).active = true
      ∧ ConditionClass.planFull ≠ .rosterFull := by decide

theorem witness_SetMask :
    station.takesRequests = true
      ∧ (7#8 : Byte).toNat * 256 + (255#8 : Byte).toNat < 2048 ∧ 2048 ≤ (8#8 : Byte).toNat * 256 + (0#8 : Byte).toNat
      ∧ (0#8 : Byte).toNat * 256 + (15#8 : Byte).toNat < 16 ∧ 16 ≤ (0#8 : Byte).toNat * 256 + (16#8 : Byte).toNat
      ∧ 1 < (2#8 : Byte).toNat ∧ station.params.attentionMask.getLsbD (Reason.contact).bit.val = false
      ∧ ∃ s : State, s.params.attentionMask.getLsbD (Reason.retuneEnded .done).bit.val = true :=
  ⟨by decide, by decide, by decide, by decide, by decide, by decide, by decide,
    { station with params := { station.params with attentionMask := 0x7FF#11 } }, by decide⟩

theorem witness_AttentionList :
    (station.params.attentionMask.getLsbD (Reason.contact).bit.val = false ∧ station.onAttention 5 = false
        ∧ station.host.attention = [] ∧ (10 : Nat) < 11)
      ∧ ∃ (s : State) (e : AttentionEntry), s.takesRequests = true
          ∧ s.params.attentionMask.getLsbD (Reason.contact).bit.val = true ∧ s.host.attention = e :: []
          ∧ s.onAttention 5 = true ∧ s.onAttention 6 = false ∧ (s.record e.record).contact = .free :=
  ⟨by decide,
    { station with
      params := { station.params with attentionMask := 0x7FF#11 },
      host := { station.host with attention := [{ record := 5, reasons := ReasonSet.empty.add .retired }] } },
    { record := 5, reasons := ReasonSet.empty.add .retired }, by decide⟩

theorem witness_AttentionHeadHeld :
    ∃ (s : State) (e : AttentionEntry), s.takesRequests = true ∧ s.host.attention = e :: []
      ∧ (s.record e.record).contact ≠ .free :=
  ⟨{ withCar .present with
      host := { station.host with attention := [{ record := 5, reasons := ReasonSet.empty.add .contact }] } },
    { record := 5, reasons := ReasonSet.empty.add .contact }, by decide⟩

theorem witness_Inbound :
    (station.takesRequests = true ∧ station.inbound = [])
      ∧ ∃ (s : State) (e : InboundEntry), s.takesRequests = true ∧ s.inbound = e :: [] :=
  ⟨by decide, { station with inbound := [{ carId := 291, record := 5, body := [0x41#8] }] },
    { carId := 291, record := 5, body := [0x41#8] }, by decide⟩

/-! ## Witnesses: parameters -/

theorem witness_Configure :
    station.takesRequests = true ∧ ParamName.ofCode 0 = none ∧ ParamName.ofCode 0x1A = none
      ∧ ParamName.ofCode 0x28 = none ∧ ParamName.ofCode 0x01 = some .station
      ∧ ParamName.ofCode 0x27 = some (.action .portCheck)
      ∧ station.params.inRange .station 200 = true ∧ station.params.inRange .station 201 = false
      ∧ station.params.inRange .lo 19 = true ∧ station.params.inRange .lo 20 = false
      ∧ (inSlot station 5 none).air.state ≠ .closed ∧ (inSlot station 5 none).takesRequests = true := by decide

theorem witness_HandoverParameters :
    ((0x0F#8 : Byte).toNat * 256 + (0xA0#8 : Byte).toNat = 4000 ∧ 4000 % 250 = 0
        ∧ (0x01#8 : Byte).toNat * 256 + (0xF4#8 : Byte).toNat = 500
        ∧ ¬ (500 ≤ 4250 ∧ 4250 ≤ 4000 ∧ 4250 % 250 = 0) ∧ (0#8 : Byte).toNat * 256 + (15#8 : Byte).toNat ≤ 15
        ∧ 15 < (0#8 : Byte).toNat * 256 + (16#8 : Byte).toNat)
      ∧ (station.takesRequests = true ∧ (withCar .present).lookup 291 = some 5
        ∧ ((withCar .present).record 5).hard = none ∧ ((withCar .present).record 5).contact = .present
        ∧ ((withCar .present).record 5).handover = none ∧ ((withCar .present).record 5).keep = false
        ∧ ((withCar .present).record 5).fading = false ∧ ((withCar .present).record 5).missCount = 0) := by decide

theorem witness_ConfigureActsAtOnce :
    station.takesRequests = true ∧ (63#8 : Byte).toNat ≤ 63 ∧ 1 ≤ (31#8 : Byte).toNat ∧ (31#8 : Byte).toNat ≤ 31
      ∧ (3#8 : Byte).toNat ≤ 3 ∧ ParamName.ofCode (0x10#8 : Byte).toNat = some (.portUse .inbye)
      ∧ ParamName.ofCode (0x11#8 : Byte).toNat = some (.portUse .outbye) ∧ station.params.inUse .inbye = true
      ∧ (station.port .inbye).sending = none ∧ station.params.station ≠ 0
      ∧ (withCarBut .outbound (fun r => { r with handover := some (context .handing 51 1) })).routedThrough .inbye 5 = true
      ∧ ({ station with params := { station.params with inbyeUse := false } } : State).params.inUse .inbye = false := by
  decide

theorem witness_StationNumber :
    (station.takesRequests = true ∧ station.air.state = .closed
        ∧ (0#8 : Byte).toNat * 256 + (50#8 : Byte).toNat = station.params.station
        ∧ (0#8 : Byte).toNat * 256 + (200#8 : Byte).toNat = 200 ∧ (200 : Nat) ≠ station.params.station)
      ∧ (∃ (s : State) (c : HandoverContext), s.takesRequests = true ∧ s.air.state = .closed
        ∧ (s.record 5).handover = some c ∧ c.role = .claiming ∧ (s.record 6).handover = none)
      ∧ ∃ (s : State) (c : HandoverContext), (s.record 5).handover = some c ∧ c.role = .handing
        ∧ (s.record 5).contact = .outbound :=
  ⟨by decide, ⟨withCarBut .granted fun r => { r with handover := some (context .claiming 51 1) }, context .claiming 51 1,
      by decide⟩,
    ⟨withCarBut .outbound fun r => { r with handover := some (context .handing 51 1) }, context .handing 51 1, by decide⟩⟩

theorem witness_Parameters :
    station.takesRequests = true ∧ (∃ t : State, exec .slotEnd station = .next t) ∧ Instr.slotEnd ≠ .resetNAssert
      ∧ (∀ p, Instr.slotEnd ≠ .configure p) ∧ (∀ p, Instr.slotEnd ≠ .setMask p) ∧ ∀ p, Instr.slotEnd ≠ .setLanes p :=
  ⟨by decide, ⟨_, rfl⟩, by decide, ⟨nofun, nofun, nofun⟩⟩

/-! ## Witnesses: the commands on records -/

theorem witness_Searches :
    (withCar .present).lookup 291 = some 5 ∧ (withCar .present).lookup 290 = none
      ∧ (withCar .present).allocatable = some 0 ∧ (withCar .present).takesRequests = true := by decide

theorem witness_RosterFull : ∃ s : State, s.allocatable = none :=
  ⟨{ station with roster := { station.roster with records := Vector.replicate 48 (carRecord .present) } }, by decide⟩

theorem witness_CarIdsUnique : ∃ s : State, s.carIdsUnique ∧ (s.record 5).contact ≠ .free ∧ (s.record 5).carId = 291 :=
  ⟨withCar .present, by
    refine ⟨?_, by decide, by decide⟩
    intro i j hi hj _
    have h : ∀ k : Fin 48, ((withCar .present).record k).contact ≠ .free → k = 5 := by decide
    rw [h i hi, h j hj]⟩

theorem witness_Index :
    47 < (48#8 : Byte).toNat ∧ (47 : Fin 48).val = 47 ∧ [0x41#8].length = (1#8 : Byte).toNat
      ∧ (0#8 : Byte).toNat * 256 + (0#8 : Byte).toNat = 0 ∧ (0x0F#8 : Byte).toNat * 256 + (0xFF#8 : Byte).toNat = 4095
      ∧ 4095 < (0x10#8 : Byte).toNat * 256 + (0x00#8 : Byte).toNat
      ∧ (withCar .present).lookup ((0x01#8 : Byte).toNat * 256 + (0x23#8 : Byte).toNat) = some 5
      ∧ (withCar .present).lookup 4095 = none := by decide

theorem witness_ReadRecord :
    ((withMessage 0).record 5).messages.map (withMessage 0).urgencyOf = [Urgency.routine].map some
      ∧ ((withCar .present).record 5).messages.map (withCar .present).urgencyOf = ([] : List Urgency).map some
      ∧ (withMessage 0).takesRequests = true := by decide

theorem witness_CommandsOnAFreeRecord : station.takesRequests = true ∧ (station.record 5).contact = .free := by decide

theorem witness_RecordCommands :
    (withCar .present).takesRequests = true ∧ ((withCar .present).record 5).contact ≠ .free
      ∧ (withCar .present).inExchange 5 = false ∧ ((withCar .present).record 5).pinned = false
      ∧ (withCar .present).roster.pinnedCount < 8 ∧ ((withCar .present).record 5).summoned = false := by decide

theorem witness_Pinned :
    (∃ s : State, s.takesRequests = true ∧ s.inExchange 5 = false ∧ (s.record 5).pinned = true
        ∧ (s.record 5).contact = .dormant)
      ∧ (∃ s : State, s.takesRequests = true ∧ s.inExchange 5 = false ∧ (s.record 5).pinned = true
        ∧ (s.record 5).contact ≠ .dormant ∧ (s.record 5).contact ≠ .free)
      ∧ ∃ s : State, s.takesRequests = true ∧ s.inExchange 5 = false ∧ (s.record 5).pinned = false
        ∧ (s.record 5).contact ≠ .free ∧ 8 ≤ s.roster.pinnedCount :=
  ⟨⟨withCarBut .dormant (fun r => { r with pinned := true }), by decide⟩,
    ⟨withCarBut .present (fun r => { r with pinned := true }), by decide⟩,
    ⟨{ withCar .present with roster := { (withCar .present).roster with pinnedCount := 8 } }, by decide⟩⟩

theorem witness_Release :
    ((withCar .granted).takesRequests = true ∧ (withCar .granted).inExchange 5 = false
        ∧ ((withCar .granted).record 5).contact = .granted)
      ∧ ((withCar .present).record 5).contact = .present
      ∧ ∀ c ∈ [ContactState.free, .paging, .dormant, .outbound, .releasing],
          (withCar c).takesRequests = true ∧ ((withCar c).record 5).contact = c := by decide

theorem test_release_in_the_other_states_is_bad_state :
    ∀ c ∈ [ContactState.free, .paging, .dormant, .outbound, .releasing],
      exec (.release [5#8]) (withCarBut c fun r => { r with soft := some .garbled }) =
        .next ((withCar c).refuse .badState) := by
  intro c hc
  simp only [List.mem_cons, List.not_mem_nil, or_false] at hc
  rcases hc with rfl | rfl | rfl | rfl | rfl <;> rfl

theorem witness_Retune :
    (3 < (4#8 : Byte).toNat ∧ Period.ofCode (3#8 : Byte).toNat = some .eight ∧ Period.ofCode (0#8 : Byte).toNat = some .one)
      ∧ ((withCar .present).takesRequests = true ∧ (withCar .present).inExchange 5 = false
        ∧ ((withCar .present).record 5).contact = .present ∧ ((withCar .present).record 5).retune = none
        ∧ ((withCar .present).record 5).handover = none ∧ ((withCar .present).record 5).hard = none
        ∧ (withCar .present).findPlace .eight = some { slot := 3, period := .eight, phase := 0 })
      ∧ ((withCar .paging).record 5).contact ≠ .present := by decide

theorem witness_RetuneNoRoom :
    (planFull (withCar .present)).findPlace .one = none ∧ (planFull (withCar .present)).takesRequests = true
      ∧ ((planFull (withCar .present)).record 5).contact = .present
      ∧ (planFull (inExchange (withCar .present))).inExchange 5 = true
      ∧ (planFull (inExchange (withCar .present))).findPlace .one = none
      ∧ (planFull (inExchange (withCar .present))).takesRequests = true := by decide

theorem witness_HeldCommands :
    (inExchange (withCar .present)).takesRequests = true ∧ (inExchange (withCar .present)).inExchange 5 = true
      ∧ ((inExchange (withCar .present)).record 5).contact = .present
      ∧ (inExchange (withCar .present)).roster.pinnedCount < 8 ∧ Period.ofCode (3#8 : Byte).toNat = some .eight
      ∧ ((inExchange (withCar .present)).record 5).retune = none
      ∧ ((inExchange (withCar .present)).record 5).handover = none
      ∧ ((inExchange (withCar .present)).record 5).hard = none
      ∧ (inExchange (withCar .present)).findPlace .eight ≠ none
      ∧ ∃ s : State, s.takesRequests = true ∧ s.inExchange 5 = true ∧ (s.record 5).contact = .present
          ∧ (s.record 5).pinned = false ∧ 8 ≤ s.roster.pinnedCount :=
  ⟨by decide, by decide, by decide, by decide, by decide, by decide, by decide, by decide, by decide,
    { inExchange (withCar .present) with roster := { (withCar .present).roster with pinnedCount := 8 } }, by decide⟩

theorem witness_Summon :
    (0 = (0#8 : Byte).toNat * 256 + (0#8 : Byte).toNat ∧ 4095 = (0x0F#8 : Byte).toNat * 256 + (0xFF#8 : Byte).toNat
        ∧ 4096 = (0x10#8 : Byte).toNat * 256 + (0x00#8 : Byte).toNat)
      ∧ (∀ c ∈ [ContactState.granted, .present, .paging, .dormant, .outbound, .releasing],
          (withCar c).takesRequests = true ∧ (withCar c).lookup 291 = some 5 ∧ ((withCar c).record 5).contact = c
            ∧ (withCar c).roster.summonCount < 8 ∧ ((withCar c).record 5).summoned = false)
      ∧ (station.lookup 4095 = none ∧ station.allocatable = some 0 ∧ station.roster.summonCount < 8) := by decide

theorem witness_Summoned :
    (∃ s : State, s.takesRequests = true ∧ s.lookup 291 = some 5 ∧ (s.record 5).summoned = true
        ∧ (s.record 5).contact = .paging)
      ∧ ∃ s : State, s.takesRequests = true ∧ s.lookup 291 = some 5 ∧ 8 ≤ s.roster.summonCount
        ∧ (s.record 5).contact = .dormant ∧ (s.record 5).summoned = false ∧ s.lookup 4095 = none :=
  ⟨⟨withCarBut .paging (fun r => { r with summoned := true }), by decide⟩,
    ⟨{ withCar .dormant with roster := { (withCar .dormant).roster with summonCount := 8 } }, by decide⟩⟩

theorem witness_Post :
    (1 < (2#8 : Byte).toNat ∧ (List.replicate 25 0#8).length = (25#8 : Byte).toNat ∧ 24 < (List.replicate 25 0#8).length
        ∧ (List.replicate 24 0#8).length = (24#8 : Byte).toNat ∧ ([] : List Byte).length = (0#8 : Byte).toNat
        ∧ Urgency.ofCode (1#8 : Byte).toNat = some .urgent ∧ Urgency.ofCode (0#8 : Byte).toNat = some .routine)
      ∧ ((withCar .paging).takesRequests = true ∧ ((withCar .paging).record 5).contact = .paging
        ∧ ((withCar .paging).record 5).messages.length < (withCar .paging).params.recordLimit
        ∧ (∃ b : Fin 64, (withCar .paging).pool[b] = none))
      ∧ ((withCar .outbound).record 5).contact = .outbound := by decide

theorem witness_PostNoRoom :
    (∃ s : State, s.takesRequests = true ∧ (s.record 5).contact = .present ∧ ∀ b : Fin 64, s.pool[b] ≠ none)
      ∧ ∃ s : State, (s.record 5).contact = .present ∧ s.params.recordLimit ≤ (s.record 5).messages.length :=
  ⟨⟨{ withCar .present with pool := Vector.replicate 64 (some (message 0)) }, by decide⟩,
    ⟨withCarBut .present (fun r => { r with messages := [0, 1, 2, 3] }), by decide⟩⟩

/-! ## Witnesses: the plan and the sweeps -/

theorem witness_Places :
    (Turn.mk 31 .eight 7).phase < (Turn.mk 31 .eight 7).period.cycles
      ∧ station.findPlace .one = some { slot := 3, period := .one, phase := 0 }
      ∧ station.findTurn .two = some { slot := 3, period := .two, phase := 0 }
      ∧ (planFull station).findPlace .eight = none ∧ (planFull station).findTurn .eight = none := by decide

theorem witness_SweepStart :
    (station.takesRequests = true ∧ station.sweep.state = .idle ∧ (0#8 : Byte).toNat ≤ (47#8 : Byte).toNat
        ∧ (47#8 : Byte).toNat ≤ 47 ∧ 1 ≤ (1#8 : Byte).toNat ∧ (64#8 : Byte).toNat ≤ 64 ∧ (1#8 : Byte).toNat ≤ 1)
      ∧ ¬ ((0#8 : Byte).toNat ≤ (48#8 : Byte).toNat ∧ (48#8 : Byte).toNat ≤ 47)
      ∧ (withSweep station .running 0 1).sweep.state = .running ∧ (withSweep station .complete 0 1).sweep.state = .complete
      ∧ (withSweep station .halted 0 1).takesRequests = true := by decide

theorem witness_SweepCommands :
    (∀ w ∈ [SweepState.idle, .running, .halted, .complete],
        (withSweep station w 0 4).takesRequests = true ∧ (withSweep station w 0 4).sweep.state = w
          ∧ (withSweep station w 0 4).air.state = .closed)
      ∧ ((withSweep (inSlot station 5 none) .running 0 4).air.state ≠ .closed
        ∧ (withSweep (inSlot station 5 none) .running 0 4).takesRequests = true) := by decide

theorem witness_ReadSweepComplete :
    ∃ (s : State) (r : SweepResult), s.takesRequests = true ∧ s.sweep.state = .complete ∧ s.sweep.result = some r :=
  ⟨(withSweep station .running 4 4).endSweep .deadline,
    { outcome := .deadline, first := 0, last := 47, marked := 1, answered := 0, left := 0, entered := 0, used := 4,
      unanswered := [] }, by decide⟩

theorem witness_SweepDeadline :
    (withSweep (inSlot station 31 none) .running 4 4).resetHeld = false
      ∧ (withSweep (inSlot station 31 none) .running 4 4).atCycleBoundary = true
      ∧ (withSweep (inSlot station 31 none) .running 4 4).sweep.used
          = (withSweep (inSlot station 31 none) .running 4 4).sweep.deadline
      ∧ (withSweep station .running 3 4).sweep.used < (withSweep station .running 3 4).sweep.deadline
      ∧ station.sweep.state ≠ .running := by decide

theorem witness_HaltPending :
    ∃ s : State, s.resetHeld = false ∧ s.resetPending = false ∧ s.air.slot = some 5 ∧ s.air.work = some .guard
      ∧ s.sweep.state = .running ∧ s.sweep.haltPending = true :=
  ⟨{ withSweep (inSlot station 5 (some .guard)) .running 0 4 with
      sweep := { (withSweep station .running 0 4).sweep with haltPending := true } }, by decide⟩

/-! ## Witnesses: the air -/

theorem witness_OpenAir :
    (State.reset.takesRequests = true ∧ State.reset.air.state = .closed ∧ State.reset.params.station = 0)
      ∧ (station.takesRequests = true ∧ station.air.state = .closed ∧ station.params.station ≠ 0)
      ∧ (inSlot station 5 none).air.state = .opened
      ∧ ∃ s : State, s.takesRequests = true ∧ s.air.state = .closing :=
  ⟨by decide, by decide, by decide, { inSlot station 5 none with air := { (inSlot station 5 none).air with state := .closing } },
    by decide⟩

theorem witness_SlotStart :
    (∀ k : Fin 32, (inSlot station k none).resetHeld = false ∧ (inSlot station k none).air.slot = some k
        ∧ (inSlot station k none).air.work = none)
      ∧ (0 : Fin 32).val < 2 ∧ (1 : Fin 32).val < 2 ∧ (30 : Fin 32) ≠ 31 := by decide

theorem witness_TurnSlot :
    (∃ h : CellHolding, (((withCar .present).giveCell 5 0 h).cell 5 0 = some h ∧ h.role = .turn
        ∧ (((withCar .present).giveCell 5 0 h).record h.holder).hard = none
        ∧ (((withCar .present).giveCell 5 0 h).record h.holder).contact = .present))
      ∧ (inSlot station 30 none).cell (30 + 1) 0 = none ∧ (0#8 : BitVec 8).toNat % 8 = 0
      ∧ 2 ≤ (4 : Fin 32).val ∧ (4 : Fin 32).val ≤ 30 :=
  ⟨⟨{ holder := 5, role := .turn }, by decide⟩, by decide⟩

theorem witness_PollMessage :
    ((withMessage 0).record 5).contact ≠ .releasing ∧ ((withMessage 0).record 5).inFlight = some 0
      ∧ ((withCar .present).record 5).inFlight = none
      ∧ (withMessage 0).startable { (withMessage 0).record 5 with inFlight := none } .routine = some 0
      ∧ (withMessage 0).startable { (withMessage 0).record 5 with inFlight := none } .urgent = none
      ∧ (∀ lane ∈ [Urgency.routine, .urgent], (withCar .present).startable ((withCar .present).record 5) lane = none)
      ∧ Urgency.urgent ≠ .routine := by decide

theorem witness_PollMessageStarted :
    ∃ s : State, (s.record 5).contact ≠ .releasing ∧ (s.record 5).inFlight = none
      ∧ s.startable (s.record 5) .urgent = none ∧ s.startable (s.record 5) .routine = some 0 :=
  ⟨(withMessage 0).setRecord 5 { carRecord .present with messages := [0] }, by decide⟩

theorem witness_UpFrame :
    ((inSlot station 1 (some .window)).resetHeld = false ∧ (inSlot station 1 (some .window)).air.slot = some 1
        ∧ (inSlot station 1 (some .window)).air.work = some .window ∧ (inSlot station 1 (some .window)).air.light = .ready
        ∧ (inSlot station 1 (some .window)).air.up = none)
      ∧ (inExchange (withCar .present)).air.exchange ≠ none ∧ (withUp (inSlot station 1 (some .window)) []).air.up ≠ none
      ∧ station.air.work = none := by decide

theorem witness_UpFrameWithoutWindow :
    ∀ k ∈ [(0 : Fin 32), 3, 31], (inSlot station k (some .window)).air.slot = some k ∧ k.val ≠ 1 ∧ k.val ≠ 2
      ∧ (inSlot station k (some .window)).air.exchange = none ∧ (inSlot station k (some .window)).resetHeld = false := by
  decide

theorem witness_RfReadyFall :
    ((inSlot station 5 (some .lead)).resetHeld = false ∧ (inSlot station 5 (some .lead)).air.work = some .lead
        ∧ (inSlot station 5 (some .lead)).air.light = .ready)
      ∧ SlotPhase.guard ≠ .lead
      ∧ ∃ s : State, s.air.work = some .window ∧ s.air.light ≠ .ready :=
  ⟨by decide, by decide,
    { inSlot station 5 (some .window) with air := { (inSlot station 5 (some .window)).air with light := .darkFromStart } },
    by decide⟩

/-! ## Witnesses: slot ends -/

theorem witness_BeaconHandedBack :
    ∃ (s : State) (b : Beacon), s.resetHeld = false ∧ s.resetPending = false ∧ s.air.slot = some 0
      ∧ s.air.work = some .guard ∧ s.air.light = .ready ∧ s.air.beacon = some b
      ∧ (b.pages.map BeaconPage.record).Nodup ∧ b.pages.getLast? = some { record := 5, carId := 291 } :=
  ⟨{ inSlot (withCar .paging) 0 (some .guard) with
      air := { (inSlot (withCar .paging) 0 (some .guard)).air with
        beacon := some { station := 50, cycle := 1, entryOpen := true, sweepActive := false, grants := [],
                         pages := [{ record := 5, carId := 291 }] } } },
    { station := 50, cycle := 1, entryOpen := true, sweepActive := false, grants := [],
      pages := [{ record := 5, carId := 291 }] }, by decide⟩

/-- The record at index 5 PAGING with three pages, named by the BEACON of a slot 0 about to end. -/
def named (passedOver : List (Fin 48)) : State :=
  { inSlot (withCarBut .paging fun r => { r with pageCount := 3 }) 0 (some .guard) with
    air := { (inSlot station 0 (some .guard)).air with
      beacon := some { station := 50, cycle := 1, entryOpen := true, sweepActive := false, grants := [],
                       pages := [{ record := 5, carId := 291 }] } },
    roster := { (withCarBut .paging fun r => { r with pageCount := 3 }).roster with passedOver := passedOver } }

theorem test_a_record_passed_over_keeps_its_pages :
    (∃ t : State, exec .slotEnd (named []) = .next t ∧ (t.record 5).pageCount = 2 ∧ t.roster.pagePointer = 5)
      ∧ ∃ t : State, exec .slotEnd (named [5]) = .next t ∧ (t.record 5).pageCount = 3 ∧ t.roster.pagePointer = 5 :=
  ⟨⟨_, rfl, by decide⟩, ⟨_, rfl, by decide⟩⟩

theorem test_retire_and_claim_in_slot_0_pass_the_record_over :
    (∃ t : State, exec (.retire [5#8]) (named []) = .next t ∧ t.roster.passedOver = [5])
      ∧ (∃ t : State, exec (.receiveQueueTake .inbye) (arrived (named []) (from51 (.claim 291 7 60 1))) = .next t
          ∧ (t.record 5).contact = .outbound ∧ t.roster.passedOver = [5])
      ∧ (∃ t : State, exec (.summon [0x01#8, 0x23#8]) (named []) = .next t ∧ t.roster.passedOver = []
          ∧ (t.record 5).pageCount = 8)
      ∧ ∃ t : State, exec (.summon [0x01#8, 0x23#8]) (station.setRecord 5 { carRecord .dormant with pageCount := 0 }) = .next t
          ∧ (t.record 5).contact = .paging ∧ t.roster.passedOver = [] :=
  ⟨⟨_, rfl, by decide⟩, ⟨_, rfl, by decide⟩, ⟨_, rfl, by decide⟩, ⟨_, rfl, by decide⟩⟩

theorem witness_BeaconDark :
    ∃ s : State, s.resetHeld = false ∧ s.resetPending = false ∧ s.air.slot = some 0 ∧ s.air.work = some .guard
      ∧ s.air.light ≠ .ready ∧ s.air.beacon = none :=
  ⟨{ inSlot station 0 (some .guard) with air := { (inSlot station 0 (some .guard)).air with light := .darkFromStart } },
    by decide⟩

theorem witness_DarkExchange :
    ∃ s : State, s.resetHeld = false ∧ s.resetPending = false ∧ s.air.slot = some 5 ∧ s.air.work = some .window
      ∧ s.air.light = .darkAfterFact true ∧ s.air.exchange = some { record := 5, role := .turn, poll := poll }
      ∧ poll.release = false ∧ s.roster.held = [] :=
  ⟨{ inExchange (withCar .present) with
      air := { (inExchange (withCar .present)).air with light := .darkAfterFact true } }, by decide⟩

/-- Below the limits, at a grant limit of 1 in PRESENT, past the lapse limit in GRANTED, and under a hard fault. -/
theorem witness_Miss :
    (∀ c ∈ [ContactState.present, .granted], ∀ up ∈ [none, some [0x12#8]], ∀ fault ∈ [none, some HardFault.identity], ∃ s : State,
        s.endsExchange 5 (exchange .turn poll) ∧ s.air.up.map UpFrame.bytes = up ∧ (s.record 5).contact = c
        ∧ (s.record 5).hard = fault
        ∧ (s.record 5).keepsTurn s.params .turn
        ∧ (fault = none → ((s.record 5).missed s.params .turn).1 + 1 = s.params.lapseLimit
          ∧ ((s.record 5).missed s.params .turn).2 + 1 ≤ s.params.grantLimit)
        ∧ (fault ≠ none → (s.record 5).missCount = 15 ∧ (s.record 5).grantMisses = s.params.grantLimit))
      ∧ (∃ s : State, s.endsExchange 5 (exchange .turn poll) ∧ (s.record 5).contact = .present ∧ s.params.grantLimit = 1
        ∧ (s.record 5).hard = none ∧ (s.record 5).keepsTurn s.params .turn)
      ∧ (∃ s : State, s.endsExchange 5 (exchange .turn poll) ∧ (s.record 5).contact = .granted
        ∧ s.params.lapseLimit ≤ (s.record 5).missCount ∧ (s.record 5).hard = none
        ∧ (s.record 5).keepsTurn s.params .turn)
      ∧ (poll.release = false ∧ poll.message = none ∧ poll.retune = none) ∧ decodeAnswer [0x12#8] = none := by
  refine ⟨fun c hc up hu fault hf => ⟨ending
      (withCarBut c fun r =>
        { r with missCount := if fault = none then 4 else 15, grantMisses := if fault = none then 0 else 2, hard := fault })
      (exchange .turn poll) up, ending_endsExchange _ _ _ rfl rfl rfl, by cases up <;> rfl, rfl, rfl, ?_⟩,
    ⟨ending { withCar .present with params := { station.params with grantLimit := 1 } } (exchange .turn poll) none,
      ending_endsExchange _ _ _ rfl rfl rfl, rfl, rfl, rfl, Or.inr (Or.inr (by decide))⟩,
    ⟨ending (withCarBut .granted fun r => { r with missCount := 15 }) (exchange .turn poll) none,
      ending_endsExchange _ _ _ rfl rfl rfl, rfl, by decide, rfl, Or.inr (Or.inr (by decide))⟩, by decide⟩
  unfold Record.keepsTurn
  revert c up fault
  decide

/-- What the window of a turn slot may hold at its end, and every light that a slot with an exchange can have. -/
theorem witness_WindowCounted :
    ∀ k ∈ [(3 : Fin 32), 31], ∀ light ∈ [SlotLight.ready, .darkAfterFact true, .darkAfterFact false],
      ∀ up ∈ [none, some [0x12#8], some (answer 7#8 0#8 [])], ∃ s : State, s.resetHeld = false ∧ s.resetPending = false
        ∧ s.air.slot = some k ∧ s.air.work ≠ none ∧ s.air.light = light ∧ s.air.exchange = some (exchange .turn poll)
        ∧ s.air.up.map UpFrame.bytes = up := fun k _ light _ up _ =>
  ⟨{ ending (withCar .present) (exchange .turn poll) up with
      air := { (ending (withCar .present) (exchange .turn poll) up).air with slot := some k, light := light } },
    rfl, rfl, rfl, nofun, rfl, rfl, by cases up <;> rfl⟩

theorem witness_GarbledAndAnswered :
    decodeAnswer [0x12#8] = none
      ∧ decodeAnswer (answer 7#8 0#8 []) = some { carId := 291, tag := 7, downAck := false, more := false, message := none } := by
  decide

theorem witness_Matched :
    decodeAnswer (withCheckWord [0x12#8, 0x01#8, 0x23#8, 0x07#8, 0x00#8]) =
        some { carId := 291, tag := 7, downAck := false, more := false, message := none }
      ∧ poll.carId = 291 ∧ poll.tag = 7
      ∧ (withUp (inExchange (withCar .granted)) []).air.light = .ready := by decide

theorem witness_Messages :
    (∀ n ∈ [0, 6, 7], ((withMessage n).record 5).inFlight = some 0 ∧ (withMessage n).pool[0] = some (message n)
        ∧ (message n).attempts ≤ 7 ∧ (message n).receipt = false)
      ∧ (message 0).attempts + 1 < (withMessage 0).params.attemptLimit
      ∧ (withMessage 3).params.attemptLimit ≤ (message 3).attempts + 1 ∧ (withMessage 3).params.attemptLimit ≤ 7 := by
  decide

theorem witness_Mismatch :
    (∀ role ∈ [CellRole.turn, .lent], ((ending (withCar .present) (exchange role poll) (some (answer 9#8 0#8 []))).endsExchange 5
          (exchange role poll)))
      ∧ decodeAnswer (answer 9#8 0#8 []) = some { carId := 291, tag := 9, downAck := false, more := false, message := none }
      ∧ poll.tag ≠ 9 ∧ poll.message = none ∧ poll.retune = none
      ∧ (withCar .present).record 5 = carRecord .present ∧ (carRecord .present).mismatchCount < 7
      ∧ (∀ role ∈ [CellRole.turn, .lent], ∀ c ∈ [ContactState.present, .granted],
          (carRecord c).keepsTurn station.params role)
      ∧ ((withCarBut .granted fun r => { r with mismatchCount := 7 }).record 5).mismatchCount = 7 :=
  ⟨fun _ _ => ending_endsExchange _ _ _ rfl rfl rfl, by unfold Record.keepsTurn; decide⟩

theorem witness_LentMiss :
    (∀ up ∈ [none, some [0x12#8]], (ending (withCar .present) (exchange .lent poll) up).endsExchange 5 (exchange .lent poll))
      ∧ (ending (withCar .present) (exchange .lent poll) none).air.up = none ∧ decodeAnswer [0x12#8] = none :=
  ⟨fun _ _ => ending_endsExchange _ _ _ rfl rfl rfl, by decide⟩

theorem witness_Lapse :
    ∃ s : State, s.endsExchange 5 (exchange .turn retunePoll) ∧ s.missedBy (exchange .turn retunePoll) none 0
      ∧ (s.record 5).contact = .present ∧ (s.record 5).hard = none ∧ (s.record 5).retune = some (retuneContext 2)
      ∧ s.params.lapseLimit = ((s.record 5).missed s.params .turn).1 :=
  ⟨ending (withCarBut .present fun r => { r with missCount := 5, retune := some (retuneContext 2) })
      (exchange .turn retunePoll) none,
    ending_endsExchange _ _ _ rfl rfl rfl, Or.inl (by decide), by decide⟩

theorem witness_GrantLapse :
    ∀ pinned : Bool, ∃ s : State, s.endsExchange 5 (exchange .turn poll)
      ∧ s.missedBy (exchange .turn poll) (some .garbled) 0 ∧ (s.record 5).contact = .granted ∧ (s.record 5).hard = none
      ∧ s.params.grantLimit = ((s.record 5).missed s.params .turn).2 ∧ (s.record 5).pinned = pinned
      ∧ (s.record 5).summoned = true := fun pinned =>
  ⟨ending (withCarBut .granted fun r => { r with grantMisses := 1, pinned := pinned, summoned := true })
      (exchange .turn poll) (some [0x12#8]),
    ending_endsExchange _ _ _ rfl rfl rfl, Or.inr (Or.inl ⟨⟨[0x12#8], 40⟩, by revert pinned; decide⟩),
    by revert pinned; decide⟩

theorem witness_Exhaustion :
    ∀ pinned : Bool, ∃ s : State, s.resetHeld = false ∧ s.resetPending = false ∧ s.air.slot = some 2 ∧ s.air.work ≠ none
      ∧ s.air.up = none ∧ (s.record 5).contact = .paging ∧ (s.record 5).pageCount = 0 ∧ (s.record 5).pinned = pinned
      ∧ (s.record 5).summoned = true ∧ (s.record 6).contact = .free := fun pinned =>
  ⟨inSlot (withCarBut .paging fun r => { r with pinned := pinned, summoned := true }) 2 (some .guard),
    by revert pinned; decide⟩

theorem witness_ReleaseEnds :
    ∀ light ∈ [SlotLight.ready, .darkAfterFact true, .darkAfterFact false], ∀ pinned : Bool, ∃ (s : State) (x : Exchange),
      s.resetHeld = false ∧ s.resetPending = false ∧ s.air.slot = some 5 ∧ s.air.work ≠ none ∧ s.air.exchange = some x
      ∧ x.poll.release = true ∧ s.roster.held = [] ∧ x.record = 5 ∧ (s.record 5).contact = .releasing
      ∧ (s.record 5).pinned = pinned ∧ s.air.light = light := fun light _ pinned =>
  ⟨{ ending (withCarBut .releasing fun r => { r with pinned := pinned }) (exchange .turn { poll with release := true }) none with
      air := { (ending (withCar .releasing) (exchange .turn { poll with release := true }) none).air with light := light } },
    exchange .turn { poll with release := true }, rfl, rfl, rfl, nofun, rfl, rfl, rfl, rfl, rfl, rfl, rfl⟩

theorem witness_Loan :
    ∃ (s : State) (a : Answer), s.endsExchange 5 (exchange .turn poll) ∧ s.matchedBy (exchange .turn poll) a 40
      ∧ a.more = true ∧ a.message = none ∧ (s.record 5).contact = .present ∧ (s.record 5).hard = none
      ∧ (s.record 5).extensions < 2 ∧ s.air.cycle.toNat % 8 = 0 ∧ s.cell 6 0 ≠ none ∧ s.cell 7 0 = none :=
  ⟨ending ((withCar .present).giveCell 6 0 { holder := 6, role := .turn }) (exchange .turn poll) (some (answer 7#8 0x40#8 [])),
    { carId := 291, tag := 7, downAck := false, more := true, message := none }, ending_endsExchange _ _ _ rfl rfl rfl,
    ⟨⟨answer 7#8 0x40#8 [], 40⟩, by decide⟩, by decide⟩

theorem witness_NoLoan :
    2 ≤ ((withCarBut .present fun r => { r with extensions := 2 }).record 5).extensions
      ∧ ((withCarBut .present fun r => { r with hard := some .identity }).record 5).hard ≠ none
      ∧ (planFull (withCar .granted)).cell 31 7 ≠ none ∧ ((planFull (withCar .granted)).record 5).contact = .granted := by
  decide

theorem witness_RetuneConfirmed :
    ∃ (s : State) (a : Answer), s.endsExchange 5 (exchange .turn retunePoll)
      ∧ s.matchedBy (exchange .turn retunePoll) a 40 ∧ a.more = false ∧ a.message = none ∧ retunePoll.message = none
      ∧ retunePoll.retune ≠ none ∧ (s.record 5).contact = .present ∧ (s.record 5).retune = some (retuneContext 1) :=
  ⟨ending (withCarBut .present fun r => { r with retune := some (retuneContext 1) }) (exchange .turn retunePoll)
      (some (answer 7#8 0#8 [])),
    { carId := 291, tag := 7, downAck := false, more := false, message := none }, ending_endsExchange _ _ _ rfl rfl rfl,
    ⟨⟨answer 7#8 0#8 [], 40⟩, by decide⟩, by decide⟩

theorem witness_RetuneTries :
    ∀ role ∈ [CellRole.turn, .lent], ∀ tries ∈ [0, 1, 2], ∃ s : State, s.endsExchange 5 (exchange role retunePoll)
      ∧ s.missedBy (exchange role retunePoll) (some .mismatch) 1 ∧ (s.record 5).contact = .present
      ∧ (s.record 5).retune = some (retuneContext tries)
      ∧ (s.record 5).keepsTurn s.params role := fun role hr tries ht =>
  ⟨ending (withCarBut .present fun r => { r with retune := some (retuneContext tries) }) (exchange role retunePoll)
      (some (answer 9#8 0#8 [])),
    ending_endsExchange _ _ _ rfl rfl rfl,
    Or.inr (Or.inr ⟨⟨answer 9#8 0#8 [], 40⟩, { carId := 291, tag := 9, downAck := false, more := false, message := none },
      rfl, by decide, Or.inr (by decide : (9 : Nat) ≠ 7), rfl, rfl, by decide⟩),
    rfl, rfl, Or.inr (Or.inr (by revert tries role; decide))⟩

theorem witness_MessageJudged :
    ∀ flags ∈ [0x00#8, 0x80#8], ∃ (s : State) (a : Answer), s.endsExchange 5 (exchange .turn messagePoll)
      ∧ s.matchedBy (exchange .turn messagePoll) a 40 ∧ a.more = false ∧ a.message = none
      ∧ (a.downAck = messagePoll.downBit ↔ flags = 0x00#8) ∧ messagePoll.message ≠ none ∧ messagePoll.retune = none
      ∧ (s.record 5).contact = .present ∧ (s.record 5).inFlight = some 0 ∧ s.pool[(0 : Fin 64)] = some (message 2) := by
  intro flags hf
  refine ⟨ending (withMessage 2) (exchange .turn messagePoll) (some (answer 7#8 flags [])),
    { carId := 291, tag := 7, downAck := flags = 0x80#8, more := false, message := none },
    ending_endsExchange _ _ _ rfl rfl rfl, ⟨⟨answer 7#8 flags [], 40⟩, rfl, ?_, rfl, rfl, rfl⟩, rfl, rfl, ?_, nofun, rfl, rfl,
    rfl, rfl⟩ <;> revert flags <;> decide

theorem witness_MessageMissed :
    ∃ s : State, s.endsExchange 5 (exchange .turn messagePoll) ∧ s.missedBy (exchange .turn messagePoll) none 0
      ∧ (s.record 5).keepsTurn s.params .turn ∧ (message 2).attempts + 1 < s.params.attemptLimit
      ∧ (message 3).attempts + 1 = s.params.attemptLimit :=
  ⟨ending (withMessage 2) (exchange .turn messagePoll) none, ending_endsExchange _ _ _ rfl rfl rfl,
    Or.inl (by decide), Or.inr (Or.inr (by decide)), by decide⟩

/-- A message of the dispatch system with its receipt flag set, and an OUTBYE port on which one place is left. -/
def receiptMessage : Message := { message 0 with source := .dispatch 9, receipt := true }
def onePlaceLeft (s : State) : State :=
  withPort s .outbye fun q =>
    { q with neighbour := .up, sending := some (from51 (.locate 291 1)), traffic := List.replicate 5 (from51 (.locate 291 1)) }

theorem witness_CarMessages :
    (∀ head ∈ [0x01#8, 0x81#8, 0x41#8, 0xC1#8], ∃ (s : State) (a : Answer) (am : AnswerMessage),
        s.endsExchange 5 (exchange .turn poll) ∧ s.matchedBy (exchange .turn poll) a 40 ∧ a.more = false
          ∧ a.message = some am ∧ (am.upBit = true ↔ head = 0x41#8 ∨ head = 0xC1#8)
          ∧ (am.addressee = .dispatch ↔ head = 0x81#8 ∨ head = 0xC1#8) ∧ (s.record 5).upBit = false
          ∧ (s.record 5).contact = .present ∧ s.inbound.length < 32 ∧ s.params.outbyeUse = true
          ∧ (s.port .outbye).neighbour = .up ∧ (s.port .outbye).traffic.length < 6)
      ∧ (station.port .outbye).neighbour ≠ .up
      ∧ 32 ≤ ({ station with inbound := List.replicate 32 { carId := 291, record := 5, body := [0x41#8] } } : State).inbound.length := by
  refine ⟨fun head hh => ⟨ending (onePlaceLeft (withCar .present)) (exchange .turn poll)
      (some (answer 7#8 0x20#8 [head, 0x42#8])),
    { carId := 291, tag := 7, downAck := false, more := false,
      message := some { addressee := if head = 0x81#8 ∨ head = 0xC1#8 then .dispatch else .here,
                        upBit := head = 0x41#8 ∨ head = 0xC1#8, body := [0x42#8] } },
    _, ending_endsExchange _ _ _ rfl rfl rfl, ⟨⟨answer 7#8 0x20#8 [head, 0x42#8], 40⟩, rfl, ?_, rfl, rfl, rfl⟩, rfl, rfl,
    ?_, ?_, rfl, rfl, (by decide : 0 < 32), rfl, rfl, (by decide : 5 < 6)⟩, by decide⟩ <;> revert head <;> decide

theorem witness_NoteBeforeUplink :
    ∃ (s : State) (a : Answer) (am : AnswerMessage), s.endsExchange 5 (exchange .turn messagePoll)
      ∧ s.matchedBy (exchange .turn messagePoll) a 40 ∧ a.more = false ∧ a.message = some am
      ∧ a.downAck = messagePoll.downBit ∧ (s.record 5).inFlight = some 0 ∧ s.pool[(0 : Fin 64)] = some receiptMessage
      ∧ am.addressee = .dispatch ∧ am.upBit ≠ (s.record 5).upBit ∧ s.params.outbyeUse = true
      ∧ (s.port .outbye).neighbour = .up ∧ (s.port .outbye).sending ≠ none ∧ (s.port .outbye).traffic.length = 5 :=
  ⟨ending { onePlaceLeft (withMessage 0) with pool := Pool.reset.set 0 (some receiptMessage) } (exchange .turn messagePoll)
      (some (answer 7#8 0x20#8 [0xC1#8, 0x42#8])),
    { carId := 291, tag := 7, downAck := false, more := false,
      message := some { addressee := .dispatch, upBit := true, body := [0x42#8] } },
    _, ending_endsExchange _ _ _ rfl rfl rfl, ⟨⟨answer 7#8 0x20#8 [0xC1#8, 0x42#8], 40⟩, by decide⟩, rfl, rfl, by decide⟩

theorem witness_HeldHail :
    (∃ (s : State) (h : Hail), s.resetHeld = false ∧ s.resetPending = false ∧ s.air.slot = some 1
        ∧ s.air.work = some .window ∧ s.air.light = .ready ∧ s.air.up = some { bytes := hail 9 false, level := 40 }
        ∧ decodeHail (hail 9 false) = some h ∧ s.lookup h.carId = none ∧ s.air.entryOpen = false)
      ∧ (∃ h : Hail, decodeHail (hail 291 true) = some h ∧ (withCar .releasing).lookup h.carId = some 5
        ∧ ((withCar .releasing).record 5).contact = .releasing)
      ∧ ∃ h : Hail, decodeHail (hail 291 false) = some h ∧ (withCar .paging).lookup h.carId = some 5 ∧ h.paged = false :=
  ⟨⟨withUp (inSlot station 1 (some .window)) (hail 9 false),
      { carId := 9, previousStation := 0, previousTag := 0, cls := 0, paged := false }, by decide⟩,
    ⟨{ carId := 291, previousStation := 0, previousTag := 0, cls := 0, paged := true }, by decide⟩,
    ⟨{ carId := 291, previousStation := 0, previousTag := 0, cls := 0, paged := false }, by decide⟩⟩

theorem witness_Admission :
    ∃ s : State, s.lookup 9 = none ∧ s.air.entryOpen = true ∧ s.allocatable = some 0
      ∧ s.findTurn s.params.classPeriods[0] = some { slot := 3, period := .four, phase := 0 }
      ∧ (planFull s).findTurn (planFull s).params.classPeriods[0] = none :=
  ⟨{ station with air := { station.air with entryOpen := true } }, by decide⟩

/-- A state with the entry-open decision taken open, and every reason enabled. -/
def opened (s : State) : State := { s with air := { s.air with entryOpen := true } }

theorem witness_AdmissionClaims :
    (∃ s : State, s.lookup 9 = none ∧ s.air.entryOpen = true ∧ s.allocatable = some 0
        ∧ s.findTurn s.params.classPeriods[0] ≠ none ∧ portToward s.params.station 51 = some .inbye
        ∧ s.params.inUse .inbye = true ∧ (s.port .inbye).neighbour ≠ .down ∧ Record.free.handover = none)
      ∧ ((withPort station .inbye fun q => { q with neighbour := .down }).port .inbye).neighbour = .down
      ∧ (51 : Nat) ≠ station.params.station ∧ (50 : Nat) = station.params.station :=
  ⟨⟨opened station, by decide⟩, by decide⟩

theorem witness_HailAtTheSlotEnd :
    ∀ k ∈ [(1 : Fin 32), 2], ∃ (s : State) (h : Hail), s.resetHeld = false ∧ s.resetPending = false ∧ s.air.slot = some k
      ∧ s.air.work ≠ none ∧ s.air.light = .ready ∧ s.air.up = some { bytes := hail 291 true, level := 40 }
      ∧ decodeHail (hail 291 true) = some h ∧ ∀ i, ((s.decideHail h 40).record i).contact ≠ .paging := fun k hk =>
  ⟨withUp (inSlot (withCar .paging) k (some .window)) (hail 291 true),
    { carId := 291, previousStation := 0, previousTag := 0, cls := 0, paged := true }, by revert k; decide⟩

theorem witness_HailsOfHeldCars :
    ((∀ c ∈ [ContactState.granted, .present, .paging, .dormant], (opened (withCar c)).lookup 291 = some 5
          ∧ ((opened (withCar c)).record 5).hard = none ∧ ((opened (withCar c)).record 5).contact = c
          ∧ (opened (withCar c)).air.entryOpen = true)
        ∧ (withCar .paging).findTurn .four = some { slot := 3, period := .four, phase := 0 }
        ∧ (planFull (withCar .dormant)).findTurn .four = none ∧ station.params.classPeriods[(0 : Fin 4)] = .four)
      ∧ ∃ h : Hail, h.carId = 291 ∧ h.paged = true ∧ h.previousStation = 51 :=
  ⟨by decide, { carId := 291, previousStation := 51, previousTag := 3, cls := 0, paged := true }, rfl, rfl, rfl⟩

theorem witness_CycleEnd :
    ∀ state ∈ [AirState.opened, .closing], ∃ s : State, s.resetHeld = false ∧ s.resetPending = false
      ∧ s.air.slot = some 31 ∧ s.air.work = some .guard ∧ s.air.state = state ∧ s.air.exchange = none
      ∧ s.roster.held = [] ∧ s.cells[(8 : Fin 232)] = some { holder := 5, role := .lent }
      ∧ (∀ begun, s.air.light ≠ .darkAfterFact begun)
      ∧ ∃ v : State, exec .slotEnd { s with air := { s.air with slot := some 30 } } = .next v
          ∧ v.cells[(8 : Fin 232)] = some { holder := 5, role := .lent } := fun state hs =>
  ⟨{ inSlot ((withCar .present).giveCell 4 0 { holder := 5, role := .lent }) 31 (some .guard) with
      air := { (inSlot station 31 (some .guard)).air with state := state } },
    rfl, rfl, rfl, rfl, rfl, rfl, rfl, rfl, nofun, _, rfl, by revert state; decide⟩

theorem witness_HeldFrame :
    (arrived (inExchange (withCar .present)) (from51 (.claim 291 7 60 1))).resetHeld = false
      ∧ (arrived (inExchange (withCar .present)) (from51 (.claim 291 7 60 1))).params.station ≠ 0
      ∧ ((arrived (inExchange (withCar .present)) (from51 (.claim 291 7 60 1))).port .inbye).receive
          = [from51 (.claim 291 7 60 1)]
      ∧ (from51 (.claim 291 7 60 1)).dest = 50 ∧ (inExchange (withCar .present)).lookup 291 = some 5
      ∧ (inExchange (withCar .present)).inExchange 5 = true ∧ (withCar .present).inExchange 5 = false
      ∧ (withCar .present).lookup 291 = some 5 := by decide

theorem witness_HeldWorkTaken :
    ∃ s : State, s.resetHeld = false ∧ s.resetPending = false ∧ s.air.slot = some 5 ∧ s.air.work = some .window
      ∧ s.air.exchange = some (exchange .turn poll) ∧ s.sweep.haltPending = false
      ∧ s.roster.held = [.command .pin, .frame .inbye (from51 (.claim 291 7 60 1))] :=
  ⟨{ inExchange (withCar .present) with
      roster := { (withCar .present).roster with held := [.command .pin, .frame .inbye (from51 (.claim 291 7 60 1))] } },
    by decide⟩

theorem test_held_pin_is_taken :
    ((State.takeHeld 5 (withCar .present) (.command .pin)).record 5).pinned = true
      ∧ State.takeHeld 5 (withCar .present) (.command .clearFault) = withCar .present := by decide

/-! ## Witnesses: the backbone and handover -/

/-- A LOCATE from the gateway for this station. -/
def locateFrame : BackboneFrame := { source := 255, dest := 50, hop := 9, payload := .locate 291 1 }

theorem witness_ArrivingFrames :
    decodeBackbone locateFrame.bytes = some locateFrame ∧ decodeBackbone [0x22#8] = none
      ∧ decodeBackbone (BackboneFrame.bytes { source := 51, dest := 0, hop := 255, payload := .hello 51 })
          = some { source := 51, dest := 0, hop := 255, payload := .hello 51 }
      ∧ station.resetHeld = false ∧ station.params.inUse .inbye = true ∧ (station.port .inbye).receive.length < 8
      ∧ 8 ≤ ((withPort station .inbye fun q => { q with receive := List.replicate 8 locateFrame }).port .inbye).receive.length
      := by decide

theorem witness_Routing :
    ((withPort station .inbye fun q => { q with receive := [locateFrame] }).port .inbye).receive = [locateFrame]
      ∧ (station.port .inbye).receive = [] ∧ station.params.station ≠ 0 ∧ State.reset.params.station = 0
      ∧ (51 : Nat) ≠ station.params.station ∧ (255 : Nat) ≠ station.params.station ∧ (50 : Nat) = station.params.station
      ∧ station.params.inUse .outbye = true ∧ (station.port .outbye).traffic.length < 6
      ∧ 6 ≤ ((withPort station .outbye fun q => { q with traffic := List.replicate 6 locateFrame }).port .outbye).traffic.length
      ∧ ((withPort station .outbye fun q => { q with sending := some locateFrame }).port .outbye).sending ≠ none := by
  decide

theorem witness_FramesByCar :
    ((withCar .present).lookup 291 = some 5 ∧ (withCar .present).lookup 9 = none ∧ portToward 50 255 = some .outbye
        ∧ portToward 50 51 = some .inbye ∧ portToward 50 49 = some .outbye)
      ∧ ∃ (s : State) (c : HandoverContext), s.resetHeld = false ∧ s.lookup 291 = some 5 ∧ s.inExchange 5 = false
          ∧ (s.record 5).handover = some c ∧ c.role = .claiming ∧ c.peer = 51 :=
  ⟨by decide, withCarBut .granted (fun r => { r with handover := some (context .claiming 51 1) }),
    context .claiming 51 1, by decide⟩

theorem witness_Arbiter :
    (station.params.inUse .inbye = true ∧ (station.port .inbye).sending = none ∧ station.params.station ≠ 0
        ∧ (station.port .inbye).helloDue = false ∧ station.handoverWaiting .inbye = none
        ∧ (station.port .inbye).traffic = [])
      ∧ (∃ s : State, (s.port .inbye).traffic = [locateFrame] ∧ s.params.arbiterMode = .rotating
        ∧ (s.port .inbye).lastServed = .handover ∧ (s.port .inbye).helloDue = false)
      ∧ ∃ (s : State) (c : HandoverContext), s.handoverWaiting .inbye = some 5 ∧ (s.record 5).handover = some c
        ∧ (s.port .inbye).traffic = [] ∧ (s.port .inbye).sending = none :=
  ⟨by decide,
    ⟨{ withPort station .inbye (fun q => { q with traffic := [locateFrame], lastServed := .handover }) with
        params := { station.params with arbiterMode := .rotating } }, by decide⟩,
    ⟨withCarBut .granted (fun r => { r with handover := some { context .claiming 51 1 with due := true } }),
      { context .claiming 51 1 with due := true }, by decide⟩⟩

theorem witness_HelloDue :
    ((withPort station .inbye fun q => { q with helloDue := true }).port .inbye).helloDue = true
      ∧ station.resetHeld = false
      ∧ ((withPort station .inbye fun q => { q with sending := some locateFrame }).port .inbye).sending ≠ none
      ∧ ({ station with params := { station.params with inbyeUse := false } } : State).params.inUse .inbye = false := by
  decide

theorem witness_Silence :
    (station.resetHeld = false ∧ station.params.inUse .inbye = true ∧ (station.port .inbye).neighbour ≠ .down)
      ∧ ((withPort station .inbye fun q => { q with neighbour := .down }).port .inbye).neighbour = .down
      ∧ (∃ (s : State) (c : HandoverContext), s.routedThrough .inbye 5 = true ∧ (s.record 5).handover = some c
        ∧ c.role = .claiming ∧ (s.port .inbye).neighbour ≠ .down)
      ∧ ∃ (s : State) (c : HandoverContext), s.routedThrough .inbye 5 = true ∧ (s.record 5).handover = some c
        ∧ c.role = .handing ∧ (s.record 5).contact = .outbound ∧ s.routedThrough .inbye 6 = false :=
  ⟨by decide, by decide,
    ⟨withCarBut .granted (fun r => { r with handover := some (context .claiming 51 1) }), context .claiming 51 1,
      by decide⟩,
    ⟨withCarBut .outbound (fun r => { r with handover := some (context .handing 51 1) }), context .handing 51 1,
      by decide⟩⟩

theorem witness_FlushPort :
    station.takesRequests = true ∧ Port.ofCode (0#8 : Byte).toNat = some .inbye
      ∧ Port.ofCode (1#8 : Byte).toNat = some .outbye ∧ 1 < (2#8 : Byte).toNat := by decide

theorem witness_Claims :
    (withCar .present).lookup 9 = none ∧ (withCar .present).lookup 291 = some 5
      ∧ ((withCar .releasing).record 5).contact = .releasing ∧ (withCar .releasing).lookup 291 = some 5
      ∧ 36 ≤ ((withCar .present).record 5).level + (withCar .present).params.contestMargin
      ∧ ¬ (37 ≤ ((withCar .present).record 5).level + (withCar .present).params.contestMargin)
      ∧ ((withCar .present).record 5).handover = none ∧ ((withCar .present).record 5).keep = false
      ∧ ((withCarBut .present fun r => { r with keep := true }).record 5).keep = true := by decide

theorem witness_Contexts :
    (context .claiming 51 2).tries < 3 ∧ 3 ≤ (context .claiming 51 3).tries ∧ (context .handing 51 1).tries < 2
      ∧ 2 ≤ (context .handing 51 2).tries ∧ (context .claiming 51 2).role = .claiming
      ∧ (context .handing 51 2).role = .handing
      ∧ ((withCarBut .outbound fun r => { r with handover := some (context .handing 51 2) }).record 5).handover
          = some (context .handing 51 2)
      ∧ ((withCarBut .outbound fun r => { r with handover := some (context .handing 51 2) }).record 5).contact = .outbound
      := by decide

theorem witness_Taken :
    ((withCarBut .outbound fun r => { r with handover := some (context .handing 51 1) }).record 5).handingTo 51 = true
      ∧ (withCarBut .outbound fun r => { r with handover := some (context .handing 51 1) }).lookup 291 = some 5
      ∧ ((withCarBut .paging fun r => { r with lastHanding := some 51 }).record 5).lastHanding = some 51
      ∧ ((withCar .present).record 5).handingTo 51 = false := by decide

theorem witness_Relay :
    (∀ c ∈ [ContactState.granted, .present, .paging, .dormant],
        (withCar c).lookup 291 = some 5 ∧ ((withCar c).record 5).contact = c
          ∧ ((withCar c).record 5).messages.length < (withCar c).params.recordLimit ∧ (withCar c).pool[(0 : Fin 64)] = none)
      ∧ ((withCarBut .present fun r => { r with messages := [0, 1, 2, 3] }).params.recordLimit
          ≤ ((withCarBut .present fun r => { r with messages := [0, 1, 2, 3] }).record 5).messages.length)
      ∧ ((withCar .releasing).record 5).contact = .releasing ∧ (withCar .releasing).lookup 291 = some 5 := by decide

theorem witness_RelayOn :
    (∃ (s : State) (c : HandoverContext), s.lookup 291 = some 5 ∧ (s.record 5).contact = .outbound
        ∧ (s.record 5).handover = some c ∧ portToward s.params.station c.peer = some .inbye ∧ s.params.inUse .inbye = true
        ∧ (s.port .inbye).neighbour ≠ .down)
      ∧ 1 < (from51 (.relay 291 9 .routine true [0x41#8])).hop
      ∧ ((withPort station .inbye fun q => { q with neighbour := .down }).port .inbye).neighbour = .down
      ∧ station.lookup 291 = none ∧ ({ from51 (.relay 291 9 .routine true [0x41#8]) with dest := 0 } : BackboneFrame).dest = 0
      ∧ (from51 (.relay 291 9 .routine true [0x41#8])).dest ≠ 0 :=
  ⟨⟨withCarBut .outbound fun r => { r with handover := some (context .handing 51 1) }, context .handing 51 1, by decide⟩,
    by decide⟩

theorem witness_ArbiterWithoutNumber :
    ∃ s : State, s.params.inUse .inbye = true ∧ (s.port .inbye).sending = none ∧ (s.port .inbye).helloDue = true
      ∧ s.params.station = 0 ∧ s.resetHeld = false :=
  ⟨withPort State.reset .inbye fun q => { q with helloDue := true }, by decide⟩

theorem witness_Rotation :
    ∃ s : State, s.dueThrough .inbye 5 = true ∧ (5 : Fin 48) = (s.port .inbye).rotation + 1 + 5
      ∧ (∀ m : Fin 48, m < 5 → s.dueThrough .inbye ((s.port .inbye).rotation + 1 + m) = false)
      ∧ s.handoverWaiting .inbye = some 5 ∧ ∀ i, station.dueThrough .inbye i = false :=
  ⟨withCarBut .granted fun r => { r with handover := some { context .claiming 51 1 with due := true } }, by decide⟩

/-- Station 50 with the record of car 291 in a contact state and a context toward station 51. -/
def withContext (c : ContactState) (role : HandoverRole) : State :=
  withCarBut c fun r => { r with handover := some (context role 51 1) }

theorem witness_ClaimTaken :
    (∀ p ∈ [Payload.claim 291 7 60 1, .claim 291 7 36 1, .claim 9 7 60 1],
        (arrived (withCar .present) (from51 p)).resetHeld = false ∧ (arrived (withCar .present) (from51 p)).params.station ≠ 0
          ∧ ((arrived (withCar .present) (from51 p)).port .inbye).receive = [from51 p] ∧ (from51 p).dest = 50)
      ∧ (∀ i, (withCar .present).lookup 291 = some i → (withCar .present).inExchange i = false)
      ∧ (withCar .present).decideClaim 51 291 60 = .accepted 5
      ∧ (withCar .present).decideClaim 51 291 36 = .refused .contested
      ∧ (withCar .present).decideClaim 51 9 60 = .refused .notHeld
      ∧ (withContext .outbound .handing).decideClaim 51 291 60 = .again 5
      ∧ portToward 50 51 = some .inbye ∧ portToward 50 50 = none := by decide

/-- The messages of a TRANSFER: one without a receipt, one with. -/
def transferred : List TransferMessage :=
  [{ urgency := .routine, source := .host, receipt := false, attempts := 1, body := [0x41#8] },
    { urgency := .urgent, source := .dispatch 9, receipt := true, attempts := 2, body := [0x42#8] }]

theorem poolConsistent_of_empty (s : State) (hr : ∀ i, (s.record i).messages = [] ∧ (s.record i).inFlight = none)
    (hp : ∀ b : Fin 64, s.pool[b] = none) (hl : s.params.recordLimit ≤ 8) : s.poolConsistent :=
  ⟨fun i b => by simp [hr i, hp b], fun i => by simp [hr i], fun i b h => by simp [hr i] at h, fun i _ => (hr i).1, hl⟩

theorem witness_Transfer :
    (∃ (s : State) (c : HandoverContext), s.resetHeld = false ∧ s.params.station ≠ 0
        ∧ (s.port .inbye).receive = [from51 (.transfer 291 2 transferred)] ∧ s.lookup 291 = some 5 ∧ s.inExchange 5 = false
        ∧ (s.record 5).handover = some c ∧ c.role = .claiming ∧ c.peer = 51 ∧ s.freeBuffers = 64 ∧ s.poolConsistent)
      ∧ (∃ s : State, s.lookup 291 = some 5 ∧ (s.record 5).handover = none ∧ (s.record 5).origin = some 51)
      ∧ (withCar .present).lookup 9 = none ∧ ((withCar .present).record 5).origin ≠ some 51
      ∧ (context .handing 51 1).role = .handing ∧ (context .claiming 49 1).peer ≠ 51 :=
  ⟨⟨arrived (withContext .granted .claiming) (from51 (.transfer 291 2 transferred)), context .claiming 51 1,
      by decide, by decide, by decide, by decide, by decide, by decide, by decide, by decide, by decide,
      poolConsistent_of_empty _ (by decide) (by decide) (by decide)⟩,
    ⟨withCarBut .present fun r => { r with origin := some 51 }, by decide⟩, by decide⟩

theorem test_host_message_with_a_relay_number_is_taken :
    readTransferMessage [0x41#8, 0x00#8, 0x09#8, 0x01#8, 0x41#8]
        = some ({ urgency := .routine, source := .host, receipt := true, attempts := 1, body := [0x41#8] }, [])
      ∧ (TransferMessage.placed { urgency := .routine, source := .host, receipt := true, attempts := 1, body := [0x41#8] } 5).receipt
          = true := by decide

theorem test_transfer_is_placed :
    (State.placeMessages (withContext .granted .claiming) 5 0 transferred).2 = (2, [])
      ∧ ((State.placeMessages (withContext .granted .claiming) 5 0 transferred).1.record 5).messages = [0, 1] := by decide

theorem witness_TakenFrame :
    (∃ s : State, s.resetHeld = false ∧ s.params.station ≠ 0 ∧ (s.port .inbye).receive = [from51 (.taken 291 0)]
        ∧ s.lookup 291 = some 5 ∧ s.inExchange 5 = false ∧ (s.record 5).handingTo 51 = true)
      ∧ ∃ s : State, s.lookup 291 = some 5 ∧ (s.record 5).contact = .paging ∧ (s.record 5).lastHanding = some 51 :=
  ⟨⟨arrived (withContext .outbound .handing) (from51 (.taken 291 0)), by decide⟩,
    ⟨withCarBut .paging fun r => { r with lastHanding := some 51 }, by decide⟩⟩

theorem witness_Refused :
    (∀ reason ∈ [RefusedReason.kept, .contested, .notHeld, .busy], ∃ (s : State) (c : HandoverContext), s.resetHeld = false
        ∧ s.params.station ≠ 0 ∧ (s.port .inbye).receive = [from51 (.refused 291 reason)] ∧ s.lookup 291 = some 5
        ∧ s.inExchange 5 = false ∧ (s.record 5).handover = some c ∧ c.role = .claiming ∧ c.peer = 51
        ∧ (s.record 5).contact = .granted)
      ∧ ((withContext .paging .claiming).record 5).contact = .paging ∧ (withCar .present).lookup 9 = none
      ∧ ((withCar .present).record 5).handover = none :=
  ⟨fun reason hr => ⟨arrived (withContext .granted .claiming) (from51 (.refused 291 reason)), context .claiming 51 1,
    by revert reason; decide⟩, by decide⟩

theorem witness_Expiries :
    (∀ tries ∈ [1, 2, 3], ∃ (s : State) (c : HandoverContext), s.resetHeld = false ∧ (s.record 5).handover = some c
        ∧ c.role = .claiming ∧ c.tries = tries)
      ∧ (∀ tries ∈ [1, 2], ∃ (s : State) (c : HandoverContext), s.resetHeld = false ∧ (s.record 5).handover = some c
        ∧ c.role = .handing ∧ c.tries = tries ∧ (s.record 5).contact = .outbound)
      ∧ station.resetHeld = false ∧ (station.record 5).handover = none :=
  ⟨fun tries _ => ⟨withCarBut .granted fun r => { r with handover := some (context .claiming 51 tries) },
      context .claiming 51 tries, rfl, rfl, rfl, rfl⟩,
    fun tries _ => ⟨withCarBut .outbound fun r => { r with handover := some (context .handing 51 tries) },
      context .handing 51 tries, rfl, rfl, rfl, rfl, rfl⟩, by decide⟩

/-! ## Witnesses: frames that wait, NOTEs of a freed record, lapses with a message, slots without an exchange -/

theorem transmittersServed_of_idle (s : State)
    (h : ∀ p, (s.port p).helloDue = false ∧ (s.port p).traffic = [] ∧ ∀ i, s.dueThrough p i = false) :
    s.transmittersServed := fun p _ _ => h p

/-- The record at index 5, with fields changed, lists one message of the dispatch system with its receipt flag set. -/
def withReceipt (c : ContactState) (f : Record → Record) : State :=
  { withCarBut c (fun r => f { r with messages := [0] }) with pool := Pool.reset.set 0 (some receiptMessage) }

theorem poolConsistent_of_one (s : State) (m : Message) (h5 : (s.record 5).messages = [0])
    (hf : ∀ b, (s.record 5).inFlight = some b → b = 0) (h0 : s.pool[(0 : Fin 64)] = some m) (ht : m.target = 5)
    (hc : (s.record 5).contact ≠ .free) (hr : ∀ i, i ≠ 5 → (s.record i).messages = [] ∧ (s.record i).inFlight = none)
    (hp : ∀ b : Fin 64, b ≠ 0 → s.pool[b] = none) (hl : s.params.recordLimit ≤ 8) : s.poolConsistent := by
  refine ⟨fun i b => ?_, fun i => ?_, fun i b h => ?_, fun i h => ?_, hl⟩
  · by_cases hb : b = 0 <;> by_cases hi : i = 5
    · subst hb hi; simp [h5, h0, ht]
    · subst hb
      simp only [hr i hi, h0, List.not_mem_nil, Option.some.injEq, exists_eq_left', false_iff, ht]
      exact fun e => hi e.symm
    · subst hi; simp [h5, hp b hb, hb]
    · simp [hr i hi, hp b hb]
  · by_cases hi : i = 5
    · subst hi; simp [h5]
    · simp [hr i hi]
  · by_cases hi : i = 5
    · subst hi; simp [h5, hf b h]
    · rw [(hr i hi).2] at h; exact absurd h (by simp)
  · by_cases hi : i = 5
    · subst hi; exact absurd h hc
    · exact (hr i hi).1

theorem withReceipt_consistent (c : ContactState) (hc : c ≠ .free) (s : State) (hr : s.roster = (withReceipt c id).roster)
    (hp : ∀ b : Fin 64, s.pool[b] = if b = 0 then some receiptMessage else none) (hl : s.params.recordLimit ≤ 8) : s.poolConsistent := by
  have e : ∀ i, s.record i = (withReceipt c id).record i := fun i => by simp only [State.record, hr]
  refine poolConsistent_of_one s receiptMessage (by rw [e]; rfl) (fun b => ?_) ?_ rfl ?_ (fun i hi => ?_) (fun b hb => ?_) hl
  · rw [e]; exact nofun
  · simp [hp]
  · rw [e]; exact hc
  · rw [e]; revert i; cases c <;> decide
  · simp [hp, hb]

/-- What a record that becomes FREE finds: pool and lists in agreement, no frame waiting, a message that draws a NOTE. -/
theorem witness_NotesDropped :
    ∀ c ∈ [ContactState.granted, .present, .paging, .releasing], (withReceipt c id).poolConsistent
      ∧ (withReceipt c id).transmittersServed
      ∧ (withReceipt c id).listed ((withReceipt c id).record 5) = [receiptMessage] := by
  intro c hc
  refine ⟨withReceipt_consistent c (by revert c; decide) _ rfl (by cases c <;> decide)
      (by cases c <;> decide),
    transmittersServed_of_idle _ fun p => ?_, ?_⟩
  · revert c; cases p <;> decide
  · revert c; decide

theorem test_retire_sends_its_note :
    ∃ t : State, exec (.retire [5#8]) (withReceipt .present id) = .next t ∧ (t.record 5).contact = .free
      ∧ (t.port .outbye).sending =
          some { source := 50, dest := 255, hop := 255, payload := .note 291 9 .dropped 50 } :=
  ⟨_, rfl, by decide⟩

theorem witness_SummonedEnds :
    ∀ c ∈ [ContactState.granted, .present, .paging, .dormant], ∃ s : State, s.takesRequests = true
      ∧ s.inExchange 5 = false ∧ (s.record 5).contact = c ∧ (s.record 5).summoned = true ∧ s.lookup 291 = some 5
      ∧ (s.record 5).lastHanding = some 51 ∧ (s.record 5).pinned = true := fun c hc =>
  ⟨withCarBut c fun r => { r with summoned := true, lastHanding := some 51, pinned := true }, by revert c; decide⟩

theorem witness_PortLost :
    (∃ (s : State) (c : HandoverContext), s.takesRequests = true ∧ s.params.inUse .inbye = true
        ∧ s.routedThrough .inbye 5 = true ∧ (s.record 5).handover = some c ∧ c.role = .claiming
        ∧ s.routedThrough .inbye 6 = false)
      ∧ (∃ (s : State) (c : HandoverContext), s.routedThrough .inbye 5 = true ∧ (s.record 5).handover = some c
        ∧ c.role = .handing ∧ (s.record 5).contact = .outbound)
      ∧ (∃ s : State, s.takesRequests = true ∧ s.params.inUse .inbye = false ∧ (s.port .inbye).sending ≠ none)
      ∧ ((withPort station .outbye fun q => { q with neighbour := .down }).port .outbye).neighbour = .down :=
  ⟨⟨withContext .granted .claiming, context .claiming 51 1, by decide⟩,
    ⟨withContext .outbound .handing, context .handing 51 1, by decide⟩,
    ⟨{ withPort station .inbye (fun q => { q with sending := some locateFrame }) with
        params := { station.params with inbyeUse := false } }, by decide⟩, by decide⟩

/-- A frame made due on an idle transmitter where nothing else waits, on an unused port, and on a busy one. -/
theorem witness_FrameBegun :
    (portToward station.params.station 51 = some .inbye ∧ station.params.inUse .inbye = true
        ∧ (station.port .inbye).sending = none ∧ (station.port .inbye).helloDue = false
        ∧ (station.port .inbye).traffic = [] ∧ ∀ j, j ≠ 5 → station.dueThrough .inbye j = false)
      ∧ ({ station with params := { station.params with inbyeUse := false } } : State).params.inUse .inbye = false
      ∧ ((withPort station .inbye fun q => { q with sending := some locateFrame }).port .inbye).sending ≠ none := by
  decide

theorem test_claim_is_begun_at_once :
    (((opened station).decideHail { carId := 9, previousStation := 51, previousTag := 3, cls := 0, paged := false } 40).port
        .inbye).sending = some { source := 50, dest := 51, hop := 255, payload := .claim 9 1 40 1 } := by decide

theorem witness_TagCounter :
    (1 ≤ station.roster.tagCounter ∧ station.roster.tagCounter ≤ 255)
      ∧ ({ withCar .present with roster := { (withCar .present).roster with tagCounter := 255 } } : State).roster.tagCounter
          = 255 := by decide

theorem test_counter_passes_held_tags :
    (({ withCar .present with roster := { (withCar .present).roster with tagCounter := 6 } } : State).giveTag 3).roster.tagCounter
        = 8
      ∧ (({ station with roster := { station.roster with tagCounter := 255 } } : State).giveTag 3).roster.tagCounter = 1 := by
  decide

/-- A lapsing record whose POLL carried its message: tried again below the attempt limit, dropped at it. -/
theorem witness_LapseWithMessage :
    ∀ pinned : Bool, ∀ c ∈ [ContactState.present, .granted], ∀ n ∈ [0, 3], ∃ s : State,
      s.endsExchange 5 (exchange .turn messagePoll) ∧ s.missedBy (exchange .turn messagePoll) none 0
      ∧ (s.record 5).contact = c ∧ (s.record 5).hard = none ∧ messagePoll.message ≠ none ∧ messagePoll.retune = none
      ∧ (s.record 5).inFlight = some 0 ∧ 0 ∈ (s.record 5).messages ∧ s.pool[(0 : Fin 64)] = some (message n)
      ∧ (s.params.attemptLimit ≤ (message n).tried.attempts ↔ n = 3) ∧ (s.record 5).pinned = pinned
      ∧ s.params.lapseLimit = ((s.record 5).tried s.params 0 false).missCount
      ∧ (c = .granted → s.params.grantLimit = ((s.record 5).tried s.params 0 false).grantMisses) := fun pinned c hc n hn =>
  ⟨ending
      { withCarBut c (fun r => { r with messages := [0], inFlight := some 0, missCount := 5, grantMisses := 1,
                                        pinned := pinned }) with
        pool := Pool.reset.set 0 (some (message n)) }
      (exchange .turn messagePoll) none,
    ending_endsExchange _ _ _ rfl rfl rfl, Or.inl ⟨rfl, rfl, rfl⟩, by revert pinned c n; decide⟩

theorem witness_LapseWithReceipt :
    ∃ s : State, s.endsExchange 5 (exchange .turn messagePoll) ∧ s.poolConsistent ∧ s.transmittersServed
      ∧ (s.record 5).contact = .granted ∧ s.pool[(0 : Fin 64)] = some receiptMessage :=
  ⟨ending (withReceipt .granted id) (exchange .turn messagePoll) none, ending_endsExchange _ _ _ rfl rfl rfl,
    withReceipt_consistent .granted (by decide) _ rfl (by decide) (by decide),
    transmittersServed_of_idle _ fun p => by cases p <;> decide, by decide⟩

theorem witness_GarbledHail :
    ∀ k ∈ [(1 : Fin 32), 2], ∃ (s : State) (u : UpFrame), s.resetHeld = false ∧ s.resetPending = false
      ∧ s.air.slot = some k ∧ s.air.work ≠ none ∧ s.air.light = .ready ∧ s.air.up = some u
      ∧ decodeHail u.bytes = none := fun k hk =>
  ⟨withUp (inSlot station k (some .window)) [0x11#8], { bytes := [0x11#8], level := 40 }, by revert k; decide⟩

theorem witness_SlotWithoutExchange :
    ∀ k ∈ [(1 : Fin 32), 3, 30], ∀ light ∈ [SlotLight.ready, .darkFromStart, .darkAfterFact false], ∃ s : State,
      s.resetHeld = false ∧ s.resetPending = false ∧ s.air.slot = some k ∧ s.air.work ≠ none ∧ s.air.light = light
      ∧ s.air.up = none ∧ s.air.exchange = none ∧ s.sweep.haltPending = false := fun k hk light hl =>
  ⟨{ inSlot station k (some .guard) with air := { (inSlot station k (some .guard)).air with light := light } }, by
    revert k light; decide⟩

theorem test_garbled_hail_is_counted_once :
    ∃ t : State, exec .slotEnd (withUp (inSlot station 1 (some .window)) [0x11#8]) = .next t
      ∧ t.host.garbledFrames = 1 ∧ t.air.garbledRun = 0 :=
  ⟨_, rfl, by decide⟩

theorem test_open_air_sends_the_beacon :
    ∃ t : State, exec (.openAir [] true) station = .next t
      ∧ t.air.down = some (.beacon { station := 50, cycle := 1, entryOpen := true, sweepActive := false, grants := [],
                                     pages := [] })
      ∧ t.air.entryOpen = true ∧ t.air.darkCount = 0 :=
  ⟨_, rfl, by decide⟩

/-! ## Reports to the Condition Unit -/

/-- A state with the cause of some classes set. -/
def caused (s : State) (l : List ConditionClass) : State := l.foldl (fun s c => s.reportCause c true) s

theorem test_retire_ends_its_conditions :
    ∃ t : State, exec (.retire [5#8]) (caused
        ({ (withReceipt .present fun r => { r with hard := some .identity }) with
            params := { station.params with poolLow := 64 } }.giveCell 5 1 { holder := 5, role := .turn })
        [.rosterFull, .planFull, .poolLow, .identity]) = .next t
      ∧ (∀ c ∈ [ConditionClass.rosterFull, .planFull, .poolLow, .identity],
          t.classFlags c = { cause := false, latched := true, forced := false }) := ⟨_, rfl, by decide⟩

theorem test_release_ends_plan_full_by_its_pending_cell :
    (∃ t : State, exec (.release [5#8]) (caused
        ((withCarBut .present fun r => { r with retune := some (retuneContext 0) }).giveCell 9 0
          { holder := 5, role := .pending }) [.planFull]) =
        .next t ∧ (t.classFlags .planFull).cause = false)
      ∧ ∃ t : State, exec (.release [5#8]) (caused ((withCar .present).giveCell 5 1 { holder := 5, role := .turn }) [.planFull]) =
        .next t ∧ (t.classFlags .planFull).cause = true := ⟨⟨_, rfl, rfl⟩, ⟨_, rfl, rfl⟩⟩

/-- The eighth garbled frame in a row sets the cause of AIR_CHECK, and the next good one ends it. -/
theorem test_air_check_at_its_threshold :
    (∃ t : State, exec .slotEnd { ending (withCar .present) (exchange .turn poll) (some [0x12#8]) with
          air := { (ending (withCar .present) (exchange .turn poll) (some [0x12#8])).air with garbledRun := 7 } } = .next t
        ∧ t.classFlags .airCheck = { cause := true, latched := true, forced := false } ∧ (t.record 5).missCount = 1)
      ∧ ∃ t : State, exec .slotEnd (caused (ending (withCar .present) (exchange .turn poll) (some (answer 7#8 0#8 [])))
          [.airCheck]) = .next t ∧ t.classFlags .airCheck = { cause := false, latched := true, forced := false } :=
  ⟨⟨_, rfl, by decide⟩, ⟨_, rfl, by decide⟩⟩

/-- A POLL slot made dark after the fact as the 32nd dark slot in a row. -/
theorem test_air_dark_after_the_fact :
    ∃ t : State, exec .slotEnd { ending (withCar .present) (exchange .turn poll) none with
        air := { (ending (withCar .present) (exchange .turn poll) none).air with
          light := .darkAfterFact true, darkCount := 31 } } = .next t
      ∧ t.classFlags .airDark = { cause := true, latched := true, forced := false } ∧ (t.record 5).missCount = 0 :=
  ⟨_, rfl, by decide⟩

theorem test_delivery_ends_pool_low :
    ((caused { withMessage 0 with params := { station.params with poolLow := 64 } } [.poolLow]).deliverMessage 5).classFlags
        .poolLow = { cause := false, latched := true, forced := false } := by decide

/-! ## Witnesses: encodings and invariants -/

theorem witness_RequestFrames :
    requestOf (.post [0#8, 1#8, 1#8, 0x41#8]) = some (0x12, [0#8, 1#8, 1#8, 0x41#8])
      ∧ (Instr.post [0#8, 1#8, 1#8, 0x41#8]).wf = true
      ∧ requestOf (.openAir [] true) = some (0x43, []) ∧ (Instr.openAir [] true).wf = true := by decide

theorem witness_BackboneFrames :
    locateFrame.inRange = true
      ∧ BackboneFrame.inRange { source := 1, dest := 200, hop := 1, payload := .claim 4095 255 63 3 } = true := by decide

theorem planConsistent_of_empty (s : State)
    (hr : ∀ i, (s.record i).contact = .free ∧ (s.record i).turn = none ∧ (s.record i).retune = none)
    (hc : ∀ n : Fin 232, s.cells[n] = none) : s.planConsistent := by
  have hcell : ∀ slot phase, s.cell slot phase = none := by
    intro slot phase
    unfold State.cell
    split
    · by_cases h : cellIndex slot phase < 232
      · simpa [h] using hc ⟨_, h⟩
      · simp [h]
    · rfl
  exact ⟨fun i => by simp [hr i], fun i h => absurd (hr i).2.2 h, fun i t h => by simp [hr i] at h,
    fun i c h => by simp [hr i] at h, fun slot phase h hh => by simp [hcell] at hh⟩

/-- Station 50 meets every invariant, and a step leads on from it. -/
theorem witness_InvariantStep :
    (∃ t : State, step station = .next t) ∧ station.queuesBounded ∧ station.attentionDistinct ∧ station.planConsistent
      ∧ station.poolConsistent ∧ station.countsAgree ∧ station.sweepAgrees ∧ station.airConsistent ∧ station.carIdsUnique
      ∧ station.tagsUnique ∧ station.transmittersServed :=
  ⟨⟨station.passMillisecond, rfl⟩,
    ⟨by decide, ⟨by decide, by decide, fun h => absurd h (by decide)⟩, by decide, by decide,
      fun h => absurd h (by decide)⟩,
    List.nodup_nil, planConsistent_of_empty _ (by decide) (by decide),
    poolConsistent_of_empty _ (by decide) (by decide) (by decide), by unfold State.countsAgree; decide,
    ⟨fun h => absurd h (by decide), by decide, nofun⟩,
    ⟨by decide, by decide, fun _ => ⟨rfl, rfl, rfl⟩, fun h => absurd rfl h, fun _ => rfl, nofun⟩,
    fun i _ hi => absurd (by revert i; decide) hi,
    ⟨fun i _ _ hi => absurd (by revert i; decide) hi, fun i _ hi => absurd (by revert i; decide) hi, by decide, by decide,
      fun i hi => absurd (by revert i; decide) hi⟩,
    transmittersServed_of_idle _ fun p => by cases p <;> decide⟩

theorem witness_ParametersInRange : station.params.valid := fun name => Or.inl (by
  cases name with
  | classPeriod k => revert k; decide
  | portUse q => cases q <;> decide
  | action c => cases c <;> decide
  | _ => decide)

end Sys2Proof.Tests
end

/-! Proofs about the Turn Plan: the cells of a turn (R59), the search for a place (R60) and its degrade (R61). -/

namespace Sys2Proof.Machine

/-! ## The cells of a turn -/

/-- Every period divides the eight phases, so that a turn of it has 8 ÷ P cells (R59). -/
theorem Period.cycles_dvd_eight (p : Period) : p.cycles ∣ 8 := by
  cases p <;> decide

theorem Turn.mem_phases {t : Turn} (h : t.phase < t.period.cycles) {f : Nat} :
    f ∈ t.phases ↔ f < 8 ∧ f % t.period.cycles = t.phase := by
  constructor
  · intro hf
    refine ⟨Turn.phases_lt h f hf, ?_⟩
    obtain ⟨k, -, rfl⟩ := List.mem_map.mp hf
    rw [Nat.add_mul_mod_self_right, Nat.mod_eq_of_lt h]
  · rintro ⟨hf, hmod⟩
    have hk : f / t.period.cycles < 8 / t.period.cycles :=
      Nat.div_lt_div_of_lt_of_dvd t.period.cycles_dvd_eight hf
    exact List.mem_map.mpr ⟨f / t.period.cycles, List.mem_range.mpr hk, hmod ▸ Nat.mod_add_div' f _⟩

theorem Turn.length_phases (t : Turn) : t.phases.length = 8 / t.period.cycles := by
  simp [Turn.phases]

theorem State.placeFree_iff {s : State} {t : Turn} :
    s.placeFree t = true ↔ ∀ f ∈ t.phases, s.cell t.slot f = none := by
  simp [State.placeFree, State.cellFree]

theorem State.not_placeFree_iff {s : State} {t : Turn} :
    ¬ s.placeFree t = true ↔ ∃ f ∈ t.phases, s.cell t.slot f ≠ none := by
  simp [State.placeFree_iff]

/-! ## The orders of the two searches -/

/-- Of a list in a strict order, what comes before a member stands to its left: why a search that takes the first hit
takes the least one. -/
theorem mem_left_of_pairwise {α : Type} {R : α → α → Prop} {l r : List α} {a u : α}
    (hl : (l ++ a :: r).Pairwise R) (hu : u ∈ l ++ a :: r) (hne : u ≠ a) (hau : ¬ R a u) : u ∈ l := by
  rcases List.mem_append.mp hu with hu | hu
  · exact hu
  · obtain ⟨-, hright, -⟩ := List.pairwise_append.mp hl
    have hr : u ∈ r := (List.mem_cons.mp hu).resolve_left hne
    exact absurd (List.rel_of_pairwise_cons hright hr) hau

/-- The order in which the places are examined: by slot, and within a slot by phase (R60). -/
def Turn.before (t u : Turn) : Prop := t.slot < u.slot ∨ (t.slot = u.slot ∧ t.phase < u.phase)

theorem Turn.before_irrefl (t : Turn) : ¬ t.before t := by
  unfold Turn.before
  omega

theorem Turn.before_asymm {t u : Turn} (h : t.before u) : ¬ u.before t := by
  unfold Turn.before at *
  omega

theorem placesOf_pairwise (p : Period) : (placesOf p).Pairwise Turn.before := by
  refine List.pairwise_flatMap.mpr ⟨fun slot _ => ?_, ?_⟩
  · exact List.pairwise_map.mpr (List.pairwise_lt_range.imp fun hlt => Or.inr ⟨rfl, hlt⟩)
  · refine List.pairwise_lt_range.imp fun {a b} hab t ht u hu => ?_
    obtain ⟨f, -, rfl⟩ := List.mem_map.mp ht
    obtain ⟨g, -, rfl⟩ := List.mem_map.mp hu
    exact Or.inl (Nat.add_lt_add_right hab 3)

theorem Period.mem_andLonger {p q : Period} : q ∈ p.andLonger ↔ p.cycles ≤ q.cycles := by
  cases p <;> cases q <;> decide

theorem Period.andLonger_pairwise (p : Period) : p.andLonger.Pairwise (·.cycles < ·.cycles) := by
  cases p <;> decide

/-! ## What the searches find -/

/-- Every place that comes before the one found has a cell that is taken (R60). -/
theorem State.findPlace_first {s : State} {p : Period} {t u : Turn} (h : s.findPlace p = some t)
    (hu : u ∈ placesOf p) (hut : u.before t) : ¬ s.placeFree u = true := by
  obtain ⟨-, passed, rest, hsplit, hpassed⟩ := List.find?_eq_some_iff_append.mp h
  have hord : (passed ++ t :: rest).Pairwise Turn.before := hsplit ▸ placesOf_pairwise p
  have hne : u ≠ t := fun heq => Turn.before_irrefl t (heq ▸ hut)
  have hmem : u ∈ passed := mem_left_of_pairwise hord (hsplit ▸ hu) hne (Turn.before_asymm hut)
  simpa using hpassed u hmem

theorem State.findPlace_eq_none {s : State} {p : Period} :
    s.findPlace p = none ↔ ∀ u ∈ placesOf p, ¬ s.placeFree u = true :=
  List.find?_eq_none

/-- The degrade grants the place that the search finds at its period, which is the period asked or longer, and every
period between the two has no place (R61). -/
theorem State.findTurn_first {s : State} {p : Period} {t : Turn} (h : s.findTurn p = some t) :
    s.findPlace t.period = some t ∧ p.cycles ≤ t.period.cycles ∧
      ∀ q : Period, p.cycles ≤ q.cycles → q.cycles < t.period.cycles → s.findPlace q = none := by
  obtain ⟨shorter, p', longer, hsplit, hfind, hshorter⟩ := List.findSome?_eq_some_iff.mp h
  obtain ⟨rfl, -⟩ := State.findPlace_range hfind
  have hord : (shorter ++ t.period :: longer).Pairwise (·.cycles < ·.cycles) := hsplit ▸ p.andLonger_pairwise
  refine ⟨hfind, Period.mem_andLonger.mp (by simp [hsplit]), fun q hpq hqt => hshorter q ?_⟩
  have hq : q ∈ shorter ++ t.period :: longer := hsplit ▸ Period.mem_andLonger.mpr hpq
  exact mem_left_of_pairwise hord hq (fun heq => absurd (heq ▸ hqt) (lt_irrefl _)) hqt.le.not_gt

theorem State.findTurn_eq_none {s : State} {p : Period} :
    s.findTurn p = none ↔ ∀ q : Period, p.cycles ≤ q.cycles → s.findPlace q = none := by
  simp [State.findTurn, List.findSome?_eq_none_iff, Period.mem_andLonger]

/-! ## The statement -/

/-- Settles O23: the searches take the first hit of a list, and the lists are in the order of R60 and of R61. -/
theorem theFirstFreePlaceIsFound : Obligations.TheFirstFreePlaceIsFound := by
  refine ⟨fun t ht => ⟨fun f => Turn.mem_phases ht, t.length_phases⟩, ?_, ?_, ?_, ?_⟩
  · intro s p t h
    obtain ⟨rfl, hlow, hhigh, hphase⟩ := State.findPlace_range h
    refine ⟨rfl, hlow, hhigh, hphase, State.placeFree_iff.mp (List.find?_some h), ?_⟩
    intro u hp hslot hf hut
    have hslot' : u.slot ≤ 31 := by omega
    exact State.not_placeFree_iff.mp (State.findPlace_first h (mem_placesOf.mpr ⟨hp, hslot, hslot', hf⟩) hut)
  · intro s p h u hp hlow hhigh hf
    exact State.not_placeFree_iff.mp (State.findPlace_eq_none.mp h u (mem_placesOf.mpr ⟨hp, hlow, hhigh, hf⟩))
  · exact fun s p t h => State.findTurn_first h
  · exact fun s p h => State.findTurn_eq_none.mp h

end Sys2Proof.Machine

/-! Proofs about the Backbone Links: FLUSH_PORT (R136). -/

namespace Sys2Proof.Machine

/-- The codes 0 and 1 alone name a port (R177). -/
theorem Port.ofCode_eq_none_iff {n : Nat} : Port.ofCode n = none ↔ 1 < n := by
  match n with
  | 0 => simp [Port.ofCode]
  | 1 => simp [Port.ofCode]
  | n + 2 => simp [Port.ofCode]

/-! ## FLUSH_PORT (R136) -/

theorem exec_flushPort (params : List Byte) (s : State) : exec (.flushPort params) s = execFlushPort params s :=
  rfl

/-- FLUSH_PORT with its one parameter passes the tests of R165 and acts on the port that the parameter names. -/
theorem exec_flushPort_of_port {s : State} (h : s.takesRequests = true) {k : Byte} {p : Port}
    (hp : Port.ofCode k.toNat = some p) : exec (.flushPort [k]) s = .next (s.flushPort p) := by
  rw [exec_flushPort, execFlushPort, hostRequest_taken h, hp]

/-- FLUSH_PORT of a value that names no port is refused, and nothing is emptied. -/
theorem exec_flushPort_of_no_port {s : State} (h : s.takesRequests = true) {k : Byte}
    (hp : Port.ofCode k.toNat = none) : exec (.flushPort [k]) s = .next (s.refuse .badValue) := by
  rw [exec_flushPort, execFlushPort, hostRequest_taken h, hp]

/-- The frame of a flush: the port's state is replaced by itself with both queues empty, and the answer counts the frames
that they held before. -/
theorem State.flushPort_eq (s : State) (p : Port) :
    s.flushPort p = (s.setPort p { s.port p with receive := [], traffic := [] }).respond .done
      [byteOf ((s.port p).receive.length + (s.port p).traffic.length)] :=
  rfl

/-- Settles O47: the parameter names a port, which is flushed, or lies above the two codes of the ports. -/
theorem flushPortEmptiesTheQueues : Obligations.FlushPortEmptiesTheQueues := by
  intro s k h
  constructor
  · intro p hp
    rw [exec_flushPort_of_port h hp, State.flushPort_eq]
  · intro hk
    exact exec_flushPort_of_no_port h (Port.ofCode_eq_none_iff.mpr hk)

end Sys2Proof.Machine

/-! Proofs about the parameters: CONFIGURE of the handover timeout and of the contest margin, and their use (R139). -/

namespace Sys2Proof.Machine

/-! ## CONFIGURE (R167) -/

theorem exec_configure (params : List Byte) (s : State) : exec (.configure params) s = execConfigure params s :=
  rfl

/-- CONFIGURE with its parameter number and its two-byte value passes the tests of R165 and weighs the value for the
parameter that the number names. -/
theorem exec_configure_of_name {s : State} (h : s.takesRequests = true) {number : Byte} {name : ParamName}
    (hn : ParamName.ofCode number.toNat = some name) (hi lo : Byte) :
    exec (.configure [number, hi, lo]) s = .next (s.configure name (wordOf hi lo)) := by
  rw [exec_configure, execConfigure, hostRequest_taken h, hn]

theorem State.configure_out_of_range {s : State} {name : ParamName} {v : Nat} (h : s.params.inRange name v = false) :
    s.configure name v = s.refuse .badValue := by
  simp [State.configure, h]

/-- A value in range is set and then acts at once; only the station number asks for an air state (R138). -/
theorem State.configure_in_range {s : State} {name : ParamName} {v : Nat} (h : s.params.inRange name v = true)
    (hn : name ≠ .station) :
    s.configure name v =
      (({ s with params := s.params.set name v } : State).parameterChanged s.params name).respond .done [] := by
  simp [State.configure, h, hn]

/-! ## The two parameters of the handover (R139) -/

theorem Params.inRange_handoverTimeout {p : Params} {v : Nat} :
    p.inRange .handoverTimeout v = true ↔ 500 ≤ v ∧ v ≤ 4000 ∧ v % 250 = 0 := by
  simp [Params.inRange, and_assoc]

theorem Params.inRange_contestMargin {p : Params} {v : Nat} : p.inRange .contestMargin v = true ↔ v ≤ 15 := by
  simp [Params.inRange]

/-- An accepted handover timeout does nothing at once: the next deadline reads it. -/
theorem State.configure_handoverTimeout {s : State} {v : Nat} (h : 500 ≤ v ∧ v ≤ 4000 ∧ v % 250 = 0) :
    s.configure .handoverTimeout v =
      ({ s with params := { s.params with handoverTimeout := v } } : State).respond .done [] :=
  State.configure_in_range (Params.inRange_handoverTimeout.mpr h) nofun

/-- An accepted contest margin does nothing at once: the next claim reads it. -/
theorem State.configure_contestMargin {s : State} {v : Nat} (h : v ≤ 15) :
    s.configure .contestMargin v =
      ({ s with params := { s.params with contestMargin := v } } : State).respond .done [] :=
  State.configure_in_range (Params.inRange_contestMargin.mpr h) nofun

/-! ## The claim that reads the contest margin (R102, R142) -/

/-- Of a car that is PRESENT, not fading and not missed, the levels and the margin alone decide the defence (R102). -/
theorem Record.contests_iff {r : Record} (hc : r.contact = .present) (hf : r.fading = false) (hm : r.missCount = 0)
    {margin level : Nat} : r.contests margin level = true ↔ level ≤ r.level + margin := by
  simp [Record.contests, hc, hf, hm]

/-- The last rows of R142: a claim on a record that no earlier row refuses is contested or accepted. -/
theorem State.decideClaim_of_unheld {s : State} {car : Nat} {i : Fin 48} (hl : s.lookup car = some i)
    (hhard : (s.record i).hard = none) (hcontact : (s.record i).contact ≠ .releasing)
    (hhand : (s.record i).handover = none) (hkeep : (s.record i).keep = false) (claimant level : Nat) :
    s.decideClaim claimant car level =
      if (s.record i).contests s.params.contestMargin level then .refused .contested else .accepted i := by
  simp [State.decideClaim, hl, hhard, hcontact, hhand, hkeep]

/-! ## The station reset (R166) -/

/-- A station reset keeps the parameters: the blocks reset do not hold them, and the arbiters and the report leave
them. -/
theorem State.stationReset_params (s : State) : s.stationReset.params = s.params := by
  rw [State.stationReset, State.reportPortCheck_params, State.arbitrate_params, State.arbitrate_params]
  rfl

/-! ## The statement -/

/-- Settles O12: the range decides what CONFIGURE does, the last rows of R142 read the margin, and the parameters
outlive the station reset. -/
theorem handoverParameters : Obligations.HandoverParameters := by
  refine ⟨?_, fun s => rfl, ?_, ?_, rfl, rfl⟩
  · intro s hi lo h
    rw [exec_configure_of_name h (name := .handoverTimeout) rfl, exec_configure_of_name h (name := .contestMargin) rfl,
      wordOf]
    refine ⟨fun hv => ?_, fun hv => ?_, fun hv => ?_, fun hv => ?_⟩
    · rw [State.configure_handoverTimeout hv]
    · rw [State.configure_out_of_range (Bool.eq_false_iff.mpr (mt Params.inRange_handoverTimeout.mp hv))]
    · rw [State.configure_contestMargin hv]
    · rw [State.configure_out_of_range
        (Bool.eq_false_iff.mpr (mt Params.inRange_contestMargin.mp (Nat.not_le.mpr hv)))]
  · intro s claimant i car level hl hhard hcontact hhand hkeep hfading hmiss
    have decided := State.decideClaim_of_unheld hl hhard (by simp [hcontact]) hhand hkeep claimant level
    rw [decided, ← Record.contests_iff hcontact hfading hmiss]
    simp
  · intro s
    rw [State.stationReset_params]
    exact ⟨rfl, rfl⟩

end Sys2Proof.Machine

/-! Proofs about the two masks: SET_MASK (R169), the offers that the attention mask enables (R168) and the events that the
event mask enables (R170). -/

namespace Sys2Proof.Machine

/-! ## SET_MASK (R169) -/

theorem exec_setMask (params : List Byte) (s : State) : exec (.setMask params) s = execSetMask params s :=
  rfl

/-- SET_MASK with its mask number and its two-byte enables passes the tests of R165 and weighs the enables for the mask
that the number names. -/
theorem exec_setMask_taken {s : State} (h : s.takesRequests = true) (mask hi lo : Byte) :
    exec (.setMask [mask, hi, lo]) s = .next (s.setMask mask (wordOf hi lo)) := by
  rw [exec_setMask, execSetMask, hostRequest_taken h]

theorem State.setMask_attention (s : State) {enables : Nat} (h : enables < 2048) :
    s.setMask 0#8 enables =
      ({ s with params := { s.params with attentionMask := BitVec.ofNat 11 enables } } : State).respond .done [] :=
  if_pos h

theorem State.setMask_attention_high (s : State) {enables : Nat} (h : 2048 ≤ enables) :
    s.setMask 0#8 enables = s.refuse .badValue :=
  if_neg (Nat.not_lt.mpr h)

theorem State.setMask_event (s : State) {enables : Nat} (h : enables < 16) :
    s.setMask 1#8 enables =
      ({ s with params := { s.params with eventMask := BitVec.ofNat 4 enables } } : State).respond .done [] :=
  if_pos h

theorem State.setMask_event_high (s : State) {enables : Nat} (h : 16 ≤ enables) :
    s.setMask 1#8 enables = s.refuse .badValue :=
  if_neg (Nat.not_lt.mpr h)

/-- The numbers 0 and 1 alone name a mask (R177). -/
theorem State.setMask_unnamed (s : State) {mask : Byte} (h : 1 < mask.toNat) (enables : Nat) :
    s.setMask mask enables = s.refuse .badValue := by
  unfold State.setMask
  split
  case h_1 h0 => omega
  case h_2 h1 => omega
  case h_3 => rfl

/-! ## The pending events and ATTN (R170) -/

theorem ConditionClass.mem_all (c : ConditionClass) : c ∈ ConditionClass.all := by
  cases c <;> decide

theorem State.attentionPending_iff {s : State} : s.attentionPending = true ↔ s.host.attention ≠ [] := by
  simp [State.attentionPending]

theorem State.inboundPending_iff {s : State} : s.inboundPending = true ↔ s.params.inboundLevel ≤ s.inbound.length := by
  simp [State.inboundPending]

theorem State.conditionPending_iff {s : State} :
    s.conditionPending = true ↔ ∃ c, (s.classFlags c).latched = true ∧ s.params.actionOf c ≠ .ignore := by
  simp [State.conditionPending, ConditionClass.mem_all]

theorem State.attn_iff {s : State} :
    s.attn = true ↔ s.resetHeld = false ∧
      ((s.host.attention ≠ [] ∧ s.params.eventMask.getLsbD 0 = true) ∨
       (s.host.sweepEnded = true ∧ s.params.eventMask.getLsbD 1 = true) ∨
       (s.params.inboundLevel ≤ s.inbound.length ∧ s.params.eventMask.getLsbD 2 = true) ∨
       ((∃ c, (s.classFlags c).latched = true ∧ s.params.actionOf c ≠ .ignore) ∧
         s.params.eventMask.getLsbD 3 = true)) := by
  rw [← State.attentionPending_iff, ← State.inboundPending_iff, ← State.conditionPending_iff]
  simp only [State.attn, Bool.and_eq_true, Bool.or_eq_true, Bool.not_eq_true', or_assoc]

/-- What is pending does not read the event mask, so that ATTN follows a new mask by its enables alone. -/
theorem State.attn_of_eventMask {s : State} (h : s.resetHeld = false) (mask : BitVec 4) :
    ({ s with params := { s.params with eventMask := mask } } : State).attn = true ↔
      ((s.host.attention ≠ [] ∧ mask.getLsbD 0 = true) ∨
       (s.host.sweepEnded = true ∧ mask.getLsbD 1 = true) ∨
       (s.params.inboundLevel ≤ s.inbound.length ∧ mask.getLsbD 2 = true) ∨
       ((∃ c, (s.classFlags c).latched = true ∧ s.params.actionOf c ≠ .ignore) ∧ mask.getLsbD 3 = true)) :=
  State.attn_iff.trans (and_iff_right h)

theorem State.respond_attn (s : State) (status : Status) (results : List Byte) :
    (s.respond status results).attn = s.attn :=
  rfl

/-- Of enables below 256 the low byte alone counts. -/
theorem wordOf_eq_lo {hi lo : Byte} (h : wordOf hi lo < 256) : wordOf hi lo = lo.toNat := by
  unfold wordOf at *
  omega

/-- An enable of the new event mask is the bit of its event's number in the low byte. -/
theorem getLsbD_eventEnables {hi lo : Byte} (h : wordOf hi lo < 16) {k : Nat} (hk : k < 4) :
    (BitVec.ofNat 4 (wordOf hi lo)).getLsbD k = lo.toNat.testBit k := by
  rw [wordOf_eq_lo (h.trans (by decide)), BitVec.getLsbD_ofNat, decide_eq_true hk, Bool.true_and]

/-! ## Offers (R168) -/

theorem State.offerReason_disabled {s : State} {r : Reason} (h : s.params.attentionMask.getLsbD r.bit.val = false)
    (i : Fin 48) : s.offerReason i r = s :=
  if_neg (Bool.eq_false_iff.mp h)

theorem State.offerReason_enabled {s : State} {r : Reason} (h : s.params.attentionMask.getLsbD r.bit.val = true)
    (i : Fin 48) :
    s.offerReason i r = { s with host := { s.host with attention := addReason s.host.attention i r } } :=
  if_pos h

theorem State.onAttention_iff {s : State} {i : Fin 48} :
    s.onAttention i = true ↔ i ∈ s.host.attention.map AttentionEntry.record := by
  simp [State.onAttention]

/-- A reason added puts its record on the list, where it may have stood before. -/
theorem mem_addReason_records (list : List AttentionEntry) (i : Fin 48) (reason : Reason) :
    i ∈ (addReason list i reason).map AttentionEntry.record := by
  rw [addReason_records]
  split
  case isTrue h => simpa using h
  case isFalse => simp

theorem State.onAttention_offerReason {s : State} {r : Reason} (h : s.params.attentionMask.getLsbD r.bit.val = true)
    (i : Fin 48) : (s.offerReason i r).onAttention i = true := by
  rw [State.offerReason_enabled h, State.onAttention_iff]
  exact mem_addReason_records s.host.attention i r

/-! ## The statement -/

/-- Settles O8: the mask number and the range of the enables decide what SET_MASK does, ATTN reads the new event mask in
the state that is answered, offers read the attention mask, and the parameters outlive the station reset. -/
theorem setMaskReplacesAMask : Obligations.SetMaskReplacesAMask := by
  refine ⟨?_, fun s i r => ⟨fun h => State.offerReason_disabled h i, fun h => State.onAttention_offerReason h i⟩,
    rfl, rfl, ?_⟩
  · intro s mask hi lo h
    rw [exec_setMask_taken h, ← wordOf]
    refine ⟨?_, ?_, ?_⟩
    · rintro rfl hv
      rw [State.setMask_attention s hv]
    · rintro rfl hv
      refine ⟨_, rfl, State.setMask_event s hv, ?_⟩
      obtain ⟨hheld, -⟩ := s.takesRequests_iff.mp h
      rw [State.setMask_event s hv, State.respond_attn, State.attn_of_eventMask hheld]
      simp only [getLsbD_eventEnables hv, Nat.reduceLT]
    · rintro (⟨rfl, hv⟩ | ⟨rfl, hv⟩ | hmask)
      · rw [State.setMask_attention_high s hv]
      · rw [State.setMask_event_high s hv]
      · rw [State.setMask_unnamed s hmask]
  · intro s
    rw [State.stationReset_params]
    exact ⟨rfl, rfl⟩

end Sys2Proof.Machine

/-! What a command does, said once. -/

namespace Sys2Proof.Machine

/-- What a command does to the part when its tests pass: the state that its `exec` answers. A list of parameters of a length
that the command does not take stands for nothing. -/
def effect : Instr → State → State
  | .readRecord p, s => s.onIndex p fun i s => s.respond .done (s.recordBytes i)
  | .findCar p, s =>
      match p with
      | [hi, lo] =>
          s.findCar (wordOf hi lo)
      | _ => s
  | .post p, s =>
      match p with
      | index :: urgency :: _ :: body =>
          match recordIndex index with
          | some i => (s.clearSoft i).postTo i urgency body
          | none => s.refuse .badIndex
      | _ => s
  | .retire p, s => s.onIndex p fun i s => (s.clearSoft i).command i .retire
  | .release p, s => s.onIndex p fun i s => (s.clearSoft i).command i .release
  | .retune p, s =>
      match p with
      | [index, code] =>
          s.onIndex [index, code] fun i s => (s.clearSoft i).command i (.retune code)
      | _ => s
  | .summon p, s =>
      match p with
      | [hi, lo] =>
          if isCarId (wordOf hi lo) then s.summonCar (wordOf hi lo) else s.refuse .badValue
      | _ => s
  | .pin p, s => s.onIndex p fun i s => (s.clearSoft i).command i .pin
  | .unpin p, s => s.onIndex p fun i s => (s.clearSoft i).command i .unpin
  | .setKeep p, s => s.onIndex p fun i s => (s.clearSoft i).keepRecord i true
  | .clearKeep p, s => s.onIndex p fun i s => (s.clearSoft i).keepRecord i false
  | .clearFault p, s => s.onIndex p fun i s => (s.clearSoft i).command i .clearFault
  | .sweepStart p, s =>
      match p with
      | [first, last, deadline, close] =>
          if !sweepInRange first.toNat last.toNat deadline.toNat close.toNat then s.refuse .badValue
          else if s.sweepInProgress then s.refuse .busy
          else (s.startSweep first.toNat last.toNat deadline.toNat (close.toNat == 1)).respond .done []
      | _ => s
  | .sweepHalt _, s => s.haltSweep
  | .sweepResume _, s => s.resumeSweep
  | .sweepCancel _, s => s.cancelSweep
  | .readSweep _, s => s.readSweep
  | .readInbound _, s => s.readInbound
  | .flushInbound _, s => ({ s with inbound := [] } : State).respond .done [byteOf s.inbound.length]
  | .nextAttention _, s => s.nextAttention
  | .readStation _, s => s.respond .done s.stationBytes
  | .clearCounts _, s => s.clearCounts.respond .done []
  | .setMask p, s =>
      match p with
      | [mask, hi, lo] =>
          s.setMask mask (wordOf hi lo)
      | _ => s
  | .clearCondition p, s =>
      match p with
      | [cls] =>
          match ConditionClass.ofCode cls.toNat with
          | some c => s.clearLatch c
          | none => s.refuse .badValue
      | _ => s
  | .forceCondition p, s =>
      match p with
      | [cls, on] =>
          match ConditionClass.ofCode cls.toNat, flagOfCode on.toNat with
          | some c, some forced => (s.forceClass c forced).respond .done []
          | _, _ => s.refuse .badValue
      | _ => s
  | .configure p, s =>
      match p with
      | [number, hi, lo] =>
          match ParamName.ofCode number.toNat with
          | some name => s.configure name (wordOf hi lo)
          | none => s.refuse .badValue
      | _ => s
  | .readParam p, s =>
      match p with
      | [number] =>
          match ParamName.ofCode number.toNat with
          | some name => s.respond .done (bytes16 (s.params.value name))
          | none => s.refuse .badValue
      | _ => s
  | .setLanes p, s =>
      match p with
      | [lanes] =>
          ({ s with params := { s.params with urgentLane := bitOf lanes 1, routineLane := bitOf lanes 0 } } : State).respond
            .done []
      | _ => s
  | .openAir _ ready, s => s.openAir ready
  | .closeAir _, s => s.closeAir
  | .stationReset _, s => s.orderReset
  | .flushPort p, s =>
      match p with
      | [port] =>
          match Port.ofCode port.toNat with
          | some p => s.flushPort p
          | none => s.refuse .badValue
      | _ => s
  | .clearPortCheck _, s => (s.setPortCheck 0).respond .done []
  | .identify p, s => if p.isEmpty then s.respond .done identityBytes else s.refuse .badValue
  | .badCheckRequest _, s => (s.setPortCheck (satAdd 3 s.host.portCheck)).refuse .badCheck
  | .badCommandRequest _ _, s => s.refuse .badCommand
  | .resetNAssert, s => { State.reset with resetHeld := true, pending := s.pending }
  | .resetNRelease, s => { s with resetHeld := false }
  | .stationResetTakesEffect, s => s.pendingReset
  | .slotStart ready, s => s.slotStart ready
  | .upFrameReceive bytes level, s => s.receiveUp bytes level.val
  | .rfReadyFall during, s => s.readyFalls during
  | .slotEnd, s => s.slotEnd
  | .sweepDeadline, s => s.sweepDeadline
  | .backboneFrameReceive p bytes, s => s.receiveFrame p bytes
  | .receiveQueueTake p, s => s.takeReceived p
  | .helloTimerExpiry p, s => s.helloDue p
  | .silenceTimeout p, s => s.silenceEnds p
  | .transmitComplete p, s => s.transmitted p
  | .claimExpiry i, s =>
      match (s.record i).handover with
      | some c => if c.role == .claiming then (s.reachDeadline c).expireClaim i c else s
      | none => s
  | .handingExpiry i, s =>
      match (s.record i).handover with
      | some c => if c.role == .handing then (s.reachDeadline c).expireHanding i c else s
      | none => s

/-- The command of a request of the wrong length is of no account. -/
theorem hostRequest_false (f g : State → State) (s : State) : hostRequest false f s = hostRequest false g s := by
  unfold hostRequest
  split <;> rfl

/-- A request but IDENTIFY is its effect behind the tests of R165. -/
theorem exec_request {c : Instr} {code : Nat} {params : List Byte} (h : requestOf c = some (code, params))
    (hc : code ≠ 0x48) (s : State) : exec c s = hostRequest (lengthRight code params) (effect c) s := by
  cases c with
  | identify => simp_all [requestOf]
  | badCheckRequest | badCommandRequest | resetNAssert | resetNRelease | stationResetTakesEffect | slotStart
  | upFrameReceive | rfReadyFall | slotEnd | sweepDeadline | backboneFrameReceive | receiveQueueTake | helloTimerExpiry
  | silenceTimeout | transmitComplete | claimExpiry | handingExpiry => exact absurd h (by simp [requestOf])
  | readRecord | retire | release | pin | unpin | setKeep | clearKeep | clearFault =>
      simp only [requestOf, Option.some.injEq, Prod.mk.injEq] at h
      obtain ⟨rfl, rfl⟩ := h
      rfl
  | sweepHalt p | sweepResume p | sweepCancel p | readSweep p | readInbound p | flushInbound p | nextAttention p
  | readStation p | clearCounts p | openAir p | closeAir p | stationReset p | clearPortCheck p =>
      simp only [requestOf, Option.some.injEq, Prod.mk.injEq] at h
      obtain ⟨rfl, rfl⟩ := h
      cases p <;> rfl
  | clearCondition | readParam | setLanes | flushPort =>
      simp only [requestOf, Option.some.injEq, Prod.mk.injEq] at h
      obtain ⟨rfl, rfl⟩ := h
      rename_i p
      rcases p with _ | ⟨a, _ | ⟨b, rest⟩⟩
      · exact hostRequest_false _ _ s
      · rfl
      · exact hostRequest_false _ _ s
  | findCar | retune | summon | forceCondition =>
      simp only [requestOf, Option.some.injEq, Prod.mk.injEq] at h
      obtain ⟨rfl, rfl⟩ := h
      rename_i p
      rcases p with _ | ⟨a, _ | ⟨b, _ | ⟨d, rest⟩⟩⟩
      · exact hostRequest_false _ _ s
      · exact hostRequest_false _ _ s
      · rfl
      · exact hostRequest_false _ _ s
  | setMask | configure =>
      simp only [requestOf, Option.some.injEq, Prod.mk.injEq] at h
      obtain ⟨rfl, rfl⟩ := h
      rename_i p
      rcases p with _ | ⟨a, _ | ⟨b, _ | ⟨d, _ | ⟨e, rest⟩⟩⟩⟩
      · exact hostRequest_false _ _ s
      · exact hostRequest_false _ _ s
      · exact hostRequest_false _ _ s
      · rfl
      · exact hostRequest_false _ _ s
  | sweepStart =>
      simp only [requestOf, Option.some.injEq, Prod.mk.injEq] at h
      obtain ⟨rfl, rfl⟩ := h
      rename_i p
      rcases p with _ | ⟨a, _ | ⟨b, _ | ⟨d, _ | ⟨e, _ | ⟨f, rest⟩⟩⟩⟩⟩
      · exact hostRequest_false _ _ s
      · exact hostRequest_false _ _ s
      · exact hostRequest_false _ _ s
      · exact hostRequest_false _ _ s
      · rfl
      · exact hostRequest_false _ _ s
  | post =>
      simp only [requestOf, Option.some.injEq, Prod.mk.injEq] at h
      obtain ⟨rfl, rfl⟩ := h
      rename_i p
      rcases p with _ | ⟨a, _ | ⟨b, _ | ⟨n, body⟩⟩⟩
      · exact hostRequest_false _ _ s
      · exact hostRequest_false _ _ s
      · exact hostRequest_false _ _ s
      · rfl

/-- An event, a refused frame and IDENTIFY act unless RESET_N is asserted. -/
theorem exec_event {c : Instr} (h : ∀ code params, requestOf c = some (code, params) → code = 0x48)
    (ha : c ≠ .resetNAssert) (hr : c ≠ .resetNRelease) (s : State) : exec c s = unlessHeld (effect c) s := by
  cases c with
  | resetNAssert => exact absurd rfl ha
  | resetNRelease => exact absurd rfl hr
  | identify | badCheckRequest | badCommandRequest | stationResetTakesEffect | slotStart | upFrameReceive | rfReadyFall
  | slotEnd | sweepDeadline | backboneFrameReceive | receiveQueueTake | helloTimerExpiry | silenceTimeout
  | transmitComplete | claimExpiry | handingExpiry => rfl
  | _ => exact absurd (h _ _ rfl) (by decide)

/-- Every command but the two of RESET_N is its effect behind the tests of R165, or behind RESET_N. -/
theorem exec_cases (c : Instr) (s : State) : c = .resetNAssert ∨ c = .resetNRelease ∨
    (∃ fits, exec c s = hostRequest fits (effect c) s) ∨ exec c s = unlessHeld (effect c) s := by
  by_cases ha : c = .resetNAssert
  · exact .inl ha
  by_cases hr : c = .resetNRelease
  · exact .inr (.inl hr)
  right
  right
  cases h : requestOf c with
  | none => exact .inr (exec_event (by simp [h]) ha hr s)
  | some r =>
      by_cases e : r.1 = 0x48
      · refine .inr (exec_event (fun code params k => ?_) ha hr s)
        rw [h, Option.some.injEq] at k
        rw [← e, k]
      · exact .inl ⟨_, exec_request (code := r.1) (params := r.2) h e s⟩

/-- What a command can answer: the state, a refusal of it, or its effect. -/
def answers (c : Instr) (s : State) (o : Host.Outcome State Fault Refusal) : Prop :=
  ∃ t, o = .next t ∧ (t = s ∨ (∃ status, t = s.refuse status) ∨ t = effect c s)

/-- Every command, in every state, answers the state, a refusal of it, or its effect. -/
theorem exec_answers (c : Instr) (s : State) : answers c s (exec c s) := by
  rcases exec_cases c s with rfl | rfl | ⟨fits, e⟩ | e
  · exact ⟨_, rfl, .inr (.inr rfl)⟩
  · exact ⟨_, rfl, .inr (.inr rfl)⟩
  · rw [e]
    obtain ⟨t, e, rfl | rfl | rfl | rfl⟩ := hostRequest_next fits (effect c) s
    · exact ⟨_, e, .inl rfl⟩
    · exact ⟨_, e, .inr (.inl ⟨_, rfl⟩)⟩
    · exact ⟨_, e, .inr (.inl ⟨_, rfl⟩)⟩
    · exact ⟨_, e, .inr (.inr rfl)⟩
  · rw [e]
    obtain ⟨t, e, rfl | rfl⟩ := unlessHeld_next (effect c) s
    · exact ⟨_, e, .inl rfl⟩
    · exact ⟨_, e, .inr (.inr rfl)⟩

/-- Whatever holds between a state and itself, a refusal of it and a command's effect on it, holds between it and what the
command answers. -/
theorem exec_rel {R : State → State → Prop} {c : Instr} {s t : State} (h : exec c s = .next t) (same : R s s)
    (refused : ∀ status, R s (s.refuse status)) (done : R s (effect c s)) : R s t := by
  obtain ⟨u, e, hu⟩ := exec_answers c s
  rw [h, Host.Outcome.next.injEq] at e
  subst e
  obtain rfl | ⟨status, rfl⟩ | rfl := hu
  · exact same
  · exact refused status
  · exact done

/-- A request of the right length is carried out when the part takes requests (R165). -/
theorem exec_taken {c : Instr} {code : Nat} {params : List Byte} {s : State} (h : requestOf c = some (code, params))
    (hc : code ≠ 0x48) (hl : lengthRight code params = true) (ht : s.takesRequests = true) :
    exec c s = .next (effect c s) := by
  rw [exec_request h hc, hl, hostRequest_taken ht]

/-- An event acts while RESET_N is released (R166). -/
theorem exec_released {c : Instr} {s : State} (h : requestOf c = none) (ha : c ≠ .resetNAssert) (hr : c ≠ .resetNRelease)
    (hs : s.resetHeld = false) : exec c s = .next (effect c s) := by
  rw [exec_event (by simp [h]) ha hr, unlessHeld_released hs]

/-- While RESET_N is asserted no command acts but the two rows of RESET_N itself (R166). -/
theorem exec_held {c : Instr} {s : State} (h : s.resetHeld = true) (ha : c ≠ .resetNAssert) (hr : c ≠ .resetNRelease) :
    exec c s = .next s := by
  rcases exec_cases c s with e | e | ⟨fits, e⟩ | e
  · exact absurd e ha
  · exact absurd e hr
  · rw [e, hostRequest_held h]
  · rw [e, unlessHeld_held h]

end Sys2Proof.Machine

/-! The invariants, and relations between states that keep them. -/

namespace Sys2Proof.Machine

/-! ## What each invariant reads -/

/-- `t` is `r` but for fields that no invariant of the roster reads: the record stays in or out of FREE, and keeps its car ID,
its tag, its messages, its pin, its summons and its mark. -/
structure Record.follows (r t : Record) : Prop where
  free : t.contact = .free ↔ r.contact = .free
  carId : t.carId = r.carId
  tag : t.tag = r.tag
  messages : t.messages = r.messages
  inFlight : ∀ b, t.inFlight = some b → r.inFlight = some b
  pinned : t.pinned = r.pinned
  summoned : t.summoned = r.summoned
  mark : t.mark = r.mark

theorem Record.follows.refl (r : Record) : r.follows r :=
  ⟨Iff.rfl, rfl, rfl, rfl, fun _ h => h, rfl, rfl, rfl⟩

theorem Record.follows.trans {r t u : Record} (h : r.follows t) (k : t.follows u) : r.follows u :=
  ⟨k.free.trans h.free, k.carId.trans h.carId, k.tag.trans h.tag, k.messages.trans h.messages,
    fun b e => h.inFlight b (k.inFlight b e), k.pinned.trans h.pinned, k.summoned.trans h.summoned, k.mark.trans h.mark⟩

theorem Record.follows_of_sent {r t : Record} (h : r.sameButSent t) : r.follows t := by
  rcases h with rfl | ⟨c, -, rfl⟩
  · exact .refl _
  · exact ⟨Iff.rfl, rfl, rfl, rfl, fun _ h => h, rfl, rfl, rfl⟩

theorem State.queuesBounded_of {s t : State} (hi : t.inbound = s.inbound) (hq : t.ports = s.ports)
    (hp : t.params = s.params) (h : s.queuesBounded) : t.queuesBounded := by
  unfold State.queuesBounded at *
  rwa [hi, hq, hp]

theorem State.attentionDistinct_of {s t : State} (h : t.host.attention = s.host.attention) (hs : s.attentionDistinct) :
    t.attentionDistinct := by
  unfold State.attentionDistinct at *
  rwa [h]

theorem State.carIdsUnique_of {s t : State}
    (h : ∀ j, (t.record j).contact ≠ .free → (s.record j).contact ≠ .free ∧ (t.record j).carId = (s.record j).carId)
    (hs : s.carIdsUnique) : t.carIdsUnique := by
  intro i j hi hj e
  obtain ⟨fi, ci⟩ := h i hi
  obtain ⟨fj, cj⟩ := h j hj
  exact hs i j fi fj (by rw [← ci, ← cj, e])

theorem State.tagsUnique_of {s t : State}
    (h : ∀ j, (t.record j).contact ≠ .free → (s.record j).contact ≠ .free ∧ (t.record j).tag = (s.record j).tag)
    (hn : t.roster.tagCounter = s.roster.tagCounter) (hs : s.tagsUnique) : t.tagsUnique := by
  obtain ⟨one, range, low, high, rest⟩ := hs
  unfold State.tagsUnique
  rw [hn]
  refine ⟨fun i j k hi hj ei ej => ?_, fun i k hi ei => ?_, low, high, fun i hi => ?_⟩
  · exact one i j k (h i hi).1 (h j hj).1 ((h i hi).2 ▸ ei) ((h j hj).2 ▸ ej)
  · exact range i k (h i hi).1 ((h i hi).2 ▸ ei)
  · exact (h i hi).2 ▸ rest i (h i hi).1

theorem State.poolConsistent_of {s t : State} (hm : ∀ j, (t.record j).messages = (s.record j).messages)
    (hf : ∀ j b, (t.record j).inFlight = some b → (s.record j).inFlight = some b)
    (hfree : ∀ j, (t.record j).contact = .free → (s.record j).contact = .free ∨ (t.record j).messages = [])
    (hp : t.pool = s.pool) (hl : t.params = s.params) (hs : s.poolConsistent) : t.poolConsistent := by
  obtain ⟨lists, once, flight, free, limit⟩ := hs
  unfold State.poolConsistent
  simp only [hm, hp, hl] at hfree ⊢
  exact ⟨lists, once, fun i b h => flight i b (hf i b h), fun i h => (hfree i h).elim (free i) id, limit⟩

theorem State.countRecords_of {s t : State} {test : Record → Bool} (h : ∀ j, test (t.record j) = test (s.record j)) :
    t.countRecords test = s.countRecords test := by
  unfold State.countRecords
  exact List.countP_congr fun j _ => by rw [h]

theorem State.countsAgree_of {s t : State} (hp : ∀ j, (t.record j).pinned = (s.record j).pinned)
    (hm : ∀ j, (t.record j).summoned = (s.record j).summoned)
    (hfree : ∀ j, (t.record j).contact = .free →
      (s.record j).contact = .free ∨ (s.record j).pinned = false ∧ (s.record j).summoned = false)
    (hpc : t.roster.pinnedCount = s.roster.pinnedCount) (hsc : t.roster.summonCount = s.roster.summonCount)
    (hs : s.countsAgree) : t.countsAgree := by
  obtain ⟨pins, pinsLe, summons, summonsLe, free⟩ := hs
  unfold State.countsAgree
  rw [hpc, hsc, State.countRecords_of hp, State.countRecords_of hm]
  refine ⟨pins, pinsLe, summons, summonsLe, fun i h => ?_⟩
  rw [hp, hm]
  exact (hfree i h).elim (free i) id

theorem State.sweepAgrees_of {s t : State} (hm : ∀ j, (t.record j).mark = (s.record j).mark)
    (hfree : ∀ j, (t.record j).contact = .free → (s.record j).contact = .free ∨ s.sweepAwaits j = false)
    (hw : t.sweep = s.sweep) (hs : s.sweepAgrees) : t.sweepAgrees := by
  obtain ⟨going, complete, result⟩ := hs
  unfold State.sweepAgrees
  rw [hw, State.countRecords_of (s := s) (t := t) (fun j => by rw [hm])]
  refine ⟨fun h => ?_, complete, result⟩
  obtain ⟨sum, some_, marked⟩ := going h
  refine ⟨sum, some_, fun i hi hf => ?_⟩
  rw [hm] at hi
  rcases hfree i hf with h' | h'
  · exact marked i hi h'
  · have hp : s.sweepInProgress = true := by
      unfold State.sweepInProgress
      rcases h with h | h <;> rw [h] <;> rfl
    simp [State.sweepAwaits, hp, hi] at h'

/-! ## Steps within a slot -/

/-- The air but for the grant list and the two counts that are weighed against limits. -/
def State.airFrame (s : State) : Air := { s.air with grants := [], darkCount := 0, garbledRun := 0 }

/-- What waits for the end of a slot, and the commands that wait, with whether RESET_N holds the part. -/
def State.waits (s : State) : Bool × Bool × List Instr := (s.resetPending, s.resetHeld, s.pending)

theorem State.waits_of_calm {s t : State} (h : t.calm = s.calm) : t.waits = s.waits := by
  simp only [State.waits, State.resetPending_of_calm h, State.resetHeld_of_calm h, State.pending_of_calm h]

/-- `t` is `s` after work that leaves the slot, its exchange and the parameters alone, and what waits; work is held for an
exchange only. -/
structure State.within (s t : State) : Prop where
  air : t.airFrame = s.airFrame
  waits : t.waits = s.waits
  params : t.params = s.params
  held : t.roster.held = s.roster.held ∨ s.air.exchange ≠ none

theorem State.within.refl (s : State) : s.within s := ⟨rfl, rfl, rfl, .inl rfl⟩

theorem State.exchange_of_airFrame {s t : State} (h : t.airFrame = s.airFrame) : t.air.exchange = s.air.exchange := by
  have e := congrArg Air.exchange h
  exact e

theorem State.within.trans {s t u : State} (h : s.within t) (k : t.within u) : s.within u where
  air := k.air.trans h.air
  waits := k.waits.trans h.waits
  params := k.params.trans h.params
  held := by
    rcases k.held with e | e
    · rw [e]
      exact h.held
    · exact .inr (State.exchange_of_airFrame h.air ▸ e)

theorem State.within.resetPending {s t : State} (h : s.within t) : t.resetPending = s.resetPending := congrArg Prod.fst h.waits

theorem State.within.pending {s t : State} (h : s.within t) : t.pending = s.pending :=
  congrArg (fun w => w.2.2) h.waits

/-- What `t` keeps of `s` beside the Turn Plan: the invariants of the queues, the attention list, the transmitters, the car
IDs, the tags, the pool and the counts. -/
structure State.keeps (s t : State) : Prop where
  queues : s.queuesBounded → t.queuesBounded
  attention : s.attentionDistinct → t.attentionDistinct
  served : s.transmittersServed → t.transmittersServed
  cars : s.carIdsUnique → t.carIdsUnique
  tags : s.tagsUnique → t.tagsUnique
  pool : s.poolConsistent → t.poolConsistent
  counts : s.countsAgree → t.countsAgree
  sweep : s.sweepAgrees → t.sweepAgrees

theorem State.keeps.refl (s : State) : s.keeps s := ⟨id, id, id, id, id, id, id, id⟩

theorem State.keeps.trans {s t u : State} (h : s.keeps t) (k : t.keeps u) : s.keeps u where
  queues := k.queues ∘ h.queues
  attention := k.attention ∘ h.attention
  served := k.served ∘ h.served
  cars := k.cars ∘ h.cars
  tags := k.tags ∘ h.tags
  pool := k.pool ∘ h.pool
  counts := k.counts ∘ h.counts
  sweep := k.sweep ∘ h.sweep

/-- What the Turn Plan's invariant reads: each record's contact state, turn and pending turn, and the cells. -/
def State.plot (s : State) : (Fin 48 → ContactState × Option Turn × Option Turn) × Cells :=
  (fun i => ((s.record i).contact, (s.record i).turn, (s.record i).retune.map RetuneContext.target), s.cells)

/-- Work within a slot that keeps every invariant, but perhaps that of the Turn Plan. -/
structure State.moves (s t : State) : Prop extends s.within t, s.keeps t

/-- Work within a slot that keeps every invariant, that of the Turn Plan among them. -/
structure State.settles (s t : State) : Prop extends s.moves t where
  plan : s.planConsistent → t.planConsistent

/-- Work within a slot that keeps every invariant and does not touch the Turn Plan. -/
structure State.stays (s t : State) : Prop extends s.moves t where
  plot : t.plot = s.plot

theorem State.moves.refl (s : State) : s.moves s := ⟨.refl s, .refl s⟩

theorem State.moves.trans {s t u : State} (h : s.moves t) (k : t.moves u) : s.moves u :=
  ⟨h.towithin.trans k.towithin, h.tokeeps.trans k.tokeeps⟩

theorem State.stays.refl (s : State) : s.stays s := ⟨.refl s, rfl⟩

theorem State.stays.trans {s t u : State} (h : s.stays t) (k : t.stays u) : s.stays u :=
  ⟨h.tomoves.trans k.tomoves, k.plot.trans h.plot⟩

theorem State.settles.refl (s : State) : s.settles s := ⟨.refl s, id⟩

theorem State.settles.trans {s t u : State} (h : s.settles t) (k : t.settles u) : s.settles u :=
  ⟨h.tomoves.trans k.tomoves, k.plan ∘ h.plan⟩

/-! ## The Turn Plan record by record -/

/-- What the Turn Plan asks of one record, by its contact state, turn and pending turn and the cells that it holds in each
role: what `State.planConsistent` says of a record. -/
def planFits (row : ContactState × Option Turn × Option Turn) (holds : Nat → Nat → CellRole → Prop) : Prop :=
  (row.2.1 ≠ none ↔ row.1 = .granted ∨ row.1 = .present ∨ row.1 = .releasing)
    ∧ (row.2.2 ≠ none → row.1 = .present)
    ∧ (∀ t, row.2.1 = some t → t.inPlan ∧ ∀ f ∈ t.phases, holds t.slot f .turn ∨ holds t.slot f .waiting)
    ∧ (∀ t, row.2.2 = some t → t.inPlan ∧ ∀ f ∈ t.phases, holds t.slot f .pending)
    ∧ (∀ slot phase role, holds slot phase role →
        match role with
        | .turn | .waiting => ∃ t, row.2.1 = some t ∧ t.slot = slot ∧ phase ∈ t.phases
        | .pending => ∃ t, row.2.2 = some t ∧ t.slot = slot ∧ phase ∈ t.phases
        | .lent => row.1 = .present)

/-- Whether a record holds a cell in a role. -/
def State.holds (s : State) (i : Fin 48) (slot phase : Nat) (role : CellRole) : Prop :=
  s.cell slot phase = some { holder := i, role := role }

theorem State.planConsistent_iff (s : State) : s.planConsistent ↔ ∀ i, planFits (s.plot.1 i) (s.holds i) := by
  have target : ∀ i t, (s.record i).retune.map RetuneContext.target = some t ↔ ∃ c, (s.record i).retune = some c ∧ c.target = t :=
    fun i t => Option.map_eq_some_iff
  constructor
  · rintro ⟨turn, retune, cells, pending, held⟩ i
    refine ⟨turn i, fun h => retune i fun e => h (by simp [State.plot, e]), cells i, fun t e => ?_, fun slot phase role h => ?_⟩
    · obtain ⟨c, e1, rfl⟩ := (target i t).mp e
      exact pending i c e1
    · have := held slot phase ⟨i, role⟩ h
      cases role with
      | pending =>
          obtain ⟨c, e1, e2⟩ := this
          exact ⟨c.target, (target i _).mpr ⟨c, e1, rfl⟩, e2⟩
      | _ => exact this
  · intro h
    refine ⟨fun i => (h i).1, fun i e => (h i).2.1 (by simpa [State.plot] using e), fun i => (h i).2.2.1,
      fun i c e => (h i).2.2.2.1 c.target ((target i _).mpr ⟨c, e, rfl⟩), ?_⟩
    intro slot phase ⟨i, role⟩ e
    have := (h i).2.2.2.2 slot phase role e
    cases role with
    | pending =>
        obtain ⟨t, e1, e2⟩ := this
        obtain ⟨c, e3, rfl⟩ := (target i t).mp e1
        exact ⟨c, e3, e2⟩
    | _ => exact this

theorem State.cell_of_plot {s t : State} (h : t.plot = s.plot) (slot phase : Nat) : t.cell slot phase = s.cell slot phase :=
  State.cell_congr (congrArg Prod.snd h) slot phase

theorem State.planConsistent_of_plot {s t : State} (h : t.plot = s.plot) (hs : s.planConsistent) : t.planConsistent := by
  rw [State.planConsistent_iff] at *
  have hh : ∀ i, t.holds i = s.holds i := fun i => by
    funext slot phase role
    unfold State.holds
    rw [State.cell_of_plot h]
  intro i
  rw [h, hh]
  exact hs i

theorem State.stays.settles {s t : State} (h : s.stays t) : s.settles t := ⟨h.tomoves, State.planConsistent_of_plot h.plot⟩

/-! ## Forms of work -/

/-- Work that changes no record in what the roster's invariants read, and none of the stores that they count: what is left to
show is that queues, attention list and transmitters are kept. -/
theorem State.moves_of_follows {s t : State} (hw : s.within t) (hr : ∀ j, (s.record j).follows (t.record j))
    (htag : t.roster.tagCounter = s.roster.tagCounter) (hsummon : t.roster.summonCount = s.roster.summonCount)
    (hpin : t.roster.pinnedCount = s.roster.pinnedCount) (hpool : t.pool = s.pool) (hsweep : t.sweep = s.sweep)
    (hq : s.queuesBounded → t.queuesBounded) (ha : s.attentionDistinct → t.attentionDistinct)
    (hs : s.transmittersServed → t.transmittersServed) : s.moves t where
  towithin := hw
  queues := hq
  attention := ha
  served := hs
  cars := State.carIdsUnique_of fun j h => ⟨fun e => h ((hr j).free.mpr e), (hr j).carId⟩
  tags := State.tagsUnique_of (fun j h => ⟨fun e => h ((hr j).free.mpr e), (hr j).tag⟩) htag
  pool := State.poolConsistent_of (fun j => (hr j).messages) (fun j => (hr j).inFlight)
    (fun j h => .inl ((hr j).free.mp h)) hpool hw.params
  counts := State.countsAgree_of (fun j => (hr j).pinned) (fun j => (hr j).summoned)
    (fun j h => .inl ((hr j).free.mp h)) hpin hsummon
  sweep := State.sweepAgrees_of (fun j => (hr j).mark) (fun j h => .inl ((hr j).free.mp h)) hsweep

/-- The parts that work on the roster, the plan and the flags leaves alone. -/
structure State.sameBeside (s t : State) : Prop where
  inbound : t.inbound = s.inbound
  ports : t.ports = s.ports
  attention : t.host.attention = s.host.attention
  pool : t.pool = s.pool
  sweep : t.sweep = s.sweep
  tagCounter : t.roster.tagCounter = s.roster.tagCounter
  summonCount : t.roster.summonCount = s.roster.summonCount
  pinnedCount : t.roster.pinnedCount = s.roster.pinnedCount

/-- Work on the records alone, in fields that no invariant of the roster reads; contexts may end by it. -/
theorem State.moves_of_records {s t : State} (hw : s.within t) (hb : s.sameBeside t)
    (hr : ∀ j, (s.record j).follows (t.record j)) (hc : s.fewerContexts t) : s.moves t :=
  State.moves_of_follows hw hr hb.tagCounter hb.summonCount hb.pinnedCount hb.pool hb.sweep
    (State.queuesBounded_of hb.inbound hb.ports hw.params) (State.attentionDistinct_of hb.attention)
    fun h => h.of_fewer hb.ports hw.params hc

theorem State.record_of_records {s t : State} (h : t.roster.records = s.roster.records) (j : Fin 48) :
    t.record j = s.record j := by
  simp [State.record, h]

/-- Work that leaves the records alone. -/
theorem State.moves_of_same {s t : State} (hw : s.within t) (hb : s.sameBeside t)
    (hr : t.roster.records = s.roster.records) : s.moves t :=
  State.moves_of_records hw hb (fun j => State.record_of_records hr j ▸ .refl _)
    fun j => .inl (by rw [State.record_of_records hr j])

theorem State.plot_of {s t : State} (hr : t.roster.records = s.roster.records) (hc : t.cells = s.cells) :
    t.plot = s.plot := by
  unfold State.plot
  simp only [State.record_of_records hr, hc]

theorem State.stays_of_same {s t : State} (hw : s.within t) (hb : s.sameBeside t)
    (hr : t.roster.records = s.roster.records) (hc : t.cells = s.cells) : s.stays t :=
  ⟨State.moves_of_same hw hb hr, State.plot_of hr hc⟩

/-- What holds of a record changed, and trivially of every other record, holds of every record. -/
theorem State.forall_modifyRecord {R : Record → Record → Prop} {s : State} {i : Fin 48} {f : Record → Record}
    (same : ∀ r, R r r) (changed : R (s.record i) (f (s.record i))) (j : Fin 48) :
    R (s.record j) ((s.modifyRecord i f).record j) := by
  rw [State.record_modifyRecord_eq]
  split
  case isTrue h => exact h ▸ changed
  case isFalse => exact same _

theorem State.modifyRecord_sameBeside (s : State) (i : Fin 48) (f : Record → Record) :
    s.sameBeside (s.modifyRecord i f) := ⟨rfl, rfl, rfl, rfl, rfl, rfl, rfl, rfl⟩

theorem State.modifyRecord_within (s : State) (i : Fin 48) (f : Record → Record) : s.within (s.modifyRecord i f) :=
  ⟨rfl, rfl, rfl, .inl rfl⟩

/-- A change of a record in fields that no invariant of the roster reads, by which its context may end. -/
theorem State.modifyRecord_moves {s : State} {i : Fin 48} {f : Record → Record} (hf : (s.record i).follows (f (s.record i)))
    (hc : (f (s.record i)).handover = (s.record i).handover ∨ (f (s.record i)).handover = none) :
    s.moves (s.modifyRecord i f) :=
  State.moves_of_records (s.modifyRecord_within i f) (s.modifyRecord_sameBeside i f)
    (State.forall_modifyRecord Record.follows.refl hf)
    (State.forall_modifyRecord (R := fun r t => t.handover = r.handover ∨ t.handover = none) (fun _ => .inl rfl) hc)

theorem State.modifyRecord_plot (s : State) (i : Fin 48) (f : Record → Record) :
    (s.modifyRecord i f).plot =
      (Function.update s.plot.1 i ((f (s.record i)).contact, (f (s.record i)).turn,
        (f (s.record i)).retune.map RetuneContext.target), s.plot.2) := by
  refine Prod.ext (funext fun j => ?_) rfl
  simp only [State.plot, State.record_modifyRecord_eq, Function.update_apply, eq_comm (a := i)]
  split <;> rfl

/-- A change of a record that its contact state, its turn and its pending turn survive leaves the plot alone. -/
theorem State.modifyRecord_plot_self {s : State} {i : Fin 48} {f : Record → Record}
    (hc : (f (s.record i)).contact = (s.record i).contact) (ht : (f (s.record i)).turn = (s.record i).turn)
    (hr : (f (s.record i)).retune.map RetuneContext.target = (s.record i).retune.map RetuneContext.target) :
    (s.modifyRecord i f).plot = s.plot := by
  rw [State.modifyRecord_plot, hc, ht, hr]
  exact Prod.ext (Function.update_eq_self i s.plot.1) rfl

end Sys2Proof.Machine

/-! Flags, counts, ports and frames: work that the invariants survive. -/

namespace Sys2Proof.Machine

/-! ## Flags, counts and fields that no invariant reads -/

/-- What the invariants and the Turn Plan read of one record. -/
def Record.bones (r : Record) : (ContactState × Nat × Option Nat × List (Fin 64) × Option (Fin 64)) ×
    (Bool × Bool × SweepMark × Option Turn × Option Turn) × Option HandoverContext :=
  ((r.contact, r.carId, r.tag, r.messages, r.inFlight),
    (r.pinned, r.summoned, r.mark, r.turn, r.retune.map RetuneContext.target), r.handover)

theorem Record.follows_of_bones {r t : Record} (h : t.bones = r.bones) : r.follows t := by
  simp only [Record.bones, Prod.mk.injEq] at h
  obtain ⟨⟨h1, h2, h3, h4, h5⟩, ⟨h6, h7, h8, -, -⟩, -⟩ := h
  exact ⟨by rw [h1], h2, h3, h4, fun b e => h5 ▸ e, h6, h7, h8⟩

/-- A change of a record in fields that no invariant reads. -/
theorem State.modifyRecord_stays {s : State} {i : Fin 48} {f : Record → Record}
    (h : (f (s.record i)).bones = (s.record i).bones) : s.stays (s.modifyRecord i f) := by
  have hb := h
  simp only [Record.bones, Prod.mk.injEq] at hb
  obtain ⟨⟨hc, -⟩, ⟨-, -, -, ht, hr⟩, hh⟩ := hb
  exact ⟨State.modifyRecord_moves (Record.follows_of_bones h) (.inl hh), State.modifyRecord_plot_self hc ht hr⟩

theorem State.reportCause_stays (s : State) (c : ConditionClass) (cause : Bool) : s.stays (s.reportCause c cause) :=
  State.stays_of_same ⟨rfl, rfl, rfl, .inl rfl⟩ ⟨rfl, rfl, rfl, rfl, rfl, rfl, rfl, rfl⟩ rfl rfl

theorem State.countRefused_stays (s : State) : s.stays s.countRefused :=
  State.stays_of_same ⟨rfl, rfl, rfl, .inl rfl⟩ ⟨rfl, rfl, rfl, rfl, rfl, rfl, rfl, rfl⟩ rfl rfl

theorem State.countHeld_stays (s : State) : s.stays s.countHeld :=
  State.stays_of_same ⟨rfl, rfl, rfl, .inl rfl⟩ ⟨rfl, rfl, rfl, rfl, rfl, rfl, rfl, rfl⟩ rfl rfl

theorem State.countGarbled_stays (s : State) : s.stays s.countGarbled :=
  State.stays_of_same ⟨rfl, rfl, rfl, .inl rfl⟩ ⟨rfl, rfl, rfl, rfl, rfl, rfl, rfl, rfl⟩ rfl rfl

theorem State.setDarkCount_stays (s : State) (n : Nat) : s.stays (s.setDarkCount n) :=
  State.stays_of_same ⟨rfl, rfl, rfl, .inl rfl⟩ ⟨rfl, rfl, rfl, rfl, rfl, rfl, rfl, rfl⟩ rfl rfl

theorem State.setGarbledRun_stays (s : State) (n : Nat) : s.stays (s.setGarbledRun n) :=
  State.stays_of_same ⟨rfl, rfl, rfl, .inl rfl⟩ ⟨rfl, rfl, rfl, rfl, rfl, rfl, rfl, rfl⟩ rfl rfl

theorem State.respond_stays (s : State) (status : Status) (results : List Byte) : s.stays (s.respond status results) :=
  State.stays_of_same ⟨rfl, rfl, rfl, .inl rfl⟩ ⟨rfl, rfl, rfl, rfl, rfl, rfl, rfl, rfl⟩ rfl rfl

theorem State.withdrawGrant_stays (s : State) (i : Fin 48) : s.stays (s.withdrawGrant i) :=
  State.stays_of_same ⟨rfl, rfl, rfl, .inl rfl⟩ ⟨rfl, rfl, rfl, rfl, rfl, rfl, rfl, rfl⟩ rfl rfl

theorem State.placeGrant_stays (s : State) (i : Fin 48) : s.stays (s.placeGrant i) := by
  unfold State.placeGrant
  split
  · exact .refl s
  · exact State.stays_of_same ⟨rfl, rfl, rfl, .inl rfl⟩ ⟨rfl, rfl, rfl, rfl, rfl, rfl, rfl, rfl⟩ rfl rfl

theorem State.passOver_stays (s : State) (i : Fin 48) : s.stays (s.passOver i) :=
  State.stays_of_same ⟨rfl, rfl, rfl, .inl rfl⟩ ⟨rfl, rfl, rfl, rfl, rfl, rfl, rfl, rfl⟩ rfl rfl

theorem State.reportAllocatable_stays (s : State) (i : Fin 48) : s.stays (s.reportAllocatable i) := by
  unfold State.reportAllocatable
  split
  · exact .refl s
  · exact State.reportCause_stays s _ _

theorem State.clearSoft_stays (s : State) (i : Fin 48) : s.stays (s.clearSoft i) := State.modifyRecord_stays rfl

/-! ## The attention list (R168) -/

theorem addReason_distinct {list : List AttentionEntry} (h : (list.map AttentionEntry.record).Nodup) (i : Fin 48)
    (reason : Reason) : ((addReason list i reason).map AttentionEntry.record).Nodup := by
  rw [addReason_records]
  split
  case isTrue => exact h
  case isFalse hi =>
    rw [List.nodup_append_comm]
    refine List.nodup_cons.mpr ⟨fun hm => hi ?_, h⟩
    simpa using hm

theorem State.offerReason_stays (s : State) (i : Fin 48) (reason : Reason) : s.stays (s.offerReason i reason) := by
  unfold State.offerReason
  split
  · exact ⟨State.moves_of_follows ⟨rfl, rfl, rfl, .inl rfl⟩ (fun _ => .refl _) rfl rfl rfl rfl rfl id
      (fun h => addReason_distinct h i reason) id, rfl⟩
  · exact .refl s

theorem State.offerReasonOpt_stays (s : State) (i : Fin 48) (reason : Option Reason) :
    s.stays (s.offerReason? i reason) := by
  cases reason with
  | none => exact .refl s
  | some r => exact s.offerReason_stays i r

theorem State.setSoft_stays (s : State) (i : Fin 48) (fault : SoftFault) : s.stays (s.setSoft i fault) :=
  (State.modifyRecord_stays rfl).trans (State.offerReason_stays _ _ _)

/-! ## Contexts that end -/

theorem State.dropContext_stays (s : State) (i : Fin 48) : s.stays (s.dropContext i) :=
  ⟨State.modifyRecord_moves ⟨Iff.rfl, rfl, rfl, rfl, fun _ h => h, rfl, rfl, rfl⟩ (.inr rfl),
    State.modifyRecord_plot_self rfl rfl rfl⟩

theorem State.dropClaim_stays (s : State) (i : Fin 48) : s.stays (s.dropClaim i) := by
  unfold State.dropClaim
  (repeat' split)
  · exact s.dropContext_stays i
  · exact .refl s
  · exact .refl s

theorem State.lapseClaim_stays (s : State) (i : Fin 48) : s.stays (s.lapseClaim i) :=
  (s.dropContext_stays i).trans (State.setSoft_stays _ _ _)

/-! ## Ports (R124, R132, R133) -/

/-- `t` is `q` after frames left its traffic queue and its HELLO was begun or discarded. -/
structure PortState.drained (q t : PortState) : Prop where
  receive : t.receive = q.receive
  neighbour : t.neighbour = q.neighbour
  traffic : t.traffic.length ≤ q.traffic.length
  helloDue : t.helloDue = true → q.helloDue = true

theorem PortState.drained.refl (q : PortState) : q.drained q := ⟨rfl, rfl, le_rfl, id⟩

theorem PortState.drained.trans {q t u : PortState} (h : q.drained t) (k : t.drained u) : q.drained u :=
  ⟨k.receive.trans h.receive, k.neighbour.trans h.neighbour, k.traffic.trans h.traffic, h.helloDue ∘ k.helloDue⟩

theorem PortState.drained.bounded {q t : PortState} (h : q.drained t) {inUse : Bool} (hq : q.bounded inUse) :
    t.bounded inUse := by
  obtain ⟨receive, traffic, unused⟩ := hq
  refine ⟨h.receive ▸ receive, h.traffic.trans traffic, fun hu => ?_⟩
  obtain ⟨hn, hr, ht, hh⟩ := unused hu
  refine ⟨h.neighbour ▸ hn, h.receive ▸ hr, ?_, ?_⟩
  · have := h.traffic
    rw [ht] at this
    exact List.length_eq_zero_iff.mp (Nat.le_zero.mp this)
  · cases e : t.helloDue with
    | false => rfl
    | true => rw [h.helloDue e] at hh; exact absurd hh (by simp)

theorem State.forall_modifyPort {R : PortState → PortState → Prop} {s : State} {p : Port} {f : PortState → PortState}
    (same : ∀ q, R q q) (changed : R (s.port p) (f (s.port p))) (q : Port) :
    R (s.port q) ((s.modifyPort p f).port q) := by
  by_cases h : p = q
  · subst h
    rw [State.port_modifyPort]
    exact changed
  · rw [State.port_modifyPort_ne _ _ h]
    exact same _

/-- Every port of `t` holds what it held in `s`, or less. -/
def State.portsDrained (s t : State) : Prop := ∀ q, (s.port q).drained (t.port q)

theorem State.portsDrained.trans {s t u : State} (h : s.portsDrained t) (k : t.portsDrained u) : s.portsDrained u :=
  fun q => (h q).trans (k q)

theorem State.portsDrained_of_ports {s t : State} (h : t.ports = s.ports) : s.portsDrained t :=
  fun q => State.port_congr h q ▸ .refl _

theorem State.modifyPort_drained {s : State} {p : Port} {f : PortState → PortState}
    (h : (s.port p).drained (f (s.port p))) : s.portsDrained (s.modifyPort p f) :=
  State.forall_modifyPort PortState.drained.refl h

theorem State.serveTraffic_drained (s : State) (p : Port) : s.portsDrained (s.serveTraffic p) := by
  unfold State.serveTraffic
  split
  case h_1 f rest h => exact State.modifyPort_drained ⟨rfl, rfl, by simp [h], id⟩
  case h_2 => exact State.portsDrained_of_ports rfl

theorem State.serveHandover_drained (s : State) (p : Port) (i : Fin 48) : s.portsDrained (s.serveHandover p i) := by
  unfold State.serveHandover
  split
  case h_1 c hc =>
    have begun : s.portsDrained (s.beginFrame p (s.handoverFrame (s.record i) c)) :=
      State.modifyPort_drained ⟨rfl, rfl, le_rfl, id⟩
    exact begun.trans ((State.portsDrained_of_ports (State.modifyRecord_ports _ _ _)).trans
      (State.modifyPort_drained ⟨rfl, rfl, le_rfl, id⟩))
  case h_2 => exact State.portsDrained_of_ports rfl

theorem State.chooseSource_drained (s : State) (p : Port) : s.portsDrained (s.chooseSource p) := by
  unfold State.chooseSource
  (repeat' split)
  · exact s.serveTraffic_drained p
  · exact s.serveHandover_drained p _
  · exact s.serveHandover_drained p _
  · exact s.serveTraffic_drained p
  · exact s.serveHandover_drained p _

theorem State.arbitrate_drained (s : State) (p : Port) : s.portsDrained (s.arbitrate p) := by
  have hello : s.portsDrained (s.modifyPort p fun q => { q with helloDue := false }) :=
    State.modifyPort_drained ⟨rfl, rfl, le_rfl, by simp⟩
  unfold State.arbitrate
  (repeat' split)
  · exact hello.trans (State.chooseSource_drained _ p)
  · exact hello.trans (State.modifyPort_drained ⟨rfl, rfl, le_rfl, id⟩)
  · exact s.chooseSource_drained p
  · exact State.portsDrained_of_ports rfl

theorem State.queuesBounded_iff (s : State) :
    s.queuesBounded ↔ s.inbound.length ≤ 32 ∧ ∀ p, (s.port p).bounded (s.params.inUse p) := by
  constructor
  · rintro ⟨h1, h2, h3⟩
    exact ⟨h1, fun p => by cases p <;> assumption⟩
  · rintro ⟨h1, h2⟩
    exact ⟨h1, h2 .inbye, h2 .outbye⟩

theorem State.queuesBounded_of_ports {s t : State} (hi : t.inbound = s.inbound) (hp : t.params = s.params)
    (h : ∀ q, (s.port q).bounded (s.params.inUse q) → (t.port q).bounded (s.params.inUse q)) (hs : s.queuesBounded) :
    t.queuesBounded := by
  rw [State.queuesBounded_iff] at *
  rw [hi, hp]
  exact ⟨hs.1, fun q => h q (hs.2 q)⟩

/-- Work on a port that touches nothing else. -/
theorem State.modifyPort_stays {s : State} {p : Port} {f : PortState → PortState}
    (hq : (s.port p).bounded (s.params.inUse p) → (f (s.port p)).bounded (s.params.inUse p))
    (hs : s.transmittersServed → (s.modifyPort p f).transmittersServed) : s.stays (s.modifyPort p f) := by
  refine ⟨State.moves_of_follows ⟨by cases p <;> rfl, by cases p <;> rfl, by cases p <;> rfl, .inl (by cases p <;> rfl)⟩
    (fun j => State.record_congr (State.modifyPort_roster s p f) j ▸ .refl _) (by cases p <;> rfl) (by cases p <;> rfl)
    (by cases p <;> rfl) (by cases p <;> rfl) (by cases p <;> rfl) ?_ (State.attentionDistinct_of (by cases p <;> rfl)) hs,
    State.plot_of (by cases p <;> rfl) (by cases p <;> rfl)⟩
  refine State.queuesBounded_of_ports (by cases p <;> rfl) (State.modifyPort_params s p f) fun q h => ?_
  by_cases e : p = q
  · subst e
    rw [State.port_modifyPort]
    exact hq h
  · rwa [State.port_modifyPort_ne _ _ e]

/-- Served transmitters stay served by a change of a port that leaves what waits there, and its transmitter. -/
theorem State.modifyPort_served {s : State} {p : Port} {f : PortState → PortState}
    (hf : (f (s.port p)).sending = none → (s.port p).sending = none ∧
      ((s.port p).helloDue = false → (f (s.port p)).helloDue = false) ∧
      ((s.port p).traffic = [] → (f (s.port p)).traffic = [])) (h : s.transmittersServed) :
    (s.modifyPort p f).transmittersServed := by
  have hd : ∀ q i, s.dueThrough q i = false → (s.modifyPort p f).dueThrough q i = false := fun q i =>
    State.dueThrough_false_of_fewer (State.modifyPort_params s p f)
      (State.fewerContexts.of_roster (State.modifyPort_roster s p f))
  intro q hu hs
  rw [State.modifyPort_params] at hu
  by_cases e : p = q
  · subst e
    rw [State.port_modifyPort] at hs ⊢
    obtain ⟨h1, h2, h3⟩ := hf hs
    obtain ⟨k1, k2, k3⟩ := h p hu h1
    exact ⟨h2 k1, h3 k2, fun i => hd p i (k3 i)⟩
  · rw [State.port_modifyPort_ne _ _ e] at hs ⊢
    obtain ⟨k1, k2, k3⟩ := h q hu hs
    exact ⟨k1, k2, fun i => hd q i (k3 i)⟩

theorem State.countCheckError_stays (s : State) (p : Port) : s.stays (s.countCheckError p) :=
  State.modifyPort_stays (PortState.drained.bounded ⟨rfl, rfl, le_rfl, id⟩)
    (State.modifyPort_served fun h => ⟨h, id, id⟩)

theorem State.countTrafficFull_stays (s : State) (p : Port) : s.stays (s.countTrafficFull p) :=
  State.modifyPort_stays (PortState.drained.bounded ⟨rfl, rfl, le_rfl, id⟩)
    (State.modifyPort_served fun h => ⟨h, id, id⟩)

/-! ## Frames begun (R133) -/

theorem State.plot_of_sent {s t : State} (hr : s.recordsSent t) (hc : t.cells = s.cells) : t.plot = s.plot := by
  unfold State.plot
  rw [hc]
  refine Prod.ext (funext fun j => ?_) rfl
  show ((t.record j).contact, _, _) = _
  rcases hr j with h | ⟨c, -, h⟩ <;> rw [h]

/-- Work that leaves the calm parts, the air, the tail of the roster, the pool, the sweep and the attention list alone. -/
theorem State.moves_of_quiet {s t : State} (hquiet : t.quiet = s.quiet) (hair : t.air = s.air) (htail : t.tail = s.tail)
    (hpool : t.pool = s.pool) (hsweep : t.sweep = s.sweep) (hhost : t.host = s.host)
    (hr : ∀ j, (s.record j).follows (t.record j)) (hq : s.queuesBounded → t.queuesBounded)
    (hs : s.transmittersServed → t.transmittersServed) : s.moves t := by
  have hcalm := State.calm_of_quiet hquiet
  simp only [State.tail, Prod.mk.injEq] at htail
  obtain ⟨htag, -, hsummon, hpin, hheld, -⟩ := htail
  exact State.moves_of_follows ⟨by unfold State.airFrame; rw [hair], State.waits_of_calm hcalm,
    State.params_of_calm hcalm, .inl hheld⟩ hr htag hsummon hpin hpool hsweep hq
    (State.attentionDistinct_of (by rw [hhost])) hs

theorem State.arbitrate_queues (s : State) (p : Port) (h : s.queuesBounded) : (s.arbitrate p).queuesBounded :=
  State.queuesBounded_of_ports (State.inbound_of_quiet (State.arbitrate_quiet s p)) (State.arbitrate_params s p)
    (fun q => (s.arbitrate_drained p q).bounded) h

theorem State.arbitrate_stays (s : State) (p : Port) : s.stays (s.arbitrate p) :=
  ⟨State.moves_of_quiet (by simp) (by simp) (by simp) (by simp) (by simp) (by simp)
    (fun j => Record.follows_of_sent (s.arbitrate_recordsSent p j)) (s.arbitrate_queues p)
    fun h => State.arbitrate_served fun q _ => h q, State.plot_of_sent (s.arbitrate_recordsSent p) (by simp)⟩

theorem State.arbitrateToward_stays (s : State) (peer : Nat) : s.stays (s.arbitrateToward peer) := by
  unfold State.arbitrateToward
  split
  · exact s.arbitrate_stays _
  · exact .refl s

theorem State.offerTraffic_queues (s : State) (p : Port) (f : BackboneFrame) (h : s.queuesBounded) :
    (s.offerTraffic p f).queuesBounded := by
  unfold State.offerTraffic
  split
  case isTrue hroom =>
    rw [Bool.and_eq_true, decide_eq_true_eq] at hroom
    obtain ⟨hu, hl⟩ := hroom
    refine State.arbitrate_queues _ p (State.queuesBounded_of_ports (by cases p <;> rfl)
      (State.modifyPort_params s p _) (fun q hq => ?_) h)
    by_cases e : p = q
    · subst e
      rw [State.port_modifyPort, hu] at *
      obtain ⟨h1, h2, -⟩ := hq
      refine ⟨h1, ?_, by simp⟩
      have : Config.trafficDepth = 6 := rfl
      simp only [List.length_append, List.length_singleton]
      omega
    · rwa [State.port_modifyPort_ne _ _ e]
  case isFalse => exact (s.countTrafficFull_stays p).queues h

theorem State.offerTraffic_stays (s : State) (p : Port) (f : BackboneFrame) : s.stays (s.offerTraffic p f) :=
  ⟨State.moves_of_quiet (by simp) (by simp) (by simp) (by simp) (by simp) (by simp)
    (fun j => Record.follows_of_sent (s.offerTraffic_recordsSent p f j)) (s.offerTraffic_queues p f)
    fun h => State.offerTraffic_keepsServed h p f, State.plot_of_sent (s.offerTraffic_recordsSent p f) (by simp)⟩

theorem State.sendToward_stays (s : State) (dest : Nat) (payload : Payload) : s.stays (s.sendToward dest payload) := by
  unfold State.sendToward
  split
  · exact s.offerTraffic_stays _ _
  · exact .refl s

theorem State.noteFor_stays (s : State) (car : Nat) (source : Source) (receipt : Bool) (outcome : NoteOutcome) :
    s.stays (s.noteFor car source receipt outcome) := by
  unfold State.noteFor
  (repeat' split)
  · exact .refl s
  · exact s.offerTraffic_stays _ _
  · exact .refl s

/-- Every transmitter is served once the arbiter of the port toward a peer has looked for a frame, where only frames toward
that peer had become due. -/
theorem State.arbitrateToward_served {s : State} {peer : Nat}
    (h : ∀ p, portToward s.params.station peer ≠ some p → s.servedAt p) : (s.arbitrateToward peer).transmittersServed := by
  unfold State.arbitrateToward
  split
  case h_1 p hp => exact State.arbitrate_served fun q hq => h q (by rw [hp]; simpa [eq_comm] using hq)
  case h_2 hp => exact fun p => h p (by rw [hp]; simp)

/-- A context given to a record, and the arbiter of the port toward its peer called (R133, R138). -/
theorem State.giveContext_stays (s : State) (i : Fin 48) (c : HandoverContext) :
    s.stays ((s.modifyRecord i fun r => { r with handover := some c }).arbitrateToward c.peer) := by
  obtain ⟨t, ht⟩ : ∃ t, t = s.modifyRecord i fun r => { r with handover := some c } := ⟨_, rfl⟩
  have hplot : t.plot = s.plot := ht ▸ State.modifyRecord_plot_self rfl rfl rfl
  have hrec : ∀ j, (s.record j).follows (t.record j) := ht ▸ State.forall_modifyRecord Record.follows.refl
    ⟨Iff.rfl, rfl, rfl, rfl, fun _ h => h, rfl, rfl, rfl⟩
  have step := t.arbitrateToward_stays c.peer
  have hserved : s.transmittersServed → (t.arbitrateToward c.peer).transmittersServed := by
    intro h
    refine State.arbitrateToward_served fun p hp hu hs => ?_
    subst ht
    obtain ⟨h1, h2, h3⟩ := h p hu hs
    refine ⟨h1, h2, fun j => ?_⟩
    have hp' : ¬ portToward s.params.station c.peer = some p := hp
    by_cases e : i = j
    · subst e
      simp [State.dueThrough, hp']
    · have h3' := h3 j
      unfold State.dueThrough at h3' ⊢
      rwa [State.record_modifyRecord_ne _ _ e]
  rw [← ht]
  refine ⟨State.moves_of_quiet (by simp [ht]) (by simp [ht]) (by simp [ht]) (by simp [ht]) (by simp [ht]) (by simp [ht])
    (fun j => (hrec j).trans (Record.follows_of_sent (t.arbitrateToward_recordsSent c.peer j)))
    (fun h => step.queues ?_) hserved, step.plot.trans hplot⟩
  subst ht
  exact State.queuesBounded_of rfl rfl rfl h

end Sys2Proof.Machine

/-! Pins, summonses, sweep marks and tags. -/

namespace Sys2Proof.Machine

/-! ## Counting records -/

theorem State.countRecords_eq_sum (s : State) (test : Record → Bool) :
    s.countRecords test = ∑ j, if test (s.record j) then 1 else 0 := by
  have h : ∀ l : List (Fin 48), (l.countP fun j => test (s.record j)) = (l.map fun j => if test (s.record j) then 1 else 0).sum := by
    intro l
    induction l with
    | nil => rfl
    | cons j l ih =>
        rw [List.countP_cons, List.map_cons, List.sum_cons, ih]
        omega
  unfold State.countRecords allRecords
  rw [h, Fin.sum_univ_def]

/-- The records that meet a test after one record changed: one more, one less, or as many. -/
theorem State.countRecords_change {s t : State} {i : Fin 48} (h : ∀ j, j ≠ i → t.record j = s.record j)
    (test : Record → Bool) :
    t.countRecords test + (if test (s.record i) then 1 else 0) =
      s.countRecords test + (if test (t.record i) then 1 else 0) := by
  rw [State.countRecords_eq_sum, State.countRecords_eq_sum, ← Finset.add_sum_erase _ _ (Finset.mem_univ i),
    ← Finset.add_sum_erase _ (fun j => if test (s.record j) then 1 else 0) (Finset.mem_univ i)]
  have rest : ∑ j ∈ Finset.univ.erase i, (if test (t.record j) then 1 else 0) =
      ∑ j ∈ Finset.univ.erase i, if test (s.record j) then 1 else 0 :=
    Finset.sum_congr rfl fun j hj => by rw [h j (Finset.ne_of_mem_erase hj)]
  rw [rest]
  omega

theorem State.countRecords_pos {s : State} {i : Fin 48} {test : Record → Bool} (h : test (s.record i) = true) :
    0 < s.countRecords test :=
  List.countP_pos_iff.mpr ⟨i, List.mem_finRange i, h⟩

/-! ## Pins and summons (R23, R88) -/

/-- A record with its pin and its summons set, and the two counts with it. -/
def State.recount (s : State) (i : Fin 48) (pinned summoned : Bool) (pinnedCount summonCount : Nat) : State :=
  { s with roster := { s.roster with pinnedCount := pinnedCount, summonCount := summonCount } }.modifyRecord i
    fun r => { r with pinned := pinned, summoned := summoned }

theorem State.recount_record_self (s : State) (i : Fin 48) (pinned summoned : Bool) (pc sc : Nat) :
    (s.recount i pinned summoned pc sc).record i = { s.record i with pinned := pinned, summoned := summoned } :=
  State.record_modifyRecord _ _ _

theorem State.recount_record_ne (s : State) {i j : Fin 48} (h : j ≠ i) (pinned summoned : Bool) (pc sc : Nat) :
    (s.recount i pinned summoned pc sc).record j = s.record j :=
  State.record_modifyRecord_ne _ _ h.symm

theorem State.recount_field {α : Type} (g : Record → α) (hg : ∀ r p m, g { r with pinned := p, summoned := m } = g r)
    (s : State) (i : Fin 48) (pinned summoned : Bool) (pc sc : Nat) (j : Fin 48) :
    g ((s.recount i pinned summoned pc sc).record j) = g (s.record j) := by
  by_cases e : j = i
  · subst e
    rw [State.recount_record_self, hg]
  · rw [State.recount_record_ne s e]

/-- Counts that move with the pin and the summons of a record that may hold them agree with the records still. -/
theorem State.recount_agrees {s : State} {i : Fin 48} {pinned summoned : Bool} {pc sc : Nat}
    (hp : pc + (s.record i).pinned.toNat = s.roster.pinnedCount + pinned.toNat) (hpc : pc ≤ 8)
    (hm : sc + (s.record i).summoned.toNat = s.roster.summonCount + summoned.toNat) (hsc : sc ≤ 8)
    (hfree : (s.record i).contact = .free → pinned = false ∧ summoned = false) (h : s.countsAgree) :
    (s.recount i pinned summoned pc sc).countsAgree := by
  obtain ⟨pins, -, summons, -, free⟩ := h
  have ho : ∀ j, j ≠ i → (s.recount i pinned summoned pc sc).record j = s.record j := fun j e =>
    s.recount_record_ne e pinned summoned pc sc
  have hpins := State.countRecords_change ho Record.pinned
  have hsummons := State.countRecords_change ho Record.summoned
  simp only [State.recount_record_self] at hpins hsummons
  have bit : ∀ b : Bool, b.toNat = if b then 1 else 0 := fun b => by cases b <;> rfl
  rw [bit, bit] at hp hm
  refine ⟨?_, hpc, ?_, hsc, fun j hj => ?_⟩
  · show pc = _
    omega
  · show sc = _
    omega
  · by_cases e : j = i
    · subst e
      rw [State.recount_record_self] at hj ⊢
      exact hfree hj
    · rw [ho j e] at hj ⊢
      exact free j hj

theorem State.recount_stays {s : State} {i : Fin 48} {pinned summoned : Bool} {pc sc : Nat}
    (h : s.countsAgree → (s.recount i pinned summoned pc sc).countsAgree) :
    s.stays (s.recount i pinned summoned pc sc) := by
  have field : ∀ {α : Type} (g : Record → α), (∀ r p m, g { r with pinned := p, summoned := m } = g r) →
      ∀ j, g ((s.recount i pinned summoned pc sc).record j) = g (s.record j) :=
    fun g hg => State.recount_field g hg s i pinned summoned pc sc
  have hcontact := field Record.contact fun _ _ _ => rfl
  have hturn := field Record.turn fun _ _ _ => rfl
  have hretune := field Record.retune fun _ _ _ => rfl
  refine ⟨⟨⟨rfl, rfl, rfl, .inl rfl⟩, ?_⟩, Prod.ext (funext fun j => ?_) rfl⟩
  · exact
      { queues := State.queuesBounded_of rfl rfl rfl
        attention := id
        served := fun h => h.of_fewer rfl rfl fun j => .inl (field Record.handover (fun _ _ _ => rfl) j)
        cars := State.carIdsUnique_of fun j h => ⟨hcontact j ▸ h, field Record.carId (fun _ _ _ => rfl) j⟩
        tags := State.tagsUnique_of (fun j h => ⟨hcontact j ▸ h, field Record.tag (fun _ _ _ => rfl) j⟩) rfl
        pool := State.poolConsistent_of (field Record.messages fun _ _ _ => rfl)
          (fun j b h => field Record.inFlight (fun _ _ _ => rfl) j ▸ h) (fun j h => .inl (hcontact j ▸ h)) rfl rfl
        counts := h
        sweep := State.sweepAgrees_of (field Record.mark fun _ _ _ => rfl) (fun j h => .inl (hcontact j ▸ h)) rfl }
  · simp only [State.plot, hcontact, hturn, hretune]

theorem State.dropPin_stays (s : State) (i : Fin 48) : s.stays (s.dropPin i) := by
  unfold State.dropPin
  split
  case isFalse => exact .refl s
  case isTrue hp =>
    refine State.recount_stays (s := s) (i := i) (pinned := false) (summoned := (s.record i).summoned)
      (pc := s.roster.pinnedCount - 1) (sc := s.roster.summonCount) fun h => ?_
    obtain ⟨pins, pinsLe, -, summonsLe, free⟩ := id h
    have one := State.countRecords_pos (test := Record.pinned) hp
    refine State.recount_agrees ?_ (by omega) rfl summonsLe (fun e => ⟨rfl, (free i e).2⟩) h
    rw [hp]
    simp only [Bool.toNat_true, Bool.toNat_false]
    omega

theorem State.pinRecord_stays {s : State} {i : Fin 48} (hf : (s.record i).contact ≠ .free)
    (hl : (s.record i).pinned = false → s.roster.pinnedCount < 8) : s.stays (s.pinRecord i) := by
  unfold State.pinRecord
  split
  case isTrue => exact .refl s
  case isFalse hp =>
    have hp' : (s.record i).pinned = false := by simpa using hp
    refine State.recount_stays (s := s) (i := i) (pinned := true) (summoned := (s.record i).summoned)
      (pc := s.roster.pinnedCount + 1) (sc := s.roster.summonCount) fun h => ?_
    exact State.recount_agrees (by rw [hp']; rfl) (hl hp') rfl h.2.2.2.1 (fun e => absurd e hf) h

theorem State.endSummon_stays (s : State) (i : Fin 48) (outcome : SummonOutcome) : s.stays (s.endSummon i outcome) := by
  unfold State.endSummon
  split
  case isFalse => exact .refl s
  case isTrue hm =>
    refine State.stays.trans (State.recount_stays (s := s) (i := i) (pinned := (s.record i).pinned) (summoned := false)
      (pc := s.roster.pinnedCount) (sc := s.roster.summonCount - 1) fun h => ?_) (State.offerReason_stays _ _ _)
    obtain ⟨-, pinsLe, summons, summonsLe, free⟩ := id h
    have one := State.countRecords_pos (test := Record.summoned) hm
    refine State.recount_agrees rfl pinsLe ?_ (by omega) (fun e => ⟨(free i e).1, rfl⟩) h
    rw [hm]
    simp only [Bool.toNat_true, Bool.toNat_false]
    omega

theorem State.attachSummon_stays {s : State} {i : Fin 48} (hf : (s.record i).contact ≠ .free)
    (hm : (s.record i).summoned = false) (hl : s.roster.summonCount < 8) : s.stays (s.attachSummon i) :=
  State.recount_stays (s := s) (i := i) (pinned := (s.record i).pinned) (summoned := true)
    (pc := s.roster.pinnedCount) (sc := s.roster.summonCount + 1) fun h =>
    State.recount_agrees rfl h.2.1 (by rw [hm]; rfl) hl (fun e => absurd e hf) h

/-! ## The sweep (R156 to R162) -/

/-- The counts of the sweep agree with the marks but that no record MARKED may be left: what `State.sweepAgrees` says before
the sweep's end is judged. -/
def State.sweepSums (s : State) : Prop :=
  (s.sweep.state = .running ∨ s.sweep.state = .halted →
      s.sweep.marked = s.sweep.answered + s.sweep.left + s.countRecords (fun r => r.mark == .marked)
        ∧ ∀ i, (s.record i).mark = .marked → (s.record i).contact ≠ .free)
    ∧ (s.sweep.state = .complete ↔ s.sweep.result ≠ none)
    ∧ ∀ r, s.sweep.result = some r →
        r.marked = r.answered + r.left + r.unanswered.length ∧ (r.outcome = .allAccounted → r.unanswered = [])

theorem State.sweepInProgress_iff (s : State) :
    s.sweepInProgress = true ↔ s.sweep.state = .running ∨ s.sweep.state = .halted := by
  simp [State.sweepInProgress]

theorem State.length_markedList (s : State) : s.markedList.length = s.countRecords fun r => r.mark == .marked := by
  unfold State.markedList State.countRecords
  rw [List.length_map, List.countP_eq_length_filter]

theorem State.sweepAgrees.sums {s : State} (h : s.sweepAgrees) : s.sweepSums :=
  ⟨fun hp => ⟨(h.1 hp).1, (h.1 hp).2.2⟩, h.2⟩

/-- A sweep in progress that ends makes up a result that agrees. -/
theorem State.endSweep_agrees {s : State} {outcome : SweepOutcome} (h : s.sweepSums) (hp : s.sweepInProgress = true)
    (ho : outcome = .allAccounted → s.markedList = []) : (s.endSweep outcome).sweepAgrees := by
  obtain ⟨sum, -⟩ := h.1 (s.sweepInProgress_iff.mp hp)
  refine ⟨fun hgo => ?_, ?_, fun r hr => ?_⟩
  · rcases hgo with e | e <;> exact absurd e (by simp [State.endSweep])
  · simp [State.endSweep]
  · simp only [State.endSweep, Option.some.injEq] at hr
    subst hr
    exact ⟨by rw [State.length_markedList]; exact sum, ho⟩

/-- Once its end is judged the sweep agrees with the marks (R162). -/
theorem State.endIfAccounted_agrees {s : State} (h : s.sweepSums) : s.endIfAccounted.sweepAgrees := by
  unfold State.endIfAccounted
  split
  case isTrue hc =>
    simp only [Bool.and_eq_true, List.isEmpty_iff] at hc
    exact State.endSweep_agrees h hc.1 fun _ => hc.2
  case isFalse hc =>
    refine ⟨fun hp => ?_, h.2⟩
    obtain ⟨sum, marked⟩ := h.1 hp
    refine ⟨sum, ?_, marked⟩
    intro e
    rw [← State.length_markedList, List.length_eq_zero_iff] at e
    exact hc (by rw [s.sweepInProgress_iff.mpr hp, e]; rfl)

/-- A record whose mark changes with the sweep's counts, after which the sweep's end is judged. -/
def State.remark (s : State) (i : Fin 48) (mark : SweepMark) (sweep : Sweep) : State :=
  (({ s with sweep := sweep } : State).modifyRecord i fun r => { r with mark := mark }).endIfAccounted

theorem State.endIfAccounted_host (s : State) : s.endIfAccounted.host.attention = s.host.attention := by
  unfold State.endIfAccounted State.endSweep
  split <;> rfl

theorem State.remark_stays {s : State} {i : Fin 48} {mark : SweepMark} {sweep : Sweep}
    (h : s.sweepAgrees → (({ s with sweep := sweep } : State).modifyRecord i fun r => { r with mark := mark }).sweepSums) :
    s.stays (s.remark i mark sweep) := by
  obtain ⟨u, hu⟩ : ∃ u, u = ({ s with sweep := sweep } : State).modifyRecord i fun r => { r with mark := mark } := ⟨_, rfl⟩
  have field : ∀ {α : Type} (g : Record → α), (∀ r m, g { r with mark := m } = g r) →
      ∀ j, g (u.endIfAccounted.record j) = g (s.record j) := by
    intro α g hg j
    rw [State.record_congr (State.endIfAccounted_roster u), hu, State.record_modifyRecord_eq]
    split
    case isTrue e => subst e; exact hg _ _
    case isFalse => rfl
  have hcontact := field Record.contact fun _ _ => rfl
  have hturn := field Record.turn fun _ _ => rfl
  have hretune := field Record.retune fun _ _ => rfl
  have hroster : u.endIfAccounted.roster = u.roster := State.endIfAccounted_roster u
  have hquiet : u.endIfAccounted.quiet = s.quiet := (State.endIfAccounted_quiet u).trans (hu ▸ rfl)
  have hcalm := State.calm_of_quiet hquiet
  have hparams := State.params_of_calm hcalm
  have hports : u.endIfAccounted.ports = s.ports := (State.endIfAccounted_ports u).trans (hu ▸ rfl)
  have hpool : u.endIfAccounted.pool = s.pool := (State.endIfAccounted_pool u).trans (hu ▸ rfl)
  unfold State.remark
  rw [← hu] at h ⊢
  refine ⟨⟨⟨?_, State.waits_of_calm hcalm, hparams, .inl ?_⟩, ?_⟩, ?_⟩
  · unfold State.airFrame
    rw [State.endIfAccounted_air, hu]
    rfl
  · rw [hroster, hu]
    rfl
  · exact
      { queues := State.queuesBounded_of (State.inbound_of_quiet hquiet) hports hparams
        attention := State.attentionDistinct_of ((State.endIfAccounted_host u).trans (hu ▸ rfl))
        served := fun k => k.of_fewer hports hparams fun j => .inl (field Record.handover (fun _ _ => rfl) j)
        cars := State.carIdsUnique_of fun j k => ⟨hcontact j ▸ k, field Record.carId (fun _ _ => rfl) j⟩
        tags := State.tagsUnique_of (fun j k => ⟨hcontact j ▸ k, field Record.tag (fun _ _ => rfl) j⟩)
          (by rw [hroster, hu]; rfl)
        pool := State.poolConsistent_of (field Record.messages fun _ _ => rfl)
          (fun j b k => field Record.inFlight (fun _ _ => rfl) j ▸ k) (fun j k => .inl (hcontact j ▸ k)) hpool hparams
        counts := State.countsAgree_of (field Record.pinned fun _ _ => rfl) (field Record.summoned fun _ _ => rfl)
          (fun j k => .inl (hcontact j ▸ k)) (by rw [hroster, hu]; rfl) (by rw [hroster, hu]; rfl)
        sweep := fun k => State.endIfAccounted_agrees (h k) }
  · refine Prod.ext (funext fun j => ?_) ((State.endIfAccounted_cells u).trans (hu ▸ rfl))
    simp only [State.plot, hcontact, hturn, hretune]

/-- A record MARKED that is taken off the marked ones while one of the two sums of the sweep grows. -/
theorem State.sweepSums_unmark {s : State} {i : Fin 48} {mark : SweepMark} {sweep : Sweep} (h : s.sweepAgrees)
    (hi : (s.record i).mark = .marked) (hm : mark ≠ .marked) (hstate : sweep.state = s.sweep.state)
    (hmarked : sweep.marked = s.sweep.marked) (hsum : sweep.answered + sweep.left = s.sweep.answered + s.sweep.left + 1)
    (hresult : sweep.result = s.sweep.result) :
    (({ s with sweep := sweep } : State).modifyRecord i fun r => { r with mark := mark }).sweepSums := by
  obtain ⟨u, hu⟩ : ∃ u, u = ({ s with sweep := sweep } : State).modifyRecord i fun r => { r with mark := mark } := ⟨_, rfl⟩
  have ho : ∀ j, j ≠ i → u.record j = s.record j := fun j e => hu ▸ State.record_modifyRecord_ne _ _ (Ne.symm e)
  have hri : u.record i = { s.record i with mark := mark } := hu ▸ State.record_modifyRecord _ _ _
  have hsweep : u.sweep = sweep := hu ▸ rfl
  rw [← hu]
  unfold State.sweepSums
  rw [hsweep, hstate, hresult, hmarked, hsum]
  refine ⟨fun hp => ?_, h.2⟩
  obtain ⟨sum, -, marked⟩ := h.1 hp
  have count := State.countRecords_change ho fun r => r.mark == .marked
  rw [hri] at count
  simp only [hi, beq_self_eq_true, if_true, beq_iff_eq, hm, if_false] at count
  refine ⟨by omega, fun j hj => ?_⟩
  by_cases e : j = i
  · subst e
    rw [hri] at hj
    exact absurd hj hm
  · rw [ho j e] at hj ⊢
    exact marked j hj

theorem State.markLeft_stays (s : State) (i : Fin 48) : s.stays (s.markLeft i) := by
  unfold State.markLeft
  split
  case isFalse => exact .refl s
  case isTrue hc =>
    simp only [Bool.and_eq_true, beq_iff_eq] at hc
    refine State.remark_stays (sweep := { s.sweep with left := s.sweep.left + 1 }) fun h => ?_
    exact State.sweepSums_unmark h hc.2 (by simp) rfl rfl (by simp only; omega) rfl

theorem State.creditSweep_stays (s : State) (i : Fin 48) : s.stays (s.creditSweep i) := by
  unfold State.creditSweep
  split
  case isFalse => exact .refl s
  case isTrue hc =>
    simp only [Bool.and_eq_true, beq_iff_eq] at hc
    refine State.remark_stays (sweep := { s.sweep with answered := s.sweep.answered + 1 }) fun h => ?_
    exact State.sweepSums_unmark h hc.2 (by simp) rfl rfl (by simp only; omega) rfl

/-- A change of the sweep's fields that no invariant reads. -/
theorem State.stays_of_sweep {s : State} {w : Sweep} (h : s.sweepAgrees → ({ s with sweep := w } : State).sweepAgrees) :
    s.stays { s with sweep := w } :=
  ⟨⟨⟨rfl, rfl, rfl, .inl rfl⟩, ⟨id, id, id, id, id, id, id, h⟩⟩, rfl⟩

theorem State.countEntered_stays (s : State) : s.stays s.countEntered := by
  unfold State.countEntered
  split
  · exact State.stays_of_sweep id
  · exact .refl s

/-! ## Tags (R28) -/

theorem State.giveTag_stays (s : State) (i : Fin 48) : s.stays (s.giveTag i) := by
  obtain ⟨u, hu⟩ : ∃ u, u = s.modifyRecord i fun r => { r with tag := some s.roster.tagCounter } := ⟨_, rfl⟩
  have hrec : ∀ j, (s.giveTag i).record j = u.record j := fun j => hu ▸ rfl
  have field : ∀ {α : Type} (g : Record → α), (∀ r t, g { r with tag := t } = g r) →
      ∀ j, g ((s.giveTag i).record j) = g (s.record j) := by
    intro α g hg j
    rw [hrec, hu, State.record_modifyRecord_eq]
    split
    case isTrue e => subst e; exact hg _ _
    case isFalse => rfl
  have hcontact := field Record.contact fun _ _ => rfl
  have hturn := field Record.turn fun _ _ => rfl
  have hretune := field Record.retune fun _ _ => rfl
  refine ⟨⟨⟨rfl, rfl, rfl, .inl rfl⟩, ?_⟩, Prod.ext (funext fun j => ?_) rfl⟩
  · refine
      { queues := State.queuesBounded_of rfl rfl rfl
        attention := id
        served := fun k => k.of_fewer rfl rfl fun j => .inl (field Record.handover (fun _ _ => rfl) j)
        cars := State.carIdsUnique_of fun j k => ⟨hcontact j ▸ k, field Record.carId (fun _ _ => rfl) j⟩
        tags := fun k => ?_
        pool := State.poolConsistent_of (field Record.messages fun _ _ => rfl)
          (fun j b k => field Record.inFlight (fun _ _ => rfl) j ▸ k) (fun j k => .inl (hcontact j ▸ k)) rfl rfl
        counts := State.countsAgree_of (field Record.pinned fun _ _ => rfl) (field Record.summoned fun _ _ => rfl)
          (fun j k => .inl (hcontact j ▸ k)) rfl rfl
        sweep := State.sweepAgrees_of (field Record.mark fun _ _ => rfl) (fun j k => .inl (hcontact j ▸ k)) rfl }
    obtain ⟨one, range, low, high, rest⟩ := k
    obtain ⟨hi, ho, low', high', rest'⟩ := s.giveTag_spec i low high
    have new : ∀ j t, (s.record j).contact ≠ .free → ((s.giveTag i).record j).tag = some t →
        (j = i ∧ t = s.roster.tagCounter) ∨ (j ≠ i ∧ (s.record j).tag = some t ∧ t ≠ s.roster.tagCounter) := by
      intro j t hj ht
      by_cases e : j = i
      · subst e
        rw [hi] at ht
        exact .inl ⟨rfl, (Option.some.inj ht).symm⟩
      · rw [ho j e] at ht
        exact .inr ⟨e, ht, fun h => rest j hj (h ▸ ht)⟩
    refine ⟨fun j k t hj hk ej ek => ?_, fun j t hj ej => ?_, low', high', rest'⟩
    · rw [hcontact] at hj hk
      rcases new j t hj ej with ⟨e1, e2⟩ | ⟨-, e2, e3⟩ <;> rcases new k t hk ek with ⟨f1, f2⟩ | ⟨-, f2, f3⟩
      · rw [e1, f1]
      · exact absurd e2 f3
      · exact absurd f2 e3
      · exact one j k t hj hk e2 f2
    · rw [hcontact] at hj
      rcases new j t hj ej with ⟨-, e2⟩ | ⟨-, e2, -⟩
      · omega
      · exact range j t hj e2
  · simp only [State.plot, hcontact, hturn, hretune]

end Sys2Proof.Machine

/-! Messages, buffers and lists, and records that are emptied or taken. -/

namespace Sys2Proof.Machine

/-! ## Lists and buffers (R104, R105, R113) -/

/-- `t` is `r` with another list and another message in flight, but for fields that no invariant of the roster reads. -/
def Record.relisted (r t : Record) : Prop := ({ r with messages := t.messages, inFlight := t.inFlight } : Record).follows t

theorem Record.relisted_of_follows {r t : Record} (h : r.follows t) : r.relisted t :=
  ⟨h.free, h.carId, h.tag, rfl, fun _ e => e, h.pinned, h.summoned, h.mark⟩

theorem State.moves_of_relisted {s t : State} (hw : s.within t) (hr : ∀ j, (s.record j).relisted (t.record j))
    (htag : t.roster.tagCounter = s.roster.tagCounter) (hsummon : t.roster.summonCount = s.roster.summonCount)
    (hpin : t.roster.pinnedCount = s.roster.pinnedCount) (hsweep : t.sweep = s.sweep)
    (hq : s.queuesBounded → t.queuesBounded) (ha : s.attentionDistinct → t.attentionDistinct)
    (hs : s.transmittersServed → t.transmittersServed) (hpool : s.poolConsistent → t.poolConsistent) : s.moves t where
  towithin := hw
  queues := hq
  attention := ha
  served := hs
  cars := State.carIdsUnique_of fun j h => ⟨fun e => h ((hr j).free.mpr e), (hr j).carId⟩
  tags := State.tagsUnique_of (fun j h => ⟨fun e => h ((hr j).free.mpr e), (hr j).tag⟩) htag
  pool := hpool
  counts := State.countsAgree_of (fun j => (hr j).pinned) (fun j => (hr j).summoned)
    (fun j h => .inl ((hr j).free.mp h)) hpin hsummon
  sweep := State.sweepAgrees_of (fun j => (hr j).mark) (fun j h => .inl ((hr j).free.mp h)) hsweep

theorem State.setBuffer_getElem (s : State) (b c : Fin 64) (m : Option Message) :
    (s.setBuffer b m).pool[c] = if b = c then m else s.pool[c] := by
  split
  case isTrue h => subst h; exact State.setBuffer_pool_self s b m
  case isFalse h => exact State.setBuffer_pool_ne s m h

/-- The handles of a list with a new one are the new one and those of the list (R105). -/
theorem State.insertHandle_perm (s : State) (l : List (Fin 64)) (b : Fin 64) (p : Placement) :
    (s.insertHandle l b p).Perm (b :: l) := by
  cases p with
  | posted => exact List.perm_append_singleton b l
  | transferred =>
      refine List.perm_middle.trans (List.Perm.cons b ?_)
      rw [List.takeWhile_append_dropWhile]

theorem State.freeBuffer_free {s : State} {b : Fin 64} (h : s.freeBuffer = some b) : s.pool[b] = none :=
  Option.isNone_iff_eq_none.mp (List.find?_some (p := fun b : Fin 64 => (s.pool[b]).isNone) h)

/-- One record listed anew and one buffer written: pool and lists agree when the record lists exactly its messages. -/
theorem State.poolConsistent_relist {s t : State} {i : Fin 48} {b : Fin 64} {m : Option Message} (h : s.poolConsistent)
    (hpool : ∀ c : Fin 64, t.pool[c] = if b = c then m else s.pool[c])
    (ho : ∀ j, j ≠ i → t.record j = s.record j) (hp : t.params = s.params)
    (hfree : ∀ x, s.pool[b] = some x → x.target = i) (htarget : ∀ x, m = some x → x.target = i)
    (hmem : ∀ c, c ∈ (t.record i).messages ↔ if b = c then m ≠ none else c ∈ (s.record i).messages)
    (hn : (t.record i).messages.Nodup ∧ (t.record i).messages.length ≤ 8)
    (hf : ∀ c, (t.record i).inFlight = some c → c ∈ (t.record i).messages)
    (hempty : (t.record i).contact = .free → (t.record i).messages = []) : t.poolConsistent := by
  obtain ⟨lists, once, flight, free, limit⟩ := h
  refine ⟨fun j c => ?_, fun j => ?_, fun j c e => ?_, fun j e => ?_, hp ▸ limit⟩
  · rw [hpool c]
    by_cases ej : j = i
    · subst ej
      rw [hmem c]
      split
      case isTrue =>
        constructor
        · intro hne
          obtain ⟨x, e⟩ := Option.ne_none_iff_exists'.mp hne
          exact ⟨x, e, htarget x e⟩
        · rintro ⟨x, e, -⟩
          rw [e]
          simp
      case isFalse => exact lists j c
    · rw [ho j ej, lists j c]
      split
      case isTrue e =>
        subst e
        constructor
        · rintro ⟨x, e, hx⟩
          exact absurd (hx.symm.trans (hfree x e)) ej
        · rintro ⟨x, e, hx⟩
          exact absurd (hx.symm.trans (htarget x e)) ej
      case isFalse => exact Iff.rfl
  · by_cases ej : j = i
    · exact ej ▸ hn
    · rw [ho j ej]
      exact once j
  · by_cases ej : j = i
    · subst ej
      exact hf c e
    · rw [ho j ej] at e ⊢
      exact flight j c e
  · by_cases ej : j = i
    · subst ej
      exact hempty e
    · rw [ho j ej] at e ⊢
      exact free j e

/-- A record listed anew and a buffer written. -/
def State.relist (s : State) (i : Fin 48) (messages : List (Fin 64)) (inFlight : Option (Fin 64)) (b : Fin 64)
    (m : Option Message) : State :=
  (s.modifyRecord i fun r => { r with messages := messages, inFlight := inFlight }).setBuffer b m

theorem State.relist_stays {s : State} {i : Fin 48} {l : List (Fin 64)} {f : Option (Fin 64)} {b : Fin 64}
    {m : Option Message} (h : s.poolConsistent → (s.relist i l f b m).poolConsistent) : s.stays (s.relist i l f b m) := by
  refine ⟨State.moves_of_relisted ⟨rfl, rfl, rfl, .inl rfl⟩ (fun j => ?_) rfl rfl rfl rfl (State.queuesBounded_of rfl rfl rfl)
    id (fun k => k.of_fewer rfl rfl ?_) h, (State.modifyRecord_plot_self (f := fun r => { r with messages := l, inFlight := f })
    (s := s) (i := i) rfl rfl rfl)⟩
  · exact State.forall_modifyRecord (f := fun r => { r with messages := l, inFlight := f })
      (fun r => Record.relisted_of_follows (.refl r)) ⟨Iff.rfl, rfl, rfl, rfl, fun _ e => e, rfl, rfl, rfl⟩ j
  · exact State.forall_modifyRecord (R := fun r t => t.handover = r.handover ∨ t.handover = none)
      (f := fun r => { r with messages := l, inFlight := f }) (fun _ => .inl rfl) (.inl rfl)

theorem State.relist_record_self (s : State) (i : Fin 48) (l : List (Fin 64)) (f : Option (Fin 64)) (b : Fin 64)
    (m : Option Message) : (s.relist i l f b m).record i = { s.record i with messages := l, inFlight := f } :=
  State.record_modifyRecord s i fun r => { r with messages := l, inFlight := f }

theorem State.relist_record_ne (s : State) {i j : Fin 48} (h : j ≠ i) (l : List (Fin 64)) (f : Option (Fin 64))
    (b : Fin 64) (m : Option Message) : (s.relist i l f b m).record j = s.record j :=
  State.record_modifyRecord_ne s (fun r => { r with messages := l, inFlight := f }) h.symm

theorem State.relist_consistent {s : State} {i : Fin 48} {l : List (Fin 64)} {f : Option (Fin 64)} {b : Fin 64}
    {m : Option Message} (h : s.poolConsistent) (hfree : ∀ x, s.pool[b] = some x → x.target = i)
    (htarget : ∀ x, m = some x → x.target = i)
    (hmem : ∀ c, c ∈ l ↔ if b = c then m ≠ none else c ∈ (s.record i).messages) (hn : l.Nodup ∧ l.length ≤ 8)
    (hf : ∀ c, f = some c → c ∈ l) (hempty : (s.record i).contact = .free → l = []) :
    (s.relist i l f b m).poolConsistent := by
  refine State.poolConsistent_relist h (State.setBuffer_getElem _ b · m) (fun j e => s.relist_record_ne e l f b m) rfl
    hfree htarget ?_ ?_ ?_ ?_ <;> rw [State.relist_record_self]
  · exact hmem
  · exact hn
  · exact hf
  · exact hempty

theorem State.hasRoom_iff {s : State} {i : Fin 48} :
    s.hasRoom i = true ↔ (s.record i).messages.length < s.params.recordLimit ∧ s.freeBuffer ≠ none := by
  simp [State.hasRoom, Option.isSome_iff_ne_none]

theorem State.placeMessage_stays {s : State} {m : Message} (hr : s.hasRoom m.target = true)
    (hc : (s.record m.target).contact ≠ .free) : s.stays (s.placeMessage m) := by
  unfold State.placeMessage
  split
  case h_2 => exact .refl s
  case h_1 b hb =>
    have hnone := State.freeBuffer_free hb
    have perm := s.insertHandle_perm (s.record m.target).messages b m.placement
    refine State.relist_stays (s := s) (l := s.insertHandle (s.record m.target).messages b m.placement)
      (f := (s.record m.target).inFlight) fun h => ?_
    obtain ⟨lists, once, flight, free, limit⟩ := id h
    have hnew : b ∉ (s.record m.target).messages := fun hm => by
      obtain ⟨x, e, -⟩ := (lists _ _).mp hm
      rw [hnone] at e
      exact absurd e (by simp)
    refine State.relist_consistent h (fun x e => ?_) (fun x e => ?_) (fun c => ?_) ⟨?_, ?_⟩ (fun c e => ?_)
      fun e => absurd e hc
    · rw [hnone] at e
      exact absurd e (by simp)
    · rw [← Option.some.inj e]
    · rw [perm.mem_iff, List.mem_cons]
      split
      case isTrue e => simp [e]
      case isFalse e => simp [Ne.symm e]
    · exact perm.nodup_iff.mpr (List.nodup_cons.mpr ⟨hnew, (once _).1⟩)
    · rw [perm.length_eq, List.length_cons]
      have := (State.hasRoom_iff.mp hr).1
      omega
    · exact perm.mem_iff.mpr (List.mem_cons_of_mem _ (flight _ c e))

theorem State.removeMessage_stays {s : State} {i : Fin 48} {b : Fin 64} (hb : (s.record i).inFlight = some b) :
    s.stays (s.removeMessage i b) := by
  refine State.relist_stays (s := s) (l := (s.record i).messages.erase b) (f := none) fun h => ?_
  obtain ⟨lists, once, flight, free, -⟩ := id h
  have hm := flight i b hb
  have hnodup := (once i).1
  refine State.relist_consistent h (fun x e => ?_) nofun (fun c => ?_) ⟨hnodup.erase b, ?_⟩ nofun (fun e => ?_)
  · obtain ⟨y, e', hy⟩ := (lists i b).mp hm
    rw [e] at e'
    exact Option.some.inj e' ▸ hy
  · rw [hnodup.mem_erase_iff]
    split
    case isTrue e => simp [e]
    case isFalse e => simp [Ne.symm e]
  · exact (List.length_erase_le ..).trans (once i).2
  · rw [free i e]
    rfl

/-- A buffer's message replaced by one for the same record. -/
theorem State.setBuffer_stays {s : State} {b : Fin 64} {m n : Message} (hm : s.pool[b] = some m)
    (ht : n.target = m.target) : s.stays (s.setBuffer b (some n)) := by
  refine ⟨State.moves_of_relisted ⟨rfl, rfl, rfl, .inl rfl⟩ (fun j => Record.relisted_of_follows (.refl _)) rfl rfl rfl rfl
    (State.queuesBounded_of rfl rfl rfl) id (fun k => k.of_fewer rfl rfl fun _ => .inl rfl) ?_, rfl⟩
  rintro ⟨lists, once, flight, free, limit⟩
  refine ⟨fun j c => ?_, once, flight, free, limit⟩
  rw [State.setBuffer_getElem]
  show c ∈ (s.record j).messages ↔ _
  rw [lists j c]
  split
  case isTrue e =>
    subst e
    simp [hm, ht]
  case isFalse => exact Iff.rfl

theorem State.startMessage_stays {s : State} {i : Fin 48} {b : Fin 64} (hb : b ∈ (s.record i).messages) :
    s.stays (s.startMessage i b) := by
  refine ⟨State.moves_of_relisted ⟨rfl, rfl, rfl, .inl rfl⟩ ?_ rfl rfl rfl rfl (State.queuesBounded_of rfl rfl rfl) id
    (fun k => k.of_fewer rfl rfl ?_) ?_, State.modifyRecord_plot_self rfl rfl rfl⟩
  · exact State.forall_modifyRecord (fun r => Record.relisted_of_follows (.refl r))
      ⟨Iff.rfl, rfl, rfl, rfl, fun _ e => e, rfl, rfl, rfl⟩
  · exact State.forall_modifyRecord (R := fun r t => t.handover = r.handover ∨ t.handover = none)
      (fun _ => .inl rfl) (.inl rfl)
  · rintro ⟨lists, once, flight, free, limit⟩
    have hm : ∀ j, ((s.startMessage i b).record j).messages = (s.record j).messages :=
      State.forall_modifyRecord (R := fun r t => t.messages = r.messages) (fun _ => rfl) rfl
    have hc : ∀ j, ((s.startMessage i b).record j).contact = (s.record j).contact :=
      State.forall_modifyRecord (R := fun r t => t.contact = r.contact) (fun _ => rfl) rfl
    refine ⟨fun j c => by rw [hm]; exact lists j c, fun j => by rw [hm]; exact once j, fun j c e => ?_,
      fun j e => ?_, limit⟩
    · rw [hm]
      unfold State.startMessage at e
      rw [State.record_modifyRecord_eq] at e
      split at e
      case isTrue ej =>
        subst ej
        exact Option.some.inj e ▸ hb
      case isFalse => exact flight j c e
    · rw [hm]
      exact free j (hc j ▸ e)

/-- What every step of a fold keeps in relation, the fold does. -/
theorem foldl_rel {α β : Type} {R : β → β → Prop} (refl : ∀ b, R b b) (trans : ∀ {a b c}, R a b → R b c → R a c)
    {f : β → α → β} (h : ∀ b a, R b (f b a)) (l : List α) (b : β) : R b (l.foldl f b) := by
  induction l generalizing b with
  | nil => exact refl b
  | cons a l ih => exact trans (h b a) (ih (f b a))

/-- Ports that keep what the invariants ask of them. -/
def State.portsKept (s t : State) : Prop :=
  (s.queuesBounded → t.queuesBounded) ∧ (s.transmittersServed → t.transmittersServed)

theorem State.setBuffer_portsKept (s : State) (b : Fin 64) (m : Option Message) : s.portsKept (s.setBuffer b m) :=
  ⟨State.queuesBounded_of rfl rfl rfl, fun k => k.of_fewer rfl rfl fun _ => .inl rfl⟩

theorem State.portsKept.trans {s t u : State} (h : s.portsKept t) (k : t.portsKept u) : s.portsKept u :=
  ⟨k.1 ∘ h.1, k.2 ∘ h.2⟩

theorem State.freeListed_portsKept (notes : Bool) (car : Nat) (s : State) (b : Fin 64) :
    s.portsKept (State.freeListed notes car s b) := by
  unfold State.freeListed
  (repeat' split)
  · have note := State.noteFor_stays (s.setBuffer b none) car
    exact (s.setBuffer_portsKept b none).trans ⟨(note _ _ _).queues, (note _ _ _).served⟩
  · exact s.setBuffer_portsKept b none
  · exact ⟨id, id⟩

theorem State.freeMessages_stays (s : State) (i : Fin 48) (notes : Bool) : s.stays (s.freeMessages i notes) := by
  obtain ⟨⟨r, hr, hi⟩, ho, htail, hpool⟩ := s.freeMessages_spec i notes
  have hcalm := State.freeMessages_calm s i notes
  have ports : s.portsKept (s.freeMessages i notes) := by
    have fold := foldl_rel (R := State.portsKept) (fun _ => ⟨id, id⟩) State.portsKept.trans
      (State.freeListed_portsKept notes (s.record i).carId) (s.record i).messages s
    exact fold.trans ⟨State.queuesBounded_of rfl rfl rfl, fun k => k.of_fewer rfl rfl
      (State.forall_modifyRecord (R := fun r t => t.handover = r.handover ∨ t.handover = none)
        (fun _ => .inl rfl) (.inl rfl))⟩
  simp only [State.tail, Prod.mk.injEq] at htail
  obtain ⟨htag, -, hsummon, hpin, hheld, -⟩ := htail
  have hrow : ∀ j, ((s.freeMessages i notes).record j).contact = (s.record j).contact
      ∧ ((s.freeMessages i notes).record j).turn = (s.record j).turn
      ∧ ((s.freeMessages i notes).record j).retune = (s.record j).retune := by
    intro j
    by_cases e : j = i
    · subst e
      rw [hi]
      rcases hr with rfl | ⟨c, -, rfl⟩ <;> exact ⟨rfl, rfl, rfl⟩
    · rcases ho j e with h | ⟨c, -, h⟩ <;> rw [h] <;> exact ⟨rfl, rfl, rfl⟩
  refine ⟨State.moves_of_relisted ⟨by unfold State.airFrame; rw [State.freeMessages_air], State.waits_of_calm hcalm,
    State.params_of_calm hcalm, .inl hheld⟩ (fun j => ?_) htag hsummon hpin (State.freeMessages_sweep s i notes) ports.1
    (State.attentionDistinct_of (by rw [State.freeMessages_host])) ports.2 ?_, Prod.ext (funext fun j => ?_)
    (State.freeMessages_cells s i notes)⟩
  · by_cases e : j = i
    · subst e
      rw [hi]
      rcases hr with rfl | ⟨c, -, rfl⟩ <;> exact ⟨Iff.rfl, rfl, rfl, rfl, fun _ e => e, rfl, rfl, rfl⟩
    · exact Record.relisted_of_follows (Record.follows_of_sent (ho j e))
  · rintro ⟨lists, once, flight, free, limit⟩
    have hm : ∀ j, j ≠ i → ((s.freeMessages i notes).record j).messages = (s.record j).messages ∧
        ((s.freeMessages i notes).record j).inFlight = (s.record j).inFlight := by
      intro j e
      rcases ho j e with h | ⟨c, -, h⟩ <;> rw [h] <;> exact ⟨rfl, rfl⟩
    refine ⟨fun j c => ?_, fun j => ?_, fun j c ec => ?_, fun j e => ?_, State.params_of_calm hcalm ▸ limit⟩
    · rw [hpool c]
      by_cases e : j = i
      · subst e
        rw [hi]
        by_cases hc : c ∈ (s.record j).messages
        · simp [hc]
        · simpa [hc] using fun x hx => fun ht => hc ((lists j c).mpr ⟨x, hx, ht⟩)
      · rw [(hm j e).1, lists j c]
        split
        case isTrue hc =>
          obtain ⟨x, hx, ht⟩ := (lists i c).mp hc
          simp only [hx, Option.some.injEq, exists_eq_left', reduceCtorEq, false_and, exists_false, iff_false]
          exact fun h => e (h.symm.trans ht)
        case isFalse => exact Iff.rfl
    · by_cases e : j = i
      · subst e
        rw [hi]
        simp
      · rw [(hm j e).1]
        exact once j
    · by_cases e : j = i
      · subst e
        rw [hi] at ec
        exact absurd ec (by simp)
      · rw [(hm j e).2] at ec
        rw [(hm j e).1]
        exact flight j c ec
    · by_cases ej : j = i
      · subst ej
        rw [hi]
      · rw [(hm j ej).1]
        exact free j ((hrow j).1 ▸ e)
  · obtain ⟨h1, h2, h3⟩ := hrow j
    simp only [State.plot, h1, h2, h3]

/-! ## Into FREE and out of it (R24, R39) -/

/-- A record that lists no message, is neither pinned nor summoned, and awaited by no sweep, becomes FREE. -/
theorem State.emptyRecord_moves {s : State} {i : Fin 48} (hp : (s.record i).pinned = false)
    (hm : (s.record i).summoned = false) (hl : (s.record i).messages = []) (hw : s.sweepAwaits i = false) :
    s.moves (s.emptyRecord i) := by
  have hi : (s.emptyRecord i).record i = { Record.free with carId := (s.record i).carId, mark := (s.record i).mark } :=
    State.record_modifyRecord (s.passOver i) i fun r => { Record.free with carId := r.carId, mark := r.mark }
  have ho : ∀ j, j ≠ i → (s.emptyRecord i).record j = s.record j := fun j e =>
    State.record_modifyRecord_ne (s.passOver i) (fun r => { Record.free with carId := r.carId, mark := r.mark }) (Ne.symm e)
  have other : ∀ j, ((s.emptyRecord i).record j).contact ≠ .free → j ≠ i := by
    rintro j h rfl
    rw [hi] at h
    exact h rfl
  have field : ∀ {α : Type} (g : Record → α), g (s.record i) = g ((s.emptyRecord i).record i) →
      ∀ j, g ((s.emptyRecord i).record j) = g (s.record j) := by
    intro α g h j
    by_cases e : j = i
    · rw [e, h]
    · rw [ho j e]
  refine ⟨⟨rfl, rfl, rfl, .inl rfl⟩, ?_⟩
  exact
    { queues := State.queuesBounded_of rfl rfl rfl
      attention := id
      served := fun k => k.of_fewer rfl rfl fun j => by
        by_cases e : j = i
        · subst e
          exact .inr (by rw [hi]; rfl)
        · exact .inl (by rw [ho j e])
      cars := State.carIdsUnique_of fun j h => by
        have e := other j h
        rw [ho j e] at h ⊢
        exact ⟨h, rfl⟩
      tags := State.tagsUnique_of (fun j h => by
        have e := other j h
        rw [ho j e] at h ⊢
        exact ⟨h, rfl⟩) rfl
      pool := State.poolConsistent_of (field _ (by rw [hi, hl]; rfl)) (fun j b h => by
        by_cases e : j = i
        · subst e
          rw [hi] at h
          exact absurd h (by simp [Record.free])
        · rwa [ho j e] at h) (fun j h => by
        by_cases e : j = i
        · subst e
          exact .inr (by rw [hi]; rfl)
        · exact .inl (ho j e ▸ h)) rfl rfl
      counts := State.countsAgree_of (field _ (by rw [hi, hp]; rfl)) (field _ (by rw [hi, hm]; rfl)) (fun j h => by
        by_cases e : j = i
        · subst e
          exact .inr ⟨hp, hm⟩
        · exact .inl (ho j e ▸ h)) rfl rfl
      sweep := State.sweepAgrees_of (field _ (by rw [hi])) (fun j h => by
        by_cases e : j = i
        · subst e
          exact .inr hw
        · exact .inl (ho j e ▸ h)) rfl }

theorem State.emptyRecord_row_self (s : State) (i : Fin 48) : (s.emptyRecord i).plot.1 i = (.free, none, none) := by
  have h := State.modifyRecord_plot (s.passOver i) i fun r => { Record.free with carId := r.carId, mark := r.mark }
  exact (congrArg (fun p => p.1 i) h).trans (Function.update_self i _ _)

theorem State.emptyRecord_row_ne (s : State) {i j : Fin 48} (e : j ≠ i) : (s.emptyRecord i).plot.1 j = s.plot.1 j := by
  have h := State.modifyRecord_plot (s.passOver i) i fun r => { Record.free with carId := r.carId, mark := r.mark }
  exact (congrArg (fun p => p.1 j) h).trans (Function.update_of_ne e _ _)

/-- What a car that joins the roster brings: its car ID, and of all else that the invariants read nothing. -/
structure Record.fresh (r : Record) : Prop where
  contact : r.contact ≠ .free
  tag : r.tag = none
  messages : r.messages = []
  inFlight : r.inFlight = none
  pinned : r.pinned = false
  summoned : r.summoned = false
  mark : r.mark = .none
  handover : r.handover = none

/-- A car that no record holds takes a FREE record. -/
theorem State.setRecord_moves {s : State} {i : Fin 48} {r : Record} (hi : (s.record i).contact = .free) (hr : r.fresh)
    (hcar : s.lookup r.carId = none) : s.moves (s.setRecord i r) := by
  have hself : (s.setRecord i r).record i = r := s.record_setRecord i r
  have ho : ∀ j, j ≠ i → (s.setRecord i r).record j = s.record j := fun j e => s.record_setRecord_ne r (Ne.symm e)
  have unheld : ∀ j, (s.record j).contact ≠ .free → (s.record j).carId ≠ r.carId := by
    intro j hj e
    have := List.find?_eq_none.mp hcar j (List.mem_finRange j)
    simp [hj, e] at this
  have nonfree : ∀ j, ((s.setRecord i r).record j).contact = .free → (s.record j).contact = .free := by
    intro j h
    by_cases e : j = i
    · exact e ▸ hi
    · exact ho j e ▸ h
  have free_ne : ∀ j, ((s.setRecord i r).record j).contact = .free → j ≠ i := by
    rintro j h rfl
    rw [hself] at h
    exact hr.contact h
  refine ⟨⟨rfl, rfl, rfl, .inl rfl⟩, ?_⟩
  refine
    { queues := State.queuesBounded_of rfl rfl rfl
      attention := id
      served := fun k => k.of_fewer rfl rfl fun j => ?_
      cars := fun h j k hj hk e => ?_
      tags := ?_
      pool := fun h => ?_
      counts := fun h => ?_
      sweep := fun h => ?_ }
  · by_cases e : j = i
    · subst e
      exact .inr (by rw [hself, hr.handover])
    · exact .inl (by rw [ho j e])
  · by_cases ej : j = i <;> by_cases ek : k = i
    · rw [ej, ek]
    · subst ej
      rw [hself, ho k ek] at e
      rw [ho k ek] at hk
      exact absurd e.symm (unheld k hk)
    · subst ek
      rw [hself, ho j ej] at e
      rw [ho j ej] at hj
      exact absurd e (unheld j hj)
    · rw [ho j ej] at hj e
      rw [ho k ek] at hk e
      exact h j k hj hk e
  · rintro ⟨one, range, low, high, rest⟩
    have tagged : ∀ j t, ((s.setRecord i r).record j).contact ≠ .free → ((s.setRecord i r).record j).tag = some t →
        (s.record j).contact ≠ .free ∧ (s.record j).tag = some t := by
      intro j t hj ht
      by_cases e : j = i
      · subst e
        rw [hself, hr.tag] at ht
        exact absurd ht (by simp)
      · rw [ho j e] at hj ht
        exact ⟨hj, ht⟩
    refine ⟨fun j k t hj hk ej ek => ?_, fun j t hj ej => ?_, low, high, fun j hj ej => ?_⟩
    · obtain ⟨h1, h2⟩ := tagged j t hj ej
      obtain ⟨h3, h4⟩ := tagged k t hk ek
      exact one j k t h1 h3 h2 h4
    · obtain ⟨h1, h2⟩ := tagged j t hj ej
      exact range j t h1 h2
    · obtain ⟨h1, h2⟩ := tagged j _ hj ej
      exact rest j h1 h2
  · have hempty := h.2.2.2.1 i hi
    refine State.poolConsistent_of (s := s) (fun j => ?_) (fun j b hb => ?_) (fun j hj => .inl (nonfree j hj)) rfl rfl h
    · by_cases e : j = i
      · subst e
        rw [hself, hr.messages, hempty]
      · rw [ho j e]
    · by_cases e : j = i
      · subst e
        rw [hself, hr.inFlight] at hb
        exact absurd hb (by simp)
      · rwa [ho j e] at hb
  · obtain ⟨hpin, hsummon⟩ := h.2.2.2.2 i hi
    refine State.countsAgree_of (s := s) (fun j => ?_) (fun j => ?_) (fun j hj => .inl (nonfree j hj)) rfl rfl h
    · by_cases e : j = i
      · subst e
        rw [hself, hr.pinned, hpin]
      · rw [ho j e]
    · by_cases e : j = i
      · subst e
        rw [hself, hr.summoned, hsummon]
      · rw [ho j e]
  · refine ⟨fun hp => ?_, h.2⟩
    obtain ⟨sum, some_, marked⟩ := h.1 hp
    have unmarked : (s.record i).mark ≠ .marked := fun e => marked i e hi
    have count := State.countRecords_change (s := s) (t := s.setRecord i r) ho fun r => r.mark == .marked
    rw [hself, hr.mark] at count
    simp only [beq_iff_eq, unmarked, if_false, reduceCtorEq, Nat.add_zero] at count
    rw [count]
    refine ⟨sum, some_, fun j hj => ?_⟩
    by_cases e : j = i
    · subst e
      rw [hself, hr.mark] at hj
      exact absurd hj (by simp)
    · rw [ho j e] at hj ⊢
      exact marked j hj

end Sys2Proof.Machine

/-! The Turn Plan, and the ends of a stay. -/

namespace Sys2Proof.Machine

/-! ## Rows and cells of the Turn Plan -/

/-- The contact states of a record that has no turn (R59). -/
def ContactState.bare (c : ContactState) : Prop := ¬ (c = .granted ∨ c = .present ∨ c = .releasing)

theorem ContactState.bare_iff {c : ContactState} :
    c.bare ↔ c = .free ∨ c = .paging ∨ c = .dormant ∨ c = .outbound := by
  unfold ContactState.bare
  cases c <;> simp

/-- A record without turn and cells fits the plan in a state that has no turn. -/
theorem planFits_bare {c : ContactState} {holds : Nat → Nat → CellRole → Prop} (hc : c.bare)
    (h : ∀ slot phase role, ¬ holds slot phase role) : planFits (c, none, none) holds :=
  ⟨iff_of_false (by simp) hc, by simp, nofun, nofun, fun slot phase role e => absurd e (h slot phase role)⟩

/-- A record in a state that has no turn has none, and holds no cell. -/
theorem planFits.of_bare {row : ContactState × Option Turn × Option Turn} {holds : Nat → Nat → CellRole → Prop}
    (h : planFits row holds) (hc : row.1.bare) : row.2 = (none, none) ∧ ∀ slot phase role, ¬ holds slot phase role := by
  obtain ⟨turn, retune, -, -, held⟩ := h
  have noTurn : row.2.1 = none := not_not.mp fun e => hc (turn.mp e)
  have noRetune : row.2.2 = none := not_not.mp fun e => hc (.inr (.inl (retune e)))
  refine ⟨Prod.ext noTurn noRetune, fun slot phase role e => ?_⟩
  have := held slot phase role e
  cases role with
  | waiting | turn =>
      obtain ⟨t, e, -⟩ := this
      rw [noTurn] at e
      exact absurd e (by simp)
  | pending =>
      obtain ⟨t, e, -⟩ := this
      rw [noRetune] at e
      exact absurd e (by simp)
  | lent => exact hc (.inr (.inl this))

/-- Only record `i` and its cells changed, and they fit the plan. -/
theorem State.planConsistent_of_one {s t : State} (i : Fin 48) (ho : ∀ j, j ≠ i → t.plot.1 j = s.plot.1 j)
    (hc : ∀ j, j ≠ i → ∀ slot phase role, t.holds j slot phase role ↔ s.holds j slot phase role)
    (hi : planFits (s.plot.1 i) (s.holds i) → planFits (t.plot.1 i) (t.holds i)) (h : s.planConsistent) :
    t.planConsistent := by
  rw [State.planConsistent_iff] at *
  intro j
  by_cases e : j = i
  · exact e ▸ hi (h i)
  · have hh : t.holds j = s.holds j := by
      funext slot phase role
      exact propext (hc j e slot phase role)
    rw [ho j e, hh]
    exact h j

theorem State.holds_of_cells {s t : State} (h : t.cells = s.cells) (i : Fin 48) : t.holds i = s.holds i := by
  funext slot phase role
  unfold State.holds
  rw [State.cell_congr h]

theorem State.stays.contact {s t : State} (h : s.stays t) (i : Fin 48) : (t.record i).contact = (s.record i).contact :=
  congrArg (fun p => (p.1 i).1) h.plot

theorem State.stays.turn {s t : State} (h : s.stays t) (i : Fin 48) : (t.record i).turn = (s.record i).turn :=
  congrArg (fun p => (p.1 i).2.1) h.plot

theorem State.stays.cells {s t : State} (h : s.stays t) : t.cells = s.cells := congrArg Prod.snd h.plot

/-! ## Cells freed and given (R58, R60, R64) -/

theorem State.freeCellsWhere_moves (s : State) (test : CellHolding → Bool) : s.moves (s.freeCellsWhere test) := by
  unfold State.freeCellsWhere
  split
  · exact State.moves_of_same ⟨rfl, rfl, rfl, .inl rfl⟩ ⟨rfl, rfl, rfl, rfl, rfl, rfl, rfl, rfl⟩ rfl
  · exact .refl s

theorem State.freeCellsWhere_rows (s : State) (test : CellHolding → Bool) :
    (s.freeCellsWhere test).plot.1 = s.plot.1 := by
  unfold State.freeCellsWhere
  split <;> rfl

theorem State.freeCellsWhere_cell (s : State) (test : CellHolding → Bool) (slot phase : Nat) :
    (s.freeCellsWhere test).cell slot phase =
      if Option.any test (s.cell slot phase) then none else s.cell slot phase := by
  by_cases h : 3 ≤ slot ∧ slot ≤ 31 ∧ phase < 8
  · obtain ⟨h1, h2, h3⟩ := h
    rw [State.cell_eq _ h1 h2 h3, State.cell_eq _ h1 h2 h3]
    exact State.freeCellsWhere_getElem s test _ _
  · simp [State.cell, h]

theorem State.freeCellsWhere_holds (s : State) (test : CellHolding → Bool) (i : Fin 48) (slot phase : Nat)
    (role : CellRole) :
    (s.freeCellsWhere test).holds i slot phase role ↔
      s.holds i slot phase role ∧ test { holder := i, role := role } = false := by
  unfold State.holds
  rw [State.freeCellsWhere_cell]
  cases h : s.cell slot phase with
  | none => simp
  | some c =>
      cases e : test c
      · simp only [Option.any_some, e, Bool.false_eq_true, if_false, Option.some.injEq]
        constructor
        · rintro rfl
          exact ⟨rfl, e⟩
        · exact fun k => k.1
      · simp only [Option.any_some, e, if_true, Option.some.injEq, reduceCtorEq, false_iff, not_and]
        rintro rfl
        simp [e]

theorem State.giveTurnCells_moves (s : State) (i : Fin 48) (t : Turn) (role : CellRole) :
    s.moves (s.giveTurnCells i t role) := by
  have fold := foldl_rel (R := State.moves) State.moves.refl State.moves.trans
    (f := fun s f => s.giveCell t.slot f { holder := i, role := role })
    (fun u f => State.moves_of_same (t := u.giveCell t.slot f { holder := i, role := role }) ⟨rfl, rfl, rfl, .inl rfl⟩
      ⟨rfl, rfl, rfl, rfl, rfl, rfl, rfl, rfl⟩ rfl)
  exact fold t.phases s

theorem State.giveTurnCells_rows (s : State) (i : Fin 48) (t : Turn) (role : CellRole) :
    (s.giveTurnCells i t role).plot.1 = s.plot.1 := by
  funext j
  simp only [State.plot, State.record_congr (State.giveTurnCells_roster s i t role)]

theorem State.giveTurnCells_holds {s : State} {t : Turn} (ht : t.inPlan) (hfree : s.placeFree t = true) (i j : Fin 48)
    (role role' : CellRole) (slot phase : Nat) :
    (s.giveTurnCells i t role).holds j slot phase role' ↔
      (slot = t.slot ∧ phase ∈ t.phases ∧ j = i ∧ role' = role) ∨ s.holds j slot phase role' := by
  obtain ⟨h1, h2, h3⟩ := ht
  unfold State.holds
  rw [State.giveTurnCells_cell s i t role h1 h2 h3]
  split
  case isTrue h =>
    obtain ⟨rfl, hp⟩ := h
    rw [State.placeFree_iff.mp hfree phase hp]
    simp [hp, eq_comm]
  case isFalse h =>
    constructor
    · exact .inr
    · rintro (⟨e1, e2, -⟩ | k)
      · exact absurd ⟨e1, e2⟩ h
      · exact k

theorem State.findPlace_inPlan {s : State} {p : Period} {t : Turn} (h : s.findPlace p = some t) :
    t.inPlan ∧ s.placeFree t = true := by
  obtain ⟨-, h1, h2, h3⟩ := State.findPlace_range h
  exact ⟨⟨h1, h2, h3⟩, List.find?_some h⟩

theorem State.findTurn_inPlan {s : State} {p : Period} {t : Turn} (h : s.findTurn p = some t) :
    t.inPlan ∧ s.placeFree t = true := State.findPlace_inPlan (State.findTurn_first h).1

/-! ## Changes of the contact state -/

/-- A change of a record that is not FREE, by which it does not become FREE. -/
theorem State.setContact_moves {s : State} {i : Fin 48} {f : Record → Record} (hi : (s.record i).contact ≠ .free)
    (hf : (f (s.record i)).contact ≠ .free)
    (h : ({ f (s.record i) with contact := (s.record i).contact, turn := none, retune := none } : Record).bones =
      ({ s.record i with turn := none, retune := none } : Record).bones ∨
      ({ f (s.record i) with contact := (s.record i).contact, turn := none, retune := none } : Record).bones =
      ({ s.record i with turn := none, retune := none, handover := none } : Record).bones) :
    s.moves (s.modifyRecord i f) := by
  simp only [Record.bones, Prod.mk.injEq] at h
  have free : (f (s.record i)).contact = .free ↔ (s.record i).contact = .free := iff_of_false hf hi
  rcases h with ⟨⟨-, h2, h3, h4, h5⟩, ⟨h6, h7, h8, -, -⟩, h9⟩ | ⟨⟨-, h2, h3, h4, h5⟩, ⟨h6, h7, h8, -, -⟩, h9⟩
  · exact State.modifyRecord_moves ⟨free, h2, h3, h4, fun b e => h5 ▸ e, h6, h7, h8⟩ (.inl h9)
  · exact State.modifyRecord_moves ⟨free, h2, h3, h4, fun b e => h5 ▸ e, h6, h7, h8⟩ (.inr h9)

theorem State.row_modifyRecord_ne (s : State) {i j : Fin 48} (f : Record → Record) (h : j ≠ i) :
    (s.modifyRecord i f).plot.1 j = s.plot.1 j := by
  rw [State.modifyRecord_plot]
  exact Function.update_of_ne h _ _

theorem State.row_modifyRecord_self (s : State) (i : Fin 48) (f : Record → Record) :
    (s.modifyRecord i f).plot.1 i =
      ((f (s.record i)).contact, (f (s.record i)).turn, (f (s.record i)).retune.map RetuneContext.target) := by
  rw [State.modifyRecord_plot]
  exact Function.update_self i _ _

/-- A record passes from one state without a turn to another. -/
theorem State.settles_bare {s t : State} {i : Fin 48} (hm : s.moves t) (ho : ∀ j, j ≠ i → t.plot.1 j = s.plot.1 j)
    (hc : t.cells = s.cells) (hs : (s.plot.1 i).1.bare) (ht : (t.plot.1 i).1.bare)
    (hrow : (t.plot.1 i).2 = (s.plot.1 i).2) : s.settles t := by
  refine ⟨hm, State.planConsistent_of_one i ho (fun j _ _ _ _ => by rw [State.holds_of_cells hc]) fun h => ?_⟩
  obtain ⟨none_, empty⟩ := h.of_bare hs
  rw [State.holds_of_cells hc, ← Prod.eta (t.plot.1 i), hrow, none_]
  exact planFits_bare ht empty

/-- A record gives up its cells, and comes to a state without a turn. -/
theorem State.settles_cleared {s t : State} {i : Fin 48} (hm : s.moves t) (ho : ∀ j, j ≠ i → t.plot.1 j = s.plot.1 j)
    (hc : t.cells = (s.freeCellsOf i).cells) (ht : (t.plot.1 i).1.bare) (hrow : (t.plot.1 i).2 = (none, none)) :
    s.settles t := by
  have held : ∀ j slot phase role, t.holds j slot phase role ↔ s.holds j slot phase role ∧ j ≠ i := by
    intro j slot phase role
    rw [State.holds_of_cells hc, State.freeCellsOf, State.freeCellsWhere_holds]
    simp
  refine ⟨hm, State.planConsistent_of_one i ho (fun j e slot phase role => by simp [held, e]) fun _ => ?_⟩
  rw [← Prod.eta (t.plot.1 i), hrow]
  exact planFits_bare ht fun slot phase role e => ((held i slot phase role).mp e).2 rfl

theorem State.giveUpTurn_moves (s : State) (i : Fin 48) : s.moves (s.giveUpTurn i) :=
  (s.freeCellsWhere_moves _).trans
    (State.modifyRecord_moves ⟨Iff.rfl, rfl, rfl, rfl, fun _ e => e, rfl, rfl, rfl⟩ (.inl rfl))

theorem State.freeCellsOf_contact (s : State) (i j : Fin 48) :
    ((s.freeCellsOf i).record j).contact = (s.record j).contact := by
  rw [State.record_congr (State.freeCellsOf_roster s i)]

theorem State.giveUpTurn_row_self (s : State) (i : Fin 48) :
    (s.giveUpTurn i).plot.1 i = ((s.record i).contact, none, none) := by
  refine (State.row_modifyRecord_self _ i _).trans ?_
  rw [State.freeCellsOf_contact]
  rfl

theorem State.giveUpTurn_row_ne (s : State) {i j : Fin 48} (h : j ≠ i) : (s.giveUpTurn i).plot.1 j = s.plot.1 j :=
  (State.row_modifyRecord_ne _ _ h).trans (congrFun (State.freeCellsWhere_rows s _) j)

theorem State.giveUpTurn_contact (s : State) (i : Fin 48) : ((s.giveUpTurn i).record i).contact = (s.record i).contact :=
  congrArg Prod.fst (s.giveUpTurn_row_self i)

theorem State.enterPaging_moves {s : State} {i : Fin 48} (h : (s.record i).contact ≠ .free) : s.moves (s.enterPaging i) :=
  State.setContact_moves h (by simp) (.inl rfl)

theorem State.enterPaging_row_self (s : State) (i : Fin 48) : (s.enterPaging i).plot.1 i = (.paging, (s.plot.1 i).2) :=
  s.row_modifyRecord_self i _

theorem State.becomeDormant_moves {s : State} {i : Fin 48} (h : (s.record i).contact ≠ .free) :
    s.moves (s.becomeDormant i) :=
  (State.setContact_moves h (by simp) (.inl rfl)).trans (State.offerReason_stays _ _ _).tomoves

theorem State.becomeDormant_row_self (s : State) (i : Fin 48) :
    (s.becomeDormant i).plot.1 i = (.dormant, (s.plot.1 i).2) := by
  unfold State.becomeDormant
  rw [(State.offerReason_stays _ _ _).plot, State.row_modifyRecord_self]
  rfl

theorem State.becomeDormant_row_ne (s : State) {i j : Fin 48} (h : j ≠ i) :
    (s.becomeDormant i).plot.1 j = s.plot.1 j := by
  unfold State.becomeDormant
  rw [(State.offerReason_stays _ _ _).plot]
  exact State.row_modifyRecord_ne s _ h

/-- A record gives up its turn and becomes DORMANT, with work between that does not touch the plan (R23). -/
theorem State.dormant_settles {s u : State} {i : Fin 48} (h : (s.record i).contact ≠ .free)
    (hu : (s.giveUpTurn i).stays u) : s.settles (u.becomeDormant i) := by
  have hc : (u.record i).contact ≠ .free := by
    rw [hu.contact, State.giveUpTurn_contact]
    exact h
  refine State.settles_cleared (i := i) (((s.giveUpTurn_moves i).trans hu.tomoves).trans (State.becomeDormant_moves hc))
    (fun j e => ?_) ?_ ?_ ?_
  · rw [State.becomeDormant_row_ne _ e, hu.plot, State.giveUpTurn_row_ne s e]
  · exact (State.becomeDormant_cells u i).trans hu.cells
  · rw [State.becomeDormant_row_self]
    exact ContactState.bare_iff.mpr (.inr (.inr (.inl rfl)))
  · rw [State.becomeDormant_row_self, hu.plot, State.giveUpTurn_row_self]

/-! ## The return to FREE and the other ends of a stay -/

theorem State.markLeft_sweepAwaits (s : State) (i : Fin 48) : (s.markLeft i).sweepAwaits i = false := by
  obtain ⟨hi, -⟩ := s.markLeft_spec i
  cases h : s.sweepAwaits i with
  | true =>
      rw [h, if_pos rfl] at hi
      simp [State.sweepAwaits, hi]
  | false =>
      have : s.markLeft i = s := by
        unfold State.markLeft
        rw [if_neg]
        simpa [State.sweepAwaits] using h
      rw [this, h]

theorem State.becomeFree_settles (s : State) (i : Fin 48) (notes : Bool) (reason : Option Reason) :
    s.settles (s.becomeFree i notes reason) := by
  obtain ⟨s1, e1⟩ : ∃ t, t = (s.withdrawGrant i).freeCellsOf i := ⟨_, rfl⟩
  obtain ⟨s2, e2⟩ : ∃ t, t = (s1.freeMessages i notes).dropContext i := ⟨_, rfl⟩
  obtain ⟨s3, e3⟩ : ∃ t, t = s2.endSummon i .cancelled := ⟨_, rfl⟩
  obtain ⟨s4, e4⟩ : ∃ t, t = s3.dropPin i := ⟨_, rfl⟩
  obtain ⟨s5, e5⟩ : ∃ t, t = s4.markLeft i := ⟨_, rfl⟩
  have e : s.becomeFree i notes reason = ((s5.emptyRecord i).offerReason? i reason).reportAllocatable i := by
    rw [e5, e4, e3, e2, e1]
    rfl
  have m1 : s.moves s1 := e1 ▸ (s.withdrawGrant_stays i).tomoves.trans (State.freeCellsWhere_moves _ _)
  have m5 : s1.stays s5 := e5 ▸ e4 ▸ e3 ▸ e2 ▸ ((((s1.freeMessages_stays i notes).trans (State.dropContext_stays _ i)).trans
    (State.endSummon_stays _ i _)).trans (State.dropPin_stays _ i)).trans (State.markLeft_stays _ i)
  obtain ⟨⟨r, -, hr⟩, -⟩ := s1.freeMessages_spec i notes
  have r2 : (s2.record i).messages = [] := by
    rw [e2, State.dropContext, State.record_modifyRecord, hr]
  have r4 : (s4.record i).messages = [] ∧ (s4.record i).summoned = false ∧ (s4.record i).pinned = false := by
    rw [e4, (s3.dropPin_spec i).1, e3, (s2.endSummon_spec i .cancelled).1]
    exact ⟨r2, rfl, rfl⟩
  have r5 : (s5.record i).messages = [] ∧ (s5.record i).summoned = false ∧ (s5.record i).pinned = false := by
    rw [e5, (s4.markLeft_spec i).1]
    exact r4
  have empty : s5.moves (s5.emptyRecord i) :=
    State.emptyRecord_moves r5.2.2 r5.2.1 r5.1 (e5 ▸ s4.markLeft_sweepAwaits i)
  have last : (s5.emptyRecord i).stays (s.becomeFree i notes reason) :=
    e ▸ (State.offerReasonOpt_stays _ i reason).trans (State.reportAllocatable_stays _ i)
  have rows : s1.plot.1 = s.plot.1 := e1 ▸ State.freeCellsWhere_rows (s.withdrawGrant i) _
  refine State.settles_cleared (i := i) (((m1.trans m5.tomoves).trans empty).trans last.tomoves) (fun j h => ?_) ?_ ?_ ?_
  · rw [last.plot, State.emptyRecord_row_ne _ h, m5.plot, rows]
  · rw [last.cells]
    refine ((State.emptyRecord_cells s5 i).trans m5.cells).trans ?_
    rw [e1]
    simp only [State.freeCellsOf, State.freeCellsWhere_cells]
    rfl
  · rw [last.plot, State.emptyRecord_row_self]
    exact ContactState.bare_iff.mpr (.inl rfl)
  · rw [last.plot, State.emptyRecord_row_self]

theorem State.lapse_settles {s : State} {i : Fin 48} (h : (s.record i).contact ≠ .free) : s.settles (s.lapse i) := by
  have hc : ((s.giveUpTurn i).record i).contact ≠ .free := by rwa [State.giveUpTurn_contact]
  have last := State.offerReason_stays ((s.giveUpTurn i).enterPaging i) i .lapsed
  refine State.settles_cleared (i := i) (((s.giveUpTurn_moves i).trans (State.enterPaging_moves hc)).trans last.tomoves)
    (fun j e => ?_) ?_ ?_ ?_ <;> unfold State.lapse
  · rw [last.plot]
    exact (State.row_modifyRecord_ne _ _ e).trans (s.giveUpTurn_row_ne e)
  · exact last.cells
  · rw [last.plot]
    exact ContactState.bare_iff.mpr (.inr (.inl (congrArg Prod.fst (State.enterPaging_row_self _ i))))
  · rw [last.plot, State.enterPaging_row_self, State.giveUpTurn_row_self]

theorem State.lapseGrant_settles {s : State} {i : Fin 48} (h : (s.record i).contact ≠ .free) :
    s.settles (s.lapseGrant i) := by
  obtain ⟨u, hu⟩ : ∃ u, u = (s.endSummon i .failed).dropClaim i := ⟨_, rfl⟩
  have first : s.stays u := hu ▸ (s.endSummon_stays i _).trans (State.dropClaim_stays _ i)
  have hc : (u.record i).contact ≠ .free := by rwa [first.contact]
  have e : s.lapseGrant i =
      if (u.record i).pinned then ((u.withdrawGrant i).giveUpTurn i).becomeDormant i
      else u.becomeFree i true (some .retired) := by
    rw [hu]
    rfl
  rw [e]
  split
  · exact first.settles.trans ((u.withdrawGrant_stays i).settles.trans
      (State.dormant_settles (s := u.withdrawGrant i) hc (State.stays.refl _)))
  · exact first.settles.trans (u.becomeFree_settles i true _)

theorem State.completeRelease_settles {s : State} {i : Fin 48} (h : (s.record i).contact ≠ .free) :
    s.settles (s.completeRelease i) := by
  unfold State.completeRelease
  split
  · have drop : ((s.withdrawGrant i).giveUpTurn i).stays
        (((s.withdrawGrant i).giveUpTurn i).modifyRecord i fun r => { r with inFlight := none }) :=
      ⟨State.modifyRecord_moves ⟨Iff.rfl, rfl, rfl, rfl, nofun, rfl, rfl, rfl⟩ (.inl rfl),
        State.modifyRecord_plot_self rfl rfl rfl⟩
    exact (s.withdrawGrant_stays i).settles.trans
      (State.dormant_settles (s := s.withdrawGrant i) h (drop.trans (State.markLeft_stays _ i)))
  · exact s.becomeFree_settles i true _

theorem State.openContext_stays (s : State) (i : Fin 48) (role : HandoverRole) (peer : Nat) (level : Option Nat) :
    s.stays (s.openContext i role peer level) :=
  s.giveContext_stays i
    { role := role, peer := peer, tries := 1, deadline := s.deadlineNow, due := true, claimLevel := level }

theorem State.acceptClaim_settles {s : State} {i : Fin 48} (claimant : Nat) (h : (s.record i).contact ≠ .free) :
    s.settles (s.acceptClaim i claimant) := by
  obtain ⟨u, hu⟩ : ∃ u, u = ((s.withdrawGrant i).giveUpTurn i).passOver i := ⟨_, rfl⟩
  obtain ⟨v, hv⟩ : ∃ v, v = u.modifyRecord i
    fun r => { r with contact := .outbound, pageCount := 0, lastHanding := none } := ⟨_, rfl⟩
  have first : s.moves u := hu ▸ ((s.withdrawGrant_stays i).tomoves.trans (State.giveUpTurn_moves _ i)).trans
    (State.passOver_stays _ i).tomoves
  have plot : u.plot = ((s.withdrawGrant i).giveUpTurn i).plot := hu ▸ rfl
  have hc : (u.record i).contact ≠ .free := by
    have e : (u.record i).contact = (((s.withdrawGrant i).giveUpTurn i).record i).contact :=
      congrArg (fun p => (p.1 i).1) plot
    rw [e, State.giveUpTurn_contact]
    exact h
  have middle : u.moves v := hv ▸ State.setContact_moves hc (by simp) (.inl rfl)
  have last : v.stays (s.acceptClaim i claimant) := by
    have := ((v.openContext_stays i .handing claimant none).trans (State.endSummon_stays _ i .handed)).trans
      (State.markLeft_stays _ i)
    rw [hv, hu] at this ⊢
    exact this
  refine State.settles_cleared (i := i) ((first.trans middle).trans last.tomoves) (fun j e => ?_) ?_ ?_ ?_
  · rw [last.plot, hv, State.row_modifyRecord_ne _ _ e, plot, State.giveUpTurn_row_ne _ e]
    rfl
  · rw [last.cells, hv]
    refine (congrArg Prod.snd plot).trans ?_
    show ((s.withdrawGrant i).freeCellsOf i).cells = _
    simp only [State.freeCellsOf, State.freeCellsWhere_cells]
    rfl
  · rw [last.plot, hv, State.row_modifyRecord_self]
    exact ContactState.bare_iff.mpr (.inr (.inr (.inr rfl)))
  · rw [last.plot, hv, State.row_modifyRecord_self]
    exact congrArg Prod.snd ((congrFun (congrArg Prod.fst plot) i).trans (State.giveUpTurn_row_self _ i))

/-- A record without a turn enters PAGING. -/
theorem State.enterPaging_settles {s : State} {i : Fin 48} (h : (s.record i).contact ≠ .free)
    (hb : (s.record i).contact.bare) : s.settles (s.enterPaging i) :=
  State.settles_bare (i := i) (State.enterPaging_moves h) (fun j e => s.row_modifyRecord_ne _ e) rfl hb
    (ContactState.bare_iff.mpr (.inr (.inl (congrArg Prod.fst (s.enterPaging_row_self i)))))
    (by rw [State.enterPaging_row_self])

theorem State.fallToPaging_settles (s : State) (i : Fin 48) (peer : Nat) : s.settles (s.fallToPaging i peer) := by
  unfold State.fallToPaging
  split
  case isFalse => exact (s.dropContext_stays i).settles
  case isTrue h =>
    have h' : (s.record i).contact = .outbound := by simpa using h
    refine (State.enterPaging_settles (by rw [h']; simp) (ContactState.bare_iff.mpr (.inr (.inr (.inr h'))))).trans ?_
    exact State.stays.settles ⟨State.modifyRecord_moves ⟨Iff.rfl, rfl, rfl, rfl, fun _ e => e, rfl, rfl, rfl⟩ (.inr rfl),
      State.modifyRecord_plot_self rfl rfl rfl⟩

theorem State.loseContext_settles (s : State) (i : Fin 48) : s.settles (s.loseContext i) := by
  unfold State.loseContext
  (repeat' split)
  · exact (s.lapseClaim_stays i).settles
  · exact s.fallToPaging_settles i _
  · exact .refl s

theorem State.losePort_settles (s : State) (p : Port) : s.settles (s.losePort p) :=
  foldl_rel State.settles.refl State.settles.trans (fun u i => by
    split
    · exact u.loseContext_settles i
    · exact .refl u) allRecords s

/-- A PAGING record that is used up becomes DORMANT or FREE (R86). -/
theorem State.exhaust_settles {s : State} {i : Fin 48} (h : (s.record i).contact = .paging) : s.settles (s.exhaust i) := by
  obtain ⟨u, hu⟩ : ∃ u, u = s.endSummon i .failed := ⟨_, rfl⟩
  have first : s.stays u := hu ▸ s.endSummon_stays i _
  have hc : (u.record i).contact = .paging := by rw [first.contact, h]
  have e : s.exhaust i = if (u.record i).pinned then u.becomeDormant i else u.becomeFree i true (some .retired) := by
    rw [hu]
    rfl
  rw [e]
  split
  · refine first.settles.trans (State.settles_bare (i := i) (State.becomeDormant_moves (by rw [hc]; simp))
      (fun j e => u.becomeDormant_row_ne e) (State.becomeDormant_cells u i) (ContactState.bare_iff.mpr (.inr (.inl hc))) ?_ ?_)
    · rw [State.becomeDormant_row_self]
      exact ContactState.bare_iff.mpr (.inr (.inr (.inl rfl)))
    · rw [State.becomeDormant_row_self]
  · exact first.settles.trans (u.becomeFree_settles i true _)

theorem State.exhaustPages_settles (s : State) : s.settles s.exhaustPages :=
  foldl_rel State.settles.refl State.settles.trans (fun u i => by
    split
    case isTrue h =>
      simp only [Bool.and_eq_true, beq_iff_eq] at h
      exact State.exhaust_settles h.1
    case isFalse => exact .refl u) allRecords s

theorem State.unpinRecord_settles (s : State) (i : Fin 48) : s.settles (s.unpinRecord i) := by
  unfold State.unpinRecord
  split
  case isFalse => exact .refl s
  case isTrue =>
    refine (s.dropPin_stays i).settles.trans ?_
    show (s.dropPin i).settles (if ((s.dropPin i).record i).contact == .dormant then _ else _)
    split
    · exact State.becomeFree_settles _ i true none
    · exact .refl _

/-! ## Changes of a turn -/

/-- A record in a state with a turn loses its loans and its pending turn, and comes to another such state. -/
theorem planFits_released {c c' : ContactState} {turn target : Option Turn} {holds kept : Nat → Nat → CellRole → Prop}
    (h : planFits (c, turn, target) holds) (hc : ¬ c.bare) (hc' : ¬ c'.bare)
    (hk : ∀ slot phase role, kept slot phase role ↔ holds slot phase role ∧ role ≠ .lent ∧ role ≠ .pending) :
    planFits (c', turn, none) kept := by
  obtain ⟨hturn, -, cells, -, held⟩ := h
  refine ⟨iff_of_true (hturn.mpr (not_not.mp hc)) (not_not.mp hc'), by simp, fun t e => ?_, nofun,
    fun slot phase role e => ?_⟩
  · obtain ⟨plan, all⟩ := cells t e
    refine ⟨plan, fun f hf => ?_⟩
    simp only [hk]
    exact (all f hf).imp (fun h => ⟨h, by simp, by simp⟩) fun h => ⟨h, by simp, by simp⟩
  · obtain ⟨e, h1, h2⟩ := (hk slot phase role).mp e
    have := held slot phase role e
    cases role with
    | lent => exact absurd rfl h1
    | pending => exact absurd rfl h2
    | _ => exact this

theorem State.freeRoleOf_holds (s : State) (i j : Fin 48) (r role : CellRole) (slot phase : Nat) :
    (s.freeRoleOf i r).holds j slot phase role ↔ s.holds j slot phase role ∧ ¬ (j = i ∧ role = r) := by
  rw [State.freeRoleOf, State.freeCellsWhere_holds]
  simp

theorem State.cancelRetune_moves (s : State) (i : Fin 48) : s.moves (s.cancelRetune i) :=
  (s.freeCellsWhere_moves _).trans
    (State.modifyRecord_moves ⟨Iff.rfl, rfl, rfl, rfl, fun _ e => e, rfl, rfl, rfl⟩ (.inl rfl))

theorem State.cancelRetune_row_self (s : State) (i : Fin 48) :
    (s.cancelRetune i).plot.1 i = ((s.record i).contact, (s.record i).turn, none) := by
  refine (State.row_modifyRecord_self _ i _).trans ?_
  simp only [State.record_congr (State.freeRoleOf_roster s i .pending), Option.map_none]

theorem State.cancelRetune_row_ne (s : State) {i j : Fin 48} (h : j ≠ i) : (s.cancelRetune i).plot.1 j = s.plot.1 j :=
  (State.row_modifyRecord_ne _ _ h).trans (congrFun (State.freeCellsWhere_rows s _) j)

theorem State.cancelRetune_holds (s : State) (i j : Fin 48) (slot phase : Nat) (role : CellRole) :
    (s.cancelRetune i).holds j slot phase role ↔ s.holds j slot phase role ∧ ¬ (j = i ∧ role = .pending) :=
  s.freeRoleOf_holds i j .pending role slot phase

/-- A record in a state with a turn comes to another such state, its loans and its retune gone (R51, R91). -/
theorem State.settles_released {s u v t : State} {i : Fin 48} (hu : s.moves u) (hrow : ∀ j, j ≠ i → u.plot.1 j = s.plot.1 j)
    (hc : u.cells = s.cells) (hturn : (u.record i).turn = (s.record i).turn) (hs : ¬ (s.record i).contact.bare)
    (hu' : ¬ (u.record i).contact.bare) (hv : v = (u.freeRoleOf i .lent).cancelRetune i) (ht : v.stays t) :
    s.settles t := by
  have hv' : u.moves v := hv ▸ (u.freeCellsWhere_moves _).trans (State.cancelRetune_moves _ i)
  have holds : ∀ j slot phase role, t.holds j slot phase role ↔
      s.holds j slot phase role ∧ ¬ (j = i ∧ role = .lent) ∧ ¬ (j = i ∧ role = .pending) := by
    intro j slot phase role
    rw [State.holds_of_cells ht.cells, hv, State.cancelRetune_holds, State.freeRoleOf_holds, State.holds_of_cells hc,
      and_assoc]
  refine ⟨(hu.trans hv').trans ht.tomoves, State.planConsistent_of_one i (fun j e => ?_) (fun j e slot phase role => ?_)
    fun h => ?_⟩
  · rw [ht.plot, hv, State.cancelRetune_row_ne _ e, ← hrow j e]
    exact congrFun (State.freeCellsWhere_rows u _) j
  · simp [holds, e]
  · have row : t.plot.1 i = ((u.record i).contact, (s.record i).turn, none) := by
      rw [ht.plot, hv, State.cancelRetune_row_self, State.record_congr (State.freeRoleOf_roster u i .lent), hturn]
    rw [row]
    exact planFits_released h hs hu' fun slot phase role => by simp [holds]

theorem State.releaseRecord_settles {s : State} {i : Fin 48}
    (h : (s.record i).contact = .granted ∨ (s.record i).contact = .present) : s.settles (s.releaseRecord i) := by
  obtain ⟨u, hu⟩ : ∃ u, u = s.modifyRecord i fun r => { r with contact := .releasing } := ⟨_, rfl⟩
  have free : (s.record i).contact ≠ .free := by rcases h with h | h <;> rw [h] <;> simp
  have hrec : u.record i = { s.record i with contact := .releasing } := hu ▸ State.record_modifyRecord s i _
  have last : ((u.freeRoleOf i .lent).cancelRetune i).stays (s.releaseRecord i) := by
    have := ((State.withdrawGrant_stays ((u.freeRoleOf i .lent).cancelRetune i) i).trans
      (State.endSummon_stays _ i .cancelled)).trans (State.dropClaim_stays _ i)
    rw [hu] at this ⊢
    exact this
  refine State.settles_released (i := i) (u := u) (hu ▸ State.setContact_moves free (by simp) (.inl rfl))
    (fun j e => hu ▸ s.row_modifyRecord_ne _ e) (hu ▸ rfl) (by rw [hrec]) ?_ ?_ rfl last
  · rcases h with h | h <;> rw [h] <;> simp [ContactState.bare]
  · rw [hrec]
    simp [ContactState.bare]

theorem State.makeContact_settles (s : State) (i : Fin 48) : s.settles (s.makeContact i) := by
  unfold State.makeContact
  split
  case isFalse => exact .refl s
  case isTrue h =>
    have h' : (s.record i).contact = .granted := by simpa using h
    have first : s.moves (s.modifyRecord i fun r => { r with contact := .present }) :=
      State.setContact_moves (by rw [h']; simp) (by simp) (.inl rfl)
    refine State.settles.trans ⟨first, State.planConsistent_of_one i (fun j e => s.row_modifyRecord_ne _ e)
      (fun j _ _ _ _ => Iff.rfl) fun fits => ?_⟩ ((State.offerReason_stays _ _ _).trans (State.endSummon_stays _ _ _)).settles
    rw [State.row_modifyRecord_self]
    obtain ⟨turn, retune, cells, pending, held⟩ := fits
    refine ⟨iff_of_true (turn.mpr (.inl h')) (.inr (.inl rfl)), fun _ => rfl, cells, pending, fun slot phase role e => ?_⟩
    have := held slot phase role e
    cases role with
    | lent => rfl
    | _ => exact this

theorem State.cancelRetune_settles (s : State) (i : Fin 48) : s.settles (s.cancelRetune i) := by
  refine ⟨s.cancelRetune_moves i, State.planConsistent_of_one i (fun j e => s.cancelRetune_row_ne e)
    (fun j e slot phase role => by simp [State.cancelRetune_holds, e]) fun fits => ?_⟩
  rw [State.cancelRetune_row_self]
  obtain ⟨turn, retune, cells, pending, held⟩ := fits
  refine ⟨turn, by simp, fun t e => ?_, nofun, fun slot phase role e => ?_⟩
  · obtain ⟨plan, all⟩ := cells t e
    refine ⟨plan, fun f hf => ?_⟩
    simpa [State.cancelRetune_holds] using all f hf
  · obtain ⟨e, h⟩ := (s.cancelRetune_holds i i slot phase role).mp e
    have := held slot phase role e
    cases role with
    | pending => exact absurd ⟨rfl, rfl⟩ h
    | _ => exact this

theorem State.failRetune_settles (s : State) (i : Fin 48) : s.settles (s.failRetune i) :=
  (s.cancelRetune_settles i).trans ((State.setSoft_stays _ _ _).trans (State.offerReason_stays _ _ _)).settles

theorem State.tryRetune_settles (s : State) (i : Fin 48) : s.settles (s.tryRetune i) := by
  unfold State.tryRetune
  split
  case h_2 => exact .refl s
  case h_1 c hc =>
    have first : s.stays (s.modifyRecord i fun r =>
        { r with retune := some { c with tries := satAdd Config.retuneTries c.tries } }) :=
      State.modifyRecord_stays (by simp only [Record.bones, hc, Option.map_some])
    dsimp only
    split
    · exact first.settles.trans (State.failRetune_settles _ i)
    · exact first.settles

/-- A turn reserved for a record in PRESENT without one: its cells PENDING (R68). -/
theorem State.reserveRetune_settles {s : State} {i : Fin 48} {t : Turn} (hc : (s.record i).contact = .present)
    (hr : (s.record i).retune = none) (ht : t.inPlan) (hfree : s.placeFree t = true) : s.settles (s.reserveRetune i t) := by
  obtain ⟨u, hu⟩ : ∃ u, u = s.giveTurnCells i t .pending := ⟨_, rfl⟩
  have hrec : ∀ j, u.record j = s.record j := fun j => hu ▸ State.record_congr (State.giveTurnCells_roster s i t .pending) j
  have hmoves : s.moves (u.modifyRecord i fun r => { r with retune := some { target := t, tries := 0 } }) :=
    (hu ▸ s.giveTurnCells_moves i t .pending).trans
      (State.modifyRecord_moves ⟨Iff.rfl, rfl, rfl, rfl, fun _ e => e, rfl, rfl, rfl⟩ (.inl rfl))
  have holds : ∀ j slot phase role,
      (u.modifyRecord i fun r => { r with retune := some { target := t, tries := 0 } }).holds j slot phase role ↔
        (slot = t.slot ∧ phase ∈ t.phases ∧ j = i ∧ role = .pending) ∨ s.holds j slot phase role := by
    intro j slot phase role
    rw [← State.giveTurnCells_holds ht hfree, ← hu]
    rfl
  unfold State.reserveRetune
  rw [← hu]
  refine ⟨hmoves, State.planConsistent_of_one i (fun j e => ?_) (fun j e slot phase role => by simp [holds, e]) fun fits => ?_⟩
  · rw [State.row_modifyRecord_ne _ _ e, hu, State.giveTurnCells_rows]
  · rw [State.row_modifyRecord_self, hrec, hc]
    obtain ⟨turn, -, cells, -, held⟩ := fits
    refine ⟨iff_of_true (turn.mpr (.inr (.inl hc))) (.inr (.inl rfl)), fun _ => rfl, fun w e => ?_, fun w e => ?_,
      fun slot phase role e => ?_⟩
    · obtain ⟨plan, all⟩ := cells w e
      refine ⟨plan, fun f hf => ?_⟩
      simp only [holds]
      exact (all f hf).imp .inr .inr
    · obtain rfl : t = w := by simpa using e
      exact ⟨ht, fun f hf => (holds i t.slot f .pending).mpr (.inl ⟨rfl, hf, rfl, rfl⟩)⟩
    · rcases (holds i slot phase role).mp e with ⟨h1, h2, -, rfl⟩ | e
      · exact ⟨t, rfl, h1.symm, h2⟩
      · have := held slot phase role e
        cases role with
        | pending =>
            obtain ⟨w, e, -⟩ := this
            simp [State.plot, hr] at e
        | lent => rfl
        | _ => exact this

/-- A record without a turn comes to GRANTED with a place of the plan that was free, its cells WAITING (R60). -/
theorem State.settles_allocated {s u t : State} {i : Fin 48} {w : Turn} (hu : s.moves u)
    (hrow : ∀ j, j ≠ i → u.plot.1 j = s.plot.1 j) (hcells : u.cells = s.cells) (hs : (s.record i).contact.bare)
    (hc : (u.record i).contact = .granted) (hr : (u.record i).retune = none ∨ (u.record i).retune = (s.record i).retune)
    (hw : w.inPlan) (hfree : s.placeFree w = true) (ht : (u.allocateTurn i w).stays t) : s.settles t := by
  obtain ⟨v, hv⟩ : ∃ v, v = u.giveTurnCells i w .waiting := ⟨_, rfl⟩
  have hrec : ∀ j, v.record j = u.record j := fun j => hv ▸ State.record_congr (State.giveTurnCells_roster u i w .waiting) j
  have hfree' : u.placeFree w = true := by
    rw [State.placeFree_iff] at hfree ⊢
    exact fun f hf => (State.cell_congr hcells _ _).trans (hfree f hf)
  have moves : u.moves (u.allocateTurn i w) := (u.giveTurnCells_moves i w .waiting).trans
    (State.modifyRecord_moves ⟨Iff.rfl, rfl, rfl, rfl, fun _ e => e, rfl, rfl, rfl⟩ (.inl rfl))
  have holds : ∀ j slot phase role, t.holds j slot phase role ↔
      (slot = w.slot ∧ phase ∈ w.phases ∧ j = i ∧ role = .waiting) ∨ s.holds j slot phase role := by
    intro j slot phase role
    rw [State.holds_of_cells ht.cells, ← State.holds_of_cells hcells, ← State.giveTurnCells_holds hw hfree']
    rfl
  refine ⟨(hu.trans moves).trans ht.tomoves, State.planConsistent_of_one i (fun j e => ?_)
    (fun j e slot phase role => by simp [holds, e]) fun fits => ?_⟩
  · rw [ht.plot, ← hrow j e]
    refine (State.row_modifyRecord_ne _ _ e).trans ?_
    rw [State.giveTurnCells_rows]
  · obtain ⟨bare, empty⟩ := fits.of_bare hs
    have unset : (u.record i).retune = none :=
      hr.elim id fun e => e.trans (Option.map_eq_none_iff.mp (congrArg Prod.snd bare))
    have row : t.plot.1 i = (.granted, some w, none) := by
      rw [ht.plot]
      refine (State.row_modifyRecord_self _ i _).trans ?_
      rw [← hv]
      simp only [hrec, hc, unset, Option.map_none]
    have only : ∀ slot phase role, t.holds i slot phase role ↔ slot = w.slot ∧ phase ∈ w.phases ∧ role = .waiting := by
      intro slot phase role
      rw [holds]
      simp [empty]
    rw [row]
    refine ⟨by simp, by simp, fun x e => ?_, nofun, fun slot phase role e => ?_⟩
    · obtain rfl : w = x := by simpa using e
      exact ⟨hw, fun f hf => .inr ((only _ _ _).mpr ⟨rfl, hf, rfl⟩)⟩
    · obtain ⟨h1, h2, rfl⟩ := (only _ _ _).mp e
      exact ⟨w, rfl, h1.symm, h2⟩

theorem State.loanSlot_free {s : State} {slot k : Nat} (h : s.loanSlot slot = some k) :
    slot < k ∧ k ≤ 31 ∧ s.cell k s.phase = none := by
  have hm := List.mem_of_find?_eq_some h
  have hf := List.find?_some h
  unfold slotsAfter at hm
  simp only [List.mem_map, List.mem_range] at hm
  obtain ⟨n, hn, rfl⟩ := hm
  exact ⟨by omega, by omega, by simpa [State.cellFree] using hf⟩

/-- A loan to a record in PRESENT (R65). -/
theorem State.lend_settles (s : State) (i : Fin 48) {slot : Nat} (hslot : 3 ≤ slot) : s.settles (s.lend i slot) := by
  unfold State.lend
  dsimp only
  split
  case isFalse => exact .refl s
  case isTrue hc =>
    simp only [Bool.and_eq_true, beq_iff_eq] at hc
    obtain ⟨⟨hpresent, -⟩, -⟩ := hc
    split
    case h_2 => exact .refl s
    case h_1 k hk =>
      obtain ⟨h1, h2, hfree⟩ := State.loanSlot_free hk
      have give : s.moves (s.giveCell k s.phase { holder := i, role := .lent }) :=
        State.moves_of_same ⟨rfl, rfl, rfl, .inl rfl⟩ ⟨rfl, rfl, rfl, rfl, rfl, rfl, rfl, rfl⟩ rfl
      have count : (s.giveCell k s.phase { holder := i, role := .lent }).stays
          ((s.giveCell k s.phase { holder := i, role := .lent }).modifyRecord i
            fun r => { r with extensions := r.extensions + 1 }) := State.modifyRecord_stays rfl
      have holds : ∀ j a f role, (s.giveCell k s.phase { holder := i, role := .lent }).holds j a f role ↔
          (a = k ∧ f = s.phase ∧ j = i ∧ role = .lent) ∨ s.holds j a f role := by
        intro j a f role
        unfold State.holds
        rw [State.giveCell_cell s _ (by omega) h2 (show s.phase < 8 from Nat.mod_lt _ (by decide))]
        split
        case isTrue h =>
          obtain ⟨rfl, rfl⟩ := h
          simp [hfree, eq_comm]
        case isFalse h =>
          constructor
          · exact .inr
          · rintro (⟨e1, e2, -⟩ | e)
            · exact absurd ⟨e1, e2⟩ h
            · exact e
      refine State.settles.trans ⟨give, State.planConsistent_of_one i (fun _ _ => rfl)
        (fun j e a f role => by simp [holds, e]) fun fits => ?_⟩ count.settles
      obtain ⟨turn, retune, cells, pending, held⟩ := fits
      refine ⟨turn, retune, fun t e => ?_, fun t e => ?_, fun a f role e => ?_⟩
      · obtain ⟨plan, all⟩ := cells t e
        exact ⟨plan, fun f hf => (all f hf).imp (fun h => (holds _ _ _ _).mpr (.inr h)) fun h => (holds _ _ _ _).mpr (.inr h)⟩
      · obtain ⟨plan, all⟩ := pending t e
        exact ⟨plan, fun f hf => (holds _ _ _ _).mpr (.inr (all f hf))⟩
      · rcases (holds i a f role).mp e with ⟨-, -, -, rfl⟩ | e
        · exact hpresent
        · exact held a f role e

end Sys2Proof.Machine

/-! The cycle end, retunes, exchanges, pages and hails. -/

namespace Sys2Proof.Machine

/-! ## The plan at the ends of cycles, and a retune confirmed (R62, R63, R71) -/

theorem State.cell_map (s t : State) (g : CellHolding → CellHolding)
    (h : t.cells = s.cells.map fun c => c.map g) (slot phase : Nat) :
    t.cell slot phase = (s.cell slot phase).map g := by
  by_cases hin : 3 ≤ slot ∧ slot ≤ 31 ∧ phase < 8
  · obtain ⟨h1, h2, h3⟩ := hin
    rw [State.cell_eq _ h1 h2 h3, State.cell_eq _ h1 h2 h3]
    simp only [h, Vector.getElem_map]
  · simp [State.cell, hin]

theorem State.ageCells_holds (s : State) (i : Fin 48) (slot phase : Nat) (role : CellRole) :
    s.ageCells.holds i slot phase role ↔
      (role = .turn ∧ s.holds i slot phase .waiting) ∨ (role ≠ .waiting ∧ s.holds i slot phase role) := by
  unfold State.holds
  rw [State.cell_map s s.ageCells CellHolding.aged rfl]
  cases s.cell slot phase with
  | none => simp
  | some c =>
      obtain ⟨holder, r⟩ := c
      cases r <;> cases role <;> simp [CellHolding.aged]

theorem State.ageCells_settles (s : State) : s.settles s.ageCells := by
  refine ⟨State.moves_of_same ⟨rfl, rfl, rfl, .inl rfl⟩ ⟨rfl, rfl, rfl, rfl, rfl, rfl, rfl, rfl⟩ rfl, fun h => ?_⟩
  rw [State.planConsistent_iff] at *
  intro i
  obtain ⟨turn, retune, cells, pending, held⟩ := h i
  refine ⟨turn, retune, fun t e => ?_, fun t e => ?_, fun slot phase role e => ?_⟩
  · obtain ⟨plan, all⟩ := cells t e
    refine ⟨plan, fun f hf => .inl ((s.ageCells_holds i t.slot f .turn).mpr ?_)⟩
    exact (all f hf).elim (fun h => .inr ⟨by simp, h⟩) fun h => .inl ⟨rfl, h⟩
  · obtain ⟨plan, all⟩ := pending t e
    exact ⟨plan, fun f hf => (s.ageCells_holds i t.slot f .pending).mpr (.inr ⟨by simp, all f hf⟩)⟩
  · rcases (s.ageCells_holds i slot phase role).mp e with ⟨rfl, h⟩ | ⟨-, h⟩
    · exact held slot phase .waiting h
    · exact held slot phase role h

theorem State.endCycle_settles (s : State) : s.settles s.endCycle := by
  obtain ⟨u, hu⟩ : ∃ u, u = s.freeCellsWhere fun h => h.role == .lent := ⟨_, rfl⟩
  have free : s.settles u := by
    refine ⟨hu ▸ s.freeCellsWhere_moves _, fun h => ?_⟩
    rw [State.planConsistent_iff] at *
    intro i
    have rows : u.plot.1 = s.plot.1 := hu ▸ s.freeCellsWhere_rows _
    have holds : ∀ slot phase role, u.holds i slot phase role ↔ s.holds i slot phase role ∧ role ≠ .lent := by
      intro slot phase role
      rw [hu, State.freeCellsWhere_holds]
      simp
    obtain ⟨turn, retune, cells, pending, held⟩ := h i
    rw [rows]
    refine ⟨turn, retune, fun t e => ?_, fun t e => ?_, fun slot phase role e => held slot phase role ((holds _ _ _).mp e).1⟩
    · obtain ⟨plan, all⟩ := cells t e
      exact ⟨plan, fun f hf => (all f hf).imp (fun h => (holds _ _ _).mpr ⟨h, by simp⟩) fun h =>
        (holds _ _ _).mpr ⟨h, by simp⟩⟩
    · obtain ⟨plan, all⟩ := pending t e
      exact ⟨plan, fun f hf => (holds _ _ _).mpr ⟨all f hf, by simp⟩⟩
  have e : s.endCycle =
      { u with roster := { u.roster with records := u.roster.records.map fun r => { r with extensions := 0 } } } := hu ▸ rfl
  have hrec : ∀ j, s.endCycle.record j = { u.record j with extensions := 0 } := by
    intro j
    rw [e]
    simp [State.record]
  refine free.trans (State.stays.settles ⟨State.moves_of_records (e ▸ ⟨rfl, rfl, rfl, .inl rfl⟩)
    (e ▸ ⟨rfl, rfl, rfl, rfl, rfl, rfl, rfl, rfl⟩) (fun j => hrec j ▸ Record.follows_of_bones rfl)
    (fun j => .inl (by rw [hrec j])), Prod.ext (funext fun j => ?_) (e ▸ rfl)⟩)
  simp only [State.plot, hrec]

/-- The role of a held cell after a retune of record `i` is confirmed: its PENDING cells WAITING, the others as they were. -/
theorem State.confirmed_holds {s t : State} {i : Fin 48}
    (h : t.cells = s.cells.map fun c => c.map (CellHolding.confirmed i)) (j : Fin 48) (slot phase : Nat) (role : CellRole) :
    t.holds j slot phase role ↔
      (j = i ∧ role = .waiting ∧ s.holds j slot phase .pending)
        ∨ (¬ (j = i ∧ role = .pending) ∧ s.holds j slot phase role) := by
  unfold State.holds
  rw [State.cell_map s t _ h]
  cases s.cell slot phase with
  | none => simp
  | some c =>
      obtain ⟨holder, r⟩ := c
      by_cases e : holder = i
      · subst e
        cases r <;> cases role <;> simp [CellHolding.confirmed, eq_comm (a := holder)]
      · have e' : (holder == i) = false := by simpa using e
        simp only [CellHolding.confirmed, e', Bool.false_and, Bool.false_eq_true, if_false, Option.map_some,
          Option.some.injEq, CellHolding.mk.injEq]
        constructor
        · rintro ⟨rfl, rfl⟩
          exact .inr ⟨fun h => e h.1, rfl, rfl⟩
        · rintro (⟨rfl, -, e2, -⟩ | ⟨-, h⟩)
          · exact absurd e2 e
          · exact h

theorem State.confirmRetune_settles (s : State) (i : Fin 48) : s.settles (s.confirmRetune i) := by
  unfold State.confirmRetune
  split
  case h_2 => exact .refl s
  case h_1 c hc =>
    obtain ⟨u, hu⟩ : ∃ u, u = s.freeCellsWhere fun h => h.holder == i && (h.role == .turn || h.role == .waiting) := ⟨_, rfl⟩
    obtain ⟨v, hv⟩ : ∃ v, v = ({ u with cells := u.cells.map fun x => x.map (CellHolding.confirmed i) } : State) := ⟨_, rfl⟩
    have first : s.moves u := hu ▸ s.freeCellsWhere_moves _
    have second : u.moves v := hv ▸ State.moves_of_same ⟨rfl, rfl, rfl, .inl rfl⟩ ⟨rfl, rfl, rfl, rfl, rfl, rfl, rfl, rfl⟩ rfl
    have third : v.moves (v.modifyRecord i fun r => { r with turn := some c.target, retune := none }) :=
      State.modifyRecord_moves ⟨Iff.rfl, rfl, rfl, rfl, fun _ e => e, rfl, rfl, rfl⟩ (.inl rfl)
    have rows : v.plot.1 = s.plot.1 := by
      rw [hv]
      exact hu ▸ s.freeCellsWhere_rows _
    have holds : ∀ j slot phase role,
        (v.modifyRecord i fun r => { r with turn := some c.target, retune := none }).holds j slot phase role ↔
          (j = i ∧ role = .waiting ∧ s.holds j slot phase .pending)
            ∨ (¬ (j = i ∧ role ≠ .lent) ∧ s.holds j slot phase role) := by
      intro j slot phase role
      rw [State.holds_of_cells (t := v.modifyRecord i _) (s := v) rfl, State.confirmed_holds (s := u) (by rw [hv]), hu, State.freeCellsWhere_holds,
        State.freeCellsWhere_holds]
      cases role <;> simp [and_comm]
    dsimp only
    rw [← hu, ← hv]
    refine State.settles.trans ⟨(first.trans second).trans third, State.planConsistent_of_one i (fun j e => ?_)
      (fun j e slot phase role => by simp [holds, e]) fun fits => ?_⟩ (State.offerReason_stays _ _ _).settles
    · rw [State.row_modifyRecord_ne _ _ e, rows]
    · have contact : (v.record i).contact = (s.record i).contact := congrArg (fun p => (p i).1) rows
      have target : (s.plot.1 i).2.2 = some c.target := by simp [State.plot, hc]
      obtain ⟨turn, retune, cells, pending, held⟩ := fits
      have present := retune (by rw [target]; simp)
      obtain ⟨plan, all⟩ := pending c.target target
      rw [State.row_modifyRecord_self, contact]
      refine ⟨iff_of_true (by simp) (.inr (.inl present)), by simp, fun t e => ?_, nofun, fun slot phase role e => ?_⟩
      · obtain rfl : c.target = t := by simpa using e
        exact ⟨plan, fun f hf => .inr ((holds _ _ _ _).mpr (.inl ⟨rfl, rfl, all f hf⟩))⟩
      · rcases (holds i slot phase role).mp e with ⟨-, rfl, h⟩ | ⟨h, -⟩
        · obtain ⟨t, e1, e2⟩ := held slot phase .pending h
          rw [target] at e1
          exact ⟨t, e1, e2⟩
        · cases role with
          | lent => exact present
          | _ => exact absurd ⟨rfl, by simp⟩ h

/-! ## Polls, and what an exchange comes to (R75 to R82, R108 to R117) -/

theorem State.pickMessage_mem {s : State} {r : Record} {b : Fin 64} (h : s.pickMessage r = some b) : b ∈ r.messages := by
  have lane : ∀ l, s.startable r l = some b → b ∈ r.messages := by
    intro l e
    unfold State.startable at e
    split at e
    · exact List.mem_of_find?_eq_some e
    · exact absurd e (by simp)
  unfold State.pickMessage at h
  rcases Option.or_eq_some_iff.mp h with e | ⟨-, e⟩
  · exact lane _ e
  · exact lane _ e

theorem State.startForPoll_stays (s : State) (i : Fin 48) : s.stays (s.startForPoll i) := by
  unfold State.startForPoll
  split
  · exact .refl s
  · split
    case h_1 b hb => exact State.startMessage_stays (State.pickMessage_mem hb)
    case h_2 => exact .refl s

theorem State.retireMessage_stays {s : State} {i : Fin 48} {b : Fin 64} (hb : (s.record i).inFlight = some b) :
    s.stays (s.retireMessage i b) :=
  (State.removeMessage_stays hb).trans (State.modifyRecord_stays rfl)

theorem State.deliverMessage_stays (s : State) (i : Fin 48) : s.stays (s.deliverMessage i) := by
  unfold State.deliverMessage
  split
  case h_2 => exact .refl s
  case h_1 b hb =>
    split
    · exact (State.retireMessage_stays hb).trans (State.noteFor_stays _ _ _ _ _)
    · exact .refl s

theorem State.failMessage_stays (s : State) (i : Fin 48) : s.stays (s.failMessage i) := by
  unfold State.failMessage
  split
  case h_2 => exact .refl s
  case h_1 b hb =>
    split
    case h_2 => exact .refl s
    case h_1 m hm =>
      dsimp only
      split
      · exact ((State.retireMessage_stays hb).trans (State.setSoft_stays _ _ _)).trans (State.noteFor_stays _ _ _ _ _)
      · exact State.setBuffer_stays hm rfl

theorem State.acceptUpBit_stays (s : State) (i : Fin 48) (b : Bool) : s.stays (s.acceptUpBit i b) :=
  State.modifyRecord_stays rfl

theorem State.queueInbound_stays {s : State} {i : Fin 48} {body : List Byte} (h : s.inbound.length < 32) :
    s.stays (s.queueInbound i body) := by
  refine ⟨State.moves_of_follows ⟨rfl, rfl, rfl, .inl rfl⟩ (fun _ => .refl _) rfl rfl rfl rfl rfl ?_ id
    (fun k => k.of_fewer rfl rfl fun _ => .inl rfl), rfl⟩
  rintro ⟨-, hp⟩
  refine ⟨?_, hp⟩
  simp only [State.queueInbound, List.length_append, List.length_singleton]
  omega

theorem State.takeInbound_stays (s : State) (i : Fin 48) (m : AnswerMessage) : s.stays (s.takeInbound i m) := by
  unfold State.takeInbound
  (repeat' split)
  · exact .refl s
  case isTrue h => exact (State.queueInbound_stays h).trans (State.acceptUpBit_stays _ _ _)
  · exact .refl s
  · exact (State.offerTraffic_stays s _ _).trans (State.acceptUpBit_stays _ _ _)
  · exact .refl s

theorem State.clearMisses_stays (s : State) (i : Fin 48) : s.stays (s.clearMisses i) := State.modifyRecord_stays rfl

theorem Record.withReading_bones (r : Record) (p : Params) (reading : Nat) : (r.withReading p reading).bones = r.bones := by
  unfold Record.withReading
  dsimp only
  (repeat' split) <;> rfl

theorem State.applyReading_stays (s : State) (i : Fin 48) (reading : Nat) : s.stays (s.applyReading i reading) := by
  have first : s.stays (s.modifyRecord i fun r => r.withReading s.params reading) :=
    State.modifyRecord_stays (Record.withReading_bones _ _ _)
  unfold State.applyReading
  dsimp only
  split
  · exact first.trans (State.offerReason_stays _ _ _)
  · exact first

theorem State.judgeAck_stays (s : State) (i : Fin 48) (poll : Poll) (downAck : Bool) :
    s.stays (s.judgeAck i poll downAck) := by
  unfold State.judgeAck
  (repeat' split)
  · exact s.deliverMessage_stays i
  · exact s.failMessage_stays i
  · exact .refl s

theorem State.takeAnswerMessage_stays (s : State) (i : Fin 48) (a : Answer) : s.stays (s.takeAnswerMessage i a) := by
  unfold State.takeAnswerMessage
  split
  · exact s.takeInbound_stays i _
  · exact .refl s

theorem State.matchedExchange_settles (s : State) (i : Fin 48) (poll : Poll) (a : Answer) (level : Nat) {slot : Nat}
    (hslot : 3 ≤ slot) : s.settles (s.matchedExchange i poll a level slot) := by
  obtain ⟨u, hu⟩ : ∃ u, u = (((((s.clearMisses i).makeContact i).applyReading i level).judgeAck i poll a.downAck).takeAnswerMessage
    i a).creditSweep i := ⟨_, rfl⟩
  obtain ⟨v, hv⟩ : ∃ v, v = if poll.retune.isSome then u.confirmRetune i else u := ⟨_, rfl⟩
  have first : s.settles u := hu ▸ ((s.clearMisses_stays i).settles.trans (State.makeContact_settles _ i)).trans
    ((((State.applyReading_stays _ i level).trans (State.judgeAck_stays _ i poll a.downAck)).trans
      (State.takeAnswerMessage_stays _ i a)).trans (State.creditSweep_stays _ i)).settles
  have second : u.settles v := by
    rw [hv]
    split
    · exact u.confirmRetune_settles i
    · exact .refl u
  have e : s.matchedExchange i poll a level slot = if a.more then v.lend i slot else v := by
    rw [hv, hu]
    rfl
  rw [e]
  split
  · exact (first.trans second).trans (v.lend_settles i hslot)
  · exact first.trans second

theorem State.countMiss_stays (s : State) (i : Fin 48) (own : Bool) : s.stays (s.countMiss i own) := by
  unfold State.countMiss
  split
  · exact State.modifyRecord_stays rfl
  · exact .refl s

theorem State.reportIdentity_stays (s : State) : s.stays s.reportIdentity := s.reportCause_stays _ _

theorem State.takeIdentity_stays (s : State) (i : Fin 48) : s.stays (s.takeIdentity i) :=
  (((State.modifyRecord_stays rfl).trans (State.offerReason_stays _ _ _)).trans (State.reportIdentity_stays _)).trans
    (State.dropClaim_stays _ _)

theorem State.countMismatch_stays (s : State) (i : Fin 48) : s.stays (s.countMismatch i) := by
  have first : s.stays ((s.modifyRecord i fun r =>
      { r with mismatchCount := satAdd Config.identityLimit r.mismatchCount }).setSoft i .mismatch) :=
    (State.modifyRecord_stays rfl).trans (State.setSoft_stays _ _ _)
  unfold State.countMismatch
  dsimp only
  split
  · exact first.trans (State.takeIdentity_stays _ i)
  · exact first

theorem State.noteOutcome_stays (s : State) (i : Fin 48) (own : Bool) (o : ExchangeOutcome) :
    s.stays (s.noteOutcome i own o) := by
  unfold State.noteOutcome
  (repeat' split)
  · exact s.countMismatch_stays i
  · exact s.setSoft_stays i _
  all_goals exact .refl s

theorem State.missedExchange_settles (s : State) (i : Fin 48) (own : Bool) (poll : Poll) (o : ExchangeOutcome) :
    s.settles (s.missedExchange i own poll o) := by
  obtain ⟨u, hu⟩ : ∃ u, u = (s.countMiss i own).noteOutcome i own o := ⟨_, rfl⟩
  obtain ⟨v, hv⟩ : ∃ v, v = if poll.message.isSome then u.failMessage i else u := ⟨_, rfl⟩
  obtain ⟨w, hw⟩ : ∃ w, w = if poll.retune.isSome then v.tryRetune i else v := ⟨_, rfl⟩
  have first : s.stays u := hu ▸ (s.countMiss_stays i own).trans (State.noteOutcome_stays _ i own o)
  have second : u.stays v := by
    rw [hv]
    split
    · exact u.failMessage_stays i
    · exact .refl u
  have third : v.settles w := by
    rw [hw]
    split
    · exact v.tryRetune_settles i
    · exact .refl v
  have e : s.missedExchange i own poll o =
      if own && v.lapseDue i then v.lapse i else if own && w.grantLapseDue i then w.lapseGrant i else w := by
    rw [hw, hv, hu]
    rfl
  rw [e]
  refine (first.trans second).settles.trans ?_
  split
  case isTrue h =>
    simp only [State.lapseDue, Bool.and_eq_true, beq_iff_eq] at h
    exact State.lapse_settles (by rw [h.2.1.1]; simp)
  case isFalse =>
    refine third.trans ?_
    split
    case isTrue h =>
      simp only [State.grantLapseDue, Bool.and_eq_true, beq_iff_eq] at h
      exact State.lapseGrant_settles (by rw [h.2.1.1]; simp)
    case isFalse => exact .refl w

theorem State.judgeExchange_settles (s : State) (x : Exchange) (sent : Bool) {slot : Nat} (o : ExchangeOutcome)
    (hslot : 3 ≤ slot) : s.settles (s.judgeExchange x sent slot o) := by
  unfold State.judgeExchange
  (repeat' split)
  case isTrue h =>
    simp only [Bool.and_eq_true, beq_iff_eq] at h
    exact State.completeRelease_settles (by rw [h.2]; simp)
  · exact .refl s
  · exact s.matchedExchange_settles _ _ _ _ hslot
  · exact .refl s
  all_goals exact s.missedExchange_settles _ _ _ _

/-! ## Pages and hails (R42 to R57, R84) -/

theorem State.usePage_stays (s : State) (p : BeaconPage) : s.stays (s.usePage p) := by
  unfold State.usePage
  split
  · exact State.modifyRecord_stays rfl
  · exact .refl s

theorem State.usePages_stays (s : State) (pages : List BeaconPage) : s.stays (s.usePages pages) := by
  have fold := foldl_rel State.stays.refl State.stays.trans State.usePage_stays pages s
  unfold State.usePages
  dsimp only
  split
  · exact fold.trans (State.stays_of_same ⟨rfl, rfl, rfl, .inl rfl⟩ ⟨rfl, rfl, rfl, rfl, rfl, rfl, rfl, rfl⟩ rfl rfl)
  · exact fold

theorem State.openClaim_stays (s : State) (i : Fin 48) (peer level : Nat) : s.stays (s.openClaim i peer level) := by
  unfold State.openClaim
  (repeat' split)
  · exact .refl s
  · exact s.setSoft_stays i _
  · exact s.openContext_stays i _ _ _
  · exact .refl s

theorem State.refuseHail_stays (s : State) (c : ConditionClass) : s.stays (s.refuseHail c) :=
  s.countRefused_stays.trans (State.reportCause_stays _ _ _)

theorem State.noteDegrade_stays (s : State) (i : Fin 48) (asked granted : Period) :
    s.stays (s.noteDegrade i asked granted) := by
  unfold State.noteDegrade
  split
  · exact .refl s
  · exact s.setSoft_stays i _

theorem State.allocatable_free {s : State} {i : Fin 48} (h : s.allocatable = some i) : (s.record i).contact = .free := by
  have := List.find?_some h
  simp only [Bool.and_eq_true, beq_iff_eq] at this
  exact this.1

theorem Hail.newRecord_fresh (h : Hail) (level : Nat) : (h.newRecord level).fresh :=
  ⟨by simp [Hail.newRecord], rfl, rfl, rfl, rfl, rfl, rfl, rfl⟩

theorem State.giveTag_record (s : State) (i : Fin 48) :
    (s.giveTag i).record i = { s.record i with tag := some s.roster.tagCounter } :=
  State.record_modifyRecord s i fun r => { r with tag := some s.roster.tagCounter }

theorem State.admitCar_settles {s : State} {h : Hail} (level : Nat) (hcar : s.lookup h.carId = none) :
    s.settles (s.admitCar h level) := by
  unfold State.admitCar
  (repeat' split)
  · exact (s.refuseHail_stays _).settles
  · exact (s.refuseHail_stays _).settles
  case h_2 i hi _ t ht =>
    obtain ⟨plan, free⟩ := State.findTurn_inPlan ht
    have hfree := State.allocatable_free hi
    obtain ⟨u, hu⟩ : ∃ u, u = (s.setRecord i (h.newRecord level)).giveTag i := ⟨_, rfl⟩
    have tag : (s.setRecord i (h.newRecord level)).stays u := hu ▸ State.giveTag_stays _ i
    have row : ∀ j, (s.setRecord i (h.newRecord level)).record j = if i = j then h.newRecord level else s.record j :=
      fun j => s.record_setRecord_eq i j _
    refine State.settles_allocated (i := i) (u := u) ((State.setRecord_moves hfree (h.newRecord_fresh level) hcar).trans
      tag.tomoves) (fun j e => ?_) (tag.cells.trans rfl) (hfree ▸ ContactState.bare_iff.mpr (.inl rfl)) ?_ ?_ plan free
      (hu ▸ (((State.noteDegrade_stays _ i _ _).trans (State.placeGrant_stays _ i)).trans
        (State.openClaim_stays _ i _ _)).trans (State.countEntered_stays _))
    · rw [tag.plot]
      simp only [State.plot, row, Ne.symm e, if_false]
    · rw [tag.contact, row, if_pos rfl]
      rfl
    · rw [hu, State.giveTag_record, row, if_pos rfl]
      exact .inl rfl

theorem State.regrant_stays (s : State) (i : Fin 48) (level : Nat) : s.stays (s.regrant i level) :=
  (State.modifyRecord_stays rfl).trans (State.placeGrant_stays _ i)

theorem State.reenter_settles {s : State} {i : Fin 48} (h : Hail) (level : Nat) (hc : (s.record i).contact = .present) :
    s.settles (s.reenter i h level) := by
  obtain ⟨u, hu⟩ : ∃ u, u = (s.giveTag i).modifyRecord i fun r => r.takenAfresh h level := ⟨_, rfl⟩
  have tag := s.giveTag_stays i
  have hrec : u.record i = ({ s.record i with tag := some s.roster.tagCounter } : Record).takenAfresh h level := by
    rw [hu, State.record_modifyRecord, State.giveTag_record]
  have free : ((s.giveTag i).record i).contact ≠ .free := by
    rw [tag.contact, hc]
    simp
  refine State.settles_released (i := i) (u := u)
    (hu ▸ tag.tomoves.trans (State.setContact_moves free (by simp [Record.takenAfresh]) (.inl rfl))) (fun j e => ?_)
    (hu ▸ tag.cells) (by rw [hrec]; rfl) ?_ ?_ rfl (hu ▸ (State.setSoft_stays _ i _).trans (State.placeGrant_stays _ i))
  · rw [hu, State.row_modifyRecord_ne _ _ e, tag.plot]
  · rw [hc]
    simp [ContactState.bare]
  · rw [hrec]
    simp [ContactState.bare, Record.takenAfresh]

theorem State.revive_settles {s : State} {i : Fin 48} (h : Hail) (level : Nat)
    (hc : (s.record i).contact = .paging ∨ (s.record i).contact = .dormant) :
    s.settles (s.revive i h level) := by
  unfold State.revive
  split
  · exact (s.refuseHail_stays _).settles
  case h_2 t ht =>
    obtain ⟨plan, free⟩ := State.findTurn_inPlan ht
    have bare : (s.record i).contact.bare := ContactState.bare_iff.mpr (.inr (by tauto))
    obtain ⟨u, hu⟩ : ∃ u, u = (s.giveTag i).modifyRecord i
      fun r => { r.takenAfresh h level with pageCount := 0, lastHanding := none } := ⟨_, rfl⟩
    have tag := s.giveTag_stays i
    have nonfree : ((s.giveTag i).record i).contact ≠ .free := by
      rw [tag.contact]
      rcases hc with e | e <;> rw [e] <;> simp
    have hrec : u.record i = { ({ s.record i with tag := some s.roster.tagCounter } : Record).takenAfresh h level with
        pageCount := 0, lastHanding := none } := by
      rw [hu, State.record_modifyRecord, State.giveTag_record]
    refine State.settles_allocated (i := i) (u := u)
      (hu ▸ tag.tomoves.trans (State.setContact_moves nonfree (by simp [Record.takenAfresh]) (.inl rfl))) (fun j e => ?_)
      (hu ▸ tag.cells) bare (by rw [hrec]; rfl) (by rw [hrec]; exact .inr rfl) plan free
      (hu ▸ ((State.noteDegrade_stays _ i _ _).trans (State.placeGrant_stays _ i)).trans (State.openClaim_stays _ i _ _))
    rw [hu, State.row_modifyRecord_ne _ _ e, tag.plot]

end Sys2Proof.Machine

/-! The Handover Controller, commands on a record and summonses. -/

namespace Sys2Proof.Machine

theorem State.lookup_held {s : State} {car : Nat} {i : Fin 48} (h : s.lookup car = some i) :
    (s.record i).contact ≠ .free ∧ (s.record i).carId = car := by
  have := List.find?_some h
  simpa using this

/-! ## Hails decided (R43, R44) -/

theorem State.decideHail_settles (s : State) (h : Hail) (level : Nat) : s.settles (s.decideHail h level) := by
  have held : s.settles s.countHeld := s.countHeld_stays.settles
  unfold State.decideHail
  split
  case h_1 hl =>
    split
    · exact State.admitCar_settles level hl
    · exact held
  case h_2 i hi =>
    split
    · exact held
    · split
      case h_1 =>
        split
        · exact (s.regrant_stays i level).settles
        · exact held
      case h_2 hc =>
        split
        · exact State.reenter_settles h level hc
        · exact held
      case h_3 hc =>
        split
        · exact State.revive_settles h level (.inl hc)
        · exact held
      case h_4 hc =>
        split
        · exact State.revive_settles h level (.inr hc)
        · exact held
      all_goals exact held

/-! ## The Handover Controller (R142 to R149) -/

theorem State.makeDue_stays (s : State) (i : Fin 48) : s.stays (s.makeDue i) := by
  unfold State.makeDue
  split
  · exact s.giveContext_stays i _
  · exact .refl s

theorem State.decideClaim_accepted {s : State} {claimant car level : Nat} {i : Fin 48}
    (h : s.decideClaim claimant car level = .accepted i) : s.lookup car = some i := by
  unfold State.decideClaim at h
  split at h
  · exact absurd h (by simp)
  case h_2 j hj =>
    rw [hj]
    (repeat' split at h) <;> simp_all

theorem State.takeClaim_settles (s : State) (claimant car level : Nat) : s.settles (s.takeClaim claimant car level) := by
  unfold State.takeClaim
  split
  · exact (s.sendToward_stays _ _).settles
  · exact (s.makeDue_stays _).settles
  case h_3 i h => exact State.acceptClaim_settles claimant (State.lookup_held (State.decideClaim_accepted h)).1

theorem State.placeMessages_stays {s : State} {i : Fin 48} (h : (s.record i).contact ≠ .free) (placed : Nat)
    (messages : List TransferMessage) : s.stays (s.placeMessages i placed messages).1 := by
  induction messages generalizing s placed with
  | nil => exact .refl s
  | cons m rest ih =>
      unfold State.placeMessages
      split
      case isTrue hr =>
        have place : s.stays (s.placeMessage (m.placed i)) := State.placeMessage_stays (m := m.placed i) hr h
        exact place.trans (ih (by rwa [place.contact]) _)
      case isFalse => exact .refl s

theorem State.dropTransferred_stays (s : State) (i : Fin 48) (car : Nat) (dropped : List TransferMessage) :
    s.stays (s.dropTransferred i car dropped) := by
  have notes := foldl_rel (R := State.stays) State.stays.refl State.stays.trans
    (f := fun (u : State) (m : TransferMessage) => u.noteFor car m.source m.receipt .dropped)
    (fun u m => u.noteFor_stays car m.source m.receipt .dropped) dropped s
  unfold State.dropTransferred
  dsimp only
  split
  · exact notes
  · exact notes.trans (State.setSoft_stays _ i _)

theorem State.countPlaced_stays (s : State) (i : Fin 48) : s.stays (s.countPlaced i) := by
  unfold State.countPlaced
  split
  · exact s.countEntered_stays
  · exact .refl s

theorem State.placeTransfer_stays {s : State} {i : Fin 48} (h : (s.record i).contact ≠ .free) (sender car cls : Nat)
    (messages : List TransferMessage) : s.stays (s.placeTransfer i sender car cls messages) := by
  have place := State.placeMessages_stays h 0 messages
  unfold State.placeTransfer
  split
  case h_1 t placed dropped e =>
    rw [e] at place
    obtain ⟨u, hu⟩ : ∃ u, u = t.dropTransferred i car dropped := ⟨_, rfl⟩
    have fields : u.stays (u.modifyRecord i fun r => { r with cls := some cls, origin := some sender, handover := none }) :=
      ⟨State.modifyRecord_moves ⟨Iff.rfl, rfl, rfl, rfl, fun _ e => e, rfl, rfl, rfl⟩ (.inr rfl),
        State.modifyRecord_plot_self rfl rfl rfl⟩
    have first := place.trans (State.dropTransferred_stays t i car dropped)
    rw [← hu] at first
    dsimp only
    rw [← hu]
    exact (first.trans fields).trans (((State.offerReason_stays _ i _).trans (State.countPlaced_stays _ i)).trans
      (State.sendToward_stays _ sender _))

theorem State.takeTransfer_stays (s : State) (port : Port) (sender car cls : Nat) (messages : List TransferMessage) :
    s.stays (s.takeTransfer port sender car cls messages) := by
  unfold State.takeTransfer
  split
  case h_1 i hi =>
    split
    · exact State.placeTransfer_stays (State.lookup_held hi).1 sender car cls messages
    · split
      · exact s.sendToward_stays sender _
      · exact s.countCheckError_stays port
  case h_2 => exact s.countCheckError_stays port

theorem State.takeTaken_settles (s : State) (sender car : Nat) : s.settles (s.takeTaken sender car) := by
  unfold State.takeTaken
  (repeat' split)
  · exact s.becomeFree_settles _ _ _
  all_goals exact .refl s

theorem State.refuseClaiming_settles (s : State) (i : Fin 48) : s.settles (s.refuseClaiming i) := by
  unfold State.refuseClaiming
  refine (s.dropContext_stays i).settles.trans ?_
  dsimp only
  split
  case isTrue h =>
    simp only [Bool.or_eq_true, beq_iff_eq] at h
    exact State.releaseRecord_settles h
  case isFalse => exact .refl _

theorem State.takeRefused_settles (s : State) (sender car : Nat) (reason : RefusedReason) :
    s.settles (s.takeRefused sender car reason) := by
  unfold State.takeRefused
  (repeat' split)
  · exact (s.dropContext_stays _).settles
  · exact s.refuseClaiming_settles _
  · exact s.refuseClaiming_settles _
  all_goals exact .refl s

theorem State.takeHandoverFrame_settles (s : State) (port : Port) (f : BackboneFrame) :
    s.settles (s.takeHandoverFrame port f) := by
  unfold State.takeHandoverFrame
  split
  · exact s.takeClaim_settles _ _ _
  · exact (s.takeTransfer_stays port _ _ _ _).settles
  · exact s.takeTaken_settles _ _
  · exact s.takeRefused_settles _ _ _
  all_goals exact .refl s

/-! ## Expiries (R141, R144) -/

theorem State.reachDeadline_stays (s : State) (c : HandoverContext) : s.stays (s.reachDeadline c) :=
  State.stays_of_same ⟨rfl, rfl, rfl, .inl rfl⟩ ⟨rfl, rfl, rfl, rfl, rfl, rfl, rfl, rfl⟩ rfl rfl

theorem State.nextTry_stays (s : State) (i : Fin 48) (c : HandoverContext) : s.stays (s.nextTry i c) :=
  s.giveContext_stays i { c with tries := c.tries + 1, due := true, deadline := s.deadlineNow }

theorem State.expireClaim_stays (s : State) (i : Fin 48) (c : HandoverContext) : s.stays (s.expireClaim i c) := by
  unfold State.expireClaim
  split
  · exact s.nextTry_stays i c
  · exact s.lapseClaim_stays i

theorem State.expireHanding_settles (s : State) (i : Fin 48) (c : HandoverContext) : s.settles (s.expireHanding i c) := by
  unfold State.expireHanding
  split
  · exact (s.nextTry_stays i c).settles
  · exact s.fallToPaging_settles i c.peer

/-! ## Commands on a record (R30 to R40, R68, R91) -/

theorem State.clearFault_stays (s : State) (i : Fin 48) : s.stays (s.clearFault i) :=
  (State.modifyRecord_stays rfl).trans (State.reportIdentity_stays _)

theorem State.startRetune_settles {s : State} {i : Fin 48} {code : Byte} (h : s.checkRetune i code = none) :
    s.settles (s.startRetune i code) := by
  unfold State.checkRetune at h
  unfold State.startRetune
  cases hp : Period.ofCode code.toNat with
  | none => exact .refl s
  | some p =>
      rw [hp] at h
      simp only [Option.bind_some]
      split
      case h_2 => exact .refl s
      case h_1 t ht =>
        obtain ⟨plan, free⟩ := State.findPlace_inPlan ht
        have fit : ¬ ((s.record i).contact != .present || (s.record i).retune.isSome || (s.record i).handover.isSome
            || (s.record i).hard.isSome) = true := by
          intro e
          simp [e] at h
        simp only [Bool.or_eq_true, bne_iff_ne, ne_eq, not_or, not_not, Option.isSome_iff_ne_none] at fit
        obtain ⟨⟨⟨hc, hr⟩, -⟩, -⟩ := fit
        exact State.reserveRetune_settles hc hr plan free

theorem State.applyCommand_settles {s : State} {i : Fin 48} {c : HeldCommand} (h : s.checkCommand i c = none) :
    s.settles (s.applyCommand i c) := by
  cases c with
  | retire => exact s.becomeFree_settles i true none
  | release =>
      refine State.releaseRecord_settles ?_
      simpa [State.checkCommand, or_iff_not_imp_left] using h
  | retune code => exact State.startRetune_settles h
  | clearFault => exact (s.clearFault_stays i).settles
  | pin =>
      have h' : (s.record i).contact ≠ .free ∧ ((s.record i).pinned = false → s.roster.pinnedCount < 8) := by
        have limit : Config.pinnedLimit = 8 := rfl
        simp only [State.checkCommand, limit] at h
        (repeat' split at h) <;> simp_all
      exact (State.pinRecord_stays h'.1 h'.2).settles
  | unpin => exact s.unpinRecord_settles i

/-! ## Work held for the record in exchange (R36, R37) -/

theorem State.holdWork_stays {s : State} {i : Fin 48} (h : s.inExchange i = true) (w : HeldWork) :
    s.stays (s.holdWork w) := by
  have ongoing : s.air.exchange ≠ none := by
    intro e
    simp [State.inExchange, e] at h
  exact State.stays_of_same ⟨rfl, rfl, rfl, .inr ongoing⟩ ⟨rfl, rfl, rfl, rfl, rfl, rfl, rfl, rfl⟩ rfl rfl

theorem State.refuse_stays (s : State) (status : Status) : s.stays (s.refuse status) := s.respond_stays status []

theorem State.command_settles (s : State) (i : Fin 48) (c : HeldCommand) : s.settles (s.command i c) := by
  unfold State.command
  split
  · exact (s.refuse_stays _).settles
  case h_2 h =>
    refine State.settles.trans ?_ (State.respond_stays _ _ _).settles
    split
    case isTrue hx => exact (State.holdWork_stays hx _).settles
    case isFalse => exact State.applyCommand_settles h

theorem State.takeHeld_settles (i : Fin 48) (s : State) (w : HeldWork) : s.settles (State.takeHeld i s w) := by
  unfold State.takeHeld
  (repeat' split)
  · exact s.takeHandoverFrame_settles _ _
  · exact .refl s
  case h_2 h => exact State.applyCommand_settles h

theorem State.keepRecord_stays (s : State) (i : Fin 48) (keep : Bool) : s.stays (s.keepRecord i keep) := by
  unfold State.keepRecord
  split
  · exact s.refuse_stays _
  · exact (State.modifyRecord_stays rfl).trans (State.respond_stays _ _ _)

theorem State.findCar_stays (s : State) (car : Nat) : s.stays (s.findCar car) := by
  unfold State.findCar State.refuse
  (repeat' split) <;> exact s.respond_stays _ _

theorem State.postTo_stays (s : State) (i : Fin 48) (urgency : Byte) (body : List Byte) :
    s.stays (s.postTo i urgency body) := by
  unfold State.postTo
  (repeat' split)
  case h_2.isFalse.isFalse.isFalse hc hr =>
    have accepts : (s.record i).contact ≠ .free := by
      intro e
      simp [e, ContactState.acceptsPosts] at hc
    exact (State.placeMessage_stays (by simpa using hr) accepts).trans (State.respond_stays _ _ _)
  all_goals exact s.refuse_stays _

/-! ## Summons (R88, R89) -/

theorem summonedRecord_fresh (car : Nat) (p : Params) :
    ({ summonedRecord car with contact := .paging, pageCount := p.pageLimit } : Record).fresh :=
  ⟨by simp, rfl, rfl, rfl, rfl, rfl, rfl, rfl⟩

theorem State.enterPaging_setRecord (s : State) (i : Fin 48) (r : Record) :
    (s.setRecord i r).enterPaging i = s.setRecord i { r with contact := .paging, pageCount := s.params.pageLimit } := by
  unfold State.enterPaging State.modifyRecord
  rw [State.record_setRecord]
  simp [State.setRecord]

/-- A car that is not held joins the roster in PAGING, without a turn (R89). -/
theorem State.joinPaging_settles {s : State} {i : Fin 48} {r : Record} (hi : (s.record i).contact = .free) (hr : r.fresh)
    (hc : r.contact = .paging) (hcar : s.lookup r.carId = none) (hturn : r.turn = none) (hretune : r.retune = none) :
    s.settles (s.setRecord i r) := by
  have row : (s.setRecord i r).plot.1 i = (.paging, none, none) := by
    simp only [State.plot, State.record_setRecord, hc, hturn, hretune, Option.map_none]
  refine ⟨State.setRecord_moves hi hr hcar, State.planConsistent_of_one i (fun j e => ?_) (fun j _ _ _ _ => Iff.rfl)
    fun fits => ?_⟩
  · simp only [State.plot, s.record_setRecord_ne r (Ne.symm e)]
  · obtain ⟨-, empty⟩ := fits.of_bare (ContactState.bare_iff.mpr (.inl hi))
    rw [row]
    exact planFits_bare (ContactState.bare_iff.mpr (.inr (.inl rfl))) empty

theorem State.summonNew_settles {s : State} {car : Nat} (hcar : s.lookup car = none) (hl : s.roster.summonCount < 8) :
    s.settles (s.summonNew car) := by
  unfold State.summonNew
  split
  case h_2 => exact (s.refuse_stays _).settles
  case h_1 i hi =>
    rw [State.enterPaging_setRecord]
    have join := State.joinPaging_settles (r := { summonedRecord car with contact := .paging, pageCount := s.params.pageLimit })
      (State.allocatable_free hi) (summonedRecord_fresh car s.params) rfl hcar rfl rfl
    have attach := State.attachSummon_stays (i := i) (s := s.setRecord i
      { summonedRecord car with contact := .paging, pageCount := s.params.pageLimit }) (by rw [State.record_setRecord]; simp)
      (by rw [State.record_setRecord]; rfl) hl
    exact join.trans (attach.trans (State.respond_stays _ _ _)).settles

theorem State.summonHeld_settles {s : State} {i : Fin 48} (hc : (s.record i).contact = .granted ∨ (s.record i).contact.bare)
    (hf : (s.record i).contact ≠ .free) (hm : (s.record i).summoned = false) (hl : s.roster.summonCount < 8) :
    s.settles (s.summonHeld i) := by
  have attach := State.attachSummon_stays hf hm hl
  unfold State.summonHeld
  dsimp only
  split
  · exact (attach.trans (State.respond_stays _ _ _)).settles
  case isFalse hg =>
    have bare : (s.record i).contact.bare := hc.resolve_left (by simpa using hg)
    refine (attach.settles.trans (State.enterPaging_settles ?_ ?_)).trans (State.respond_stays _ _ _).settles <;>
      rw [attach.contact]
    · exact hf
    · exact bare

theorem State.summonCar_settles (s : State) (car : Nat) : s.settles (s.summonCar car) := by
  have limit : Config.summonLimit = 8 := rfl
  unfold State.summonCar
  split
  case h_1 i hi =>
    obtain ⟨u, hu⟩ : ∃ u, u = s.clearSoft i := ⟨_, rfl⟩
    have clear : s.stays u := hu ▸ s.clearSoft_stays i
    have hf : (u.record i).contact ≠ .free := by
      rw [clear.contact]
      exact (State.lookup_held hi).1
    dsimp only
    rw [← hu]
    refine clear.settles.trans ?_
    (repeat' split)
    · exact (u.refuse_stays _).settles
    case isTrue h =>
      have bare : (u.record i).contact.bare := ContactState.bare_iff.mpr (.inr (.inl (by simpa using h)))
      exact (State.enterPaging_settles hf bare).trans (State.respond_stays _ _ _).settles
    · exact (u.respond_stays _ _).settles
    · exact ((u.offerReason_stays i _).trans (State.respond_stays _ _ _)).settles
    · exact (u.refuse_stays _).settles
    case isFalse h1 h2 h3 h4 =>
      have h : (u.record i).contact = .granted ∨ (u.record i).contact.bare := by
        rw [ContactState.bare_iff]
        cases e : (u.record i).contact <;> simp_all
      exact State.summonHeld_settles h hf (by simpa using h2) (by omega)
  case h_2 hn =>
    split
    · exact (s.refuse_stays _).settles
    case isFalse h => exact State.summonNew_settles hn (by omega)

end Sys2Proof.Machine

/-! The sweep, reports to the host, the Backbone Ports and time. -/

namespace Sys2Proof.Machine

/-! ## The sweep's commands (R157, R161, R163, R164) -/

/-- Every record keeps all but its mark, and the sweep's counts are set afresh with the marks. -/
theorem State.stays_of_marks {s t : State} (hw : s.within t) (hr : ∀ j, { t.record j with mark := (s.record j).mark } = s.record j)
    (hbeside : s.sameBeside { t with sweep := s.sweep }) (hcells : t.cells = s.cells)
    (h : s.sweepAgrees → t.sweepAgrees) : s.stays t := by
  have field : ∀ {α : Type} (g : Record → α), (∀ r m, g { r with mark := m } = g r) → ∀ j, g (t.record j) = g (s.record j) :=
    fun g hg j => (hg _ _).symm.trans (congrArg g (hr j))
  have hcontact := field Record.contact fun _ _ => rfl
  have hturn := field Record.turn fun _ _ => rfl
  have hretune := field Record.retune fun _ _ => rfl
  refine ⟨⟨hw, ?_⟩, Prod.ext (funext fun j => ?_) hcells⟩
  · exact
      { queues := State.queuesBounded_of hbeside.inbound hbeside.ports hw.params
        attention := State.attentionDistinct_of hbeside.attention
        served := fun k => k.of_fewer hbeside.ports hw.params fun j => .inl (field Record.handover (fun _ _ => rfl) j)
        cars := State.carIdsUnique_of fun j k => ⟨hcontact j ▸ k, field Record.carId (fun _ _ => rfl) j⟩
        tags := State.tagsUnique_of (fun j k => ⟨hcontact j ▸ k, field Record.tag (fun _ _ => rfl) j⟩) hbeside.tagCounter
        pool := State.poolConsistent_of (field Record.messages fun _ _ => rfl)
          (fun j b k => field Record.inFlight (fun _ _ => rfl) j ▸ k) (fun j k => .inl (hcontact j ▸ k)) hbeside.pool hw.params
        counts := State.countsAgree_of (field Record.pinned fun _ _ => rfl) (field Record.summoned fun _ _ => rfl)
          (fun j k => .inl (hcontact j ▸ k)) hbeside.pinnedCount hbeside.summonCount
        sweep := h }
  · simp only [State.plot, hcontact, hturn, hretune]

theorem startMark_marked {first last i : Nat} {c : ContactState} (h : startMark first last i c = .marked) : c ≠ .free := by
  rintro rfl
  simp [startMark, ContactState.swept] at h

/-- The state of a sweep just started, before its end is judged (R157). -/
def State.sweepBegun (s : State) (first last deadline : Nat) (closeEntry : Bool) : State :=
  let t := s.markRange first last
  { t with
    sweep := { Sweep.reset with state := .running, first := first, last := last, deadline := deadline,
                                closeEntry := closeEntry, marked := t.markedList.length },
    host := { t.host with sweepEnded := false } }

theorem State.startSweep_eq (s : State) (first last deadline : Nat) (closeEntry : Bool) :
    s.startSweep first last deadline closeEntry = (s.sweepBegun first last deadline closeEntry).endIfAccounted := rfl

theorem State.sweepBegun_record (s : State) (first last deadline : Nat) (closeEntry : Bool) (j : Fin 48) :
    (s.sweepBegun first last deadline closeEntry).record j =
      { s.record j with mark := startMark first last j.val (s.record j).contact } := by
  simp [State.sweepBegun, State.markRange, State.record]

theorem State.sweepBegun_sums (s : State) (first last deadline : Nat) (closeEntry : Bool) :
    (s.sweepBegun first last deadline closeEntry).sweepSums := by
  refine ⟨fun _ => ⟨?_, fun j hj => ?_⟩, by simp [State.sweepBegun, Sweep.reset], nofun⟩
  · rw [← State.length_markedList]
    simp [State.sweepBegun, Sweep.reset, State.markedList, State.record]
  · rw [State.sweepBegun_record] at hj ⊢
    exact startMark_marked hj

theorem State.sweepBegun_kept (s : State) (first last deadline : Nat) (closeEntry : Bool) :
    (s.sweepBegun first last deadline closeEntry).quiet = s.quiet
      ∧ (s.sweepBegun first last deadline closeEntry).air = s.air
      ∧ (s.sweepBegun first last deadline closeEntry).host.attention = s.host.attention
      ∧ (s.sweepBegun first last deadline closeEntry).ports = s.ports
      ∧ (s.sweepBegun first last deadline closeEntry).pool = s.pool
      ∧ (s.sweepBegun first last deadline closeEntry).cells = s.cells
      ∧ ({ (s.sweepBegun first last deadline closeEntry).roster with records := s.roster.records } : Roster) = s.roster := by
  simp [State.sweepBegun, State.markRange]

theorem State.startSweep_stays (s : State) (first last deadline : Nat) (closeEntry : Bool) :
    s.stays (s.startSweep first last deadline closeEntry) := by
  have sums := s.sweepBegun_sums first last deadline closeEntry
  have begun := s.sweepBegun_record first last deadline closeEntry
  obtain ⟨quiet, air, attention, ports, pool, cells, roster⟩ := s.sweepBegun_kept first last deadline closeEntry
  rw [State.startSweep_eq]
  generalize s.sweepBegun first last deadline closeEntry = u at *
  have quiet' := (State.endIfAccounted_quiet u).trans quiet
  have calm := State.calm_of_quiet quiet'
  have roster' : ({ u.endIfAccounted.roster with records := s.roster.records } : Roster) = s.roster := by
    rw [State.endIfAccounted_roster, roster]
  refine State.stays_of_marks ⟨?_, State.waits_of_calm calm, State.params_of_calm calm,
      .inl (congrArg Roster.held roster' :)⟩ (fun j => ?_)
    ⟨State.inbound_of_quiet quiet', (State.endIfAccounted_ports u).trans ports, u.endIfAccounted_host.trans attention,
      (State.endIfAccounted_pool u).trans pool, rfl, (congrArg Roster.tagCounter roster' :),
      (congrArg Roster.summonCount roster' :), (congrArg Roster.pinnedCount roster' :)⟩
    ((State.endIfAccounted_cells u).trans cells) fun _ => State.endIfAccounted_agrees sums
  · rw [State.airFrame, State.airFrame, State.endIfAccounted_air, air]
  · rw [State.record_congr (State.endIfAccounted_roster u), begun]

/-- A sweep RUNNING that is halted, or HALTED that runs on, agrees as before. -/
theorem State.sweepAgrees_turned {s : State} {w : Sweep} (h : s.sweepAgrees)
    (hs : s.sweep.state = .running ∨ s.sweep.state = .halted) (hw : w.state = .running ∨ w.state = .halted)
    (hcounts : w.marked = s.sweep.marked ∧ w.answered = s.sweep.answered ∧ w.left = s.sweep.left)
    (hresult : w.result = s.sweep.result) : ({ s with sweep := w } : State).sweepAgrees := by
  obtain ⟨going, complete, result⟩ := h
  obtain ⟨h1, h2, h3⟩ := hcounts
  unfold State.sweepAgrees
  simp only [h1, h2, h3, hresult]
  refine ⟨fun _ => going hs, iff_of_false (by rcases hw with e | e <;> rw [e] <;> simp) fun e => ?_, result⟩
  rcases hs with k | k <;> rw [complete.mpr e] at k <;> exact absurd k (by simp)

theorem State.haltSweep_stays (s : State) : s.stays s.haltSweep := by
  unfold State.haltSweep
  split
  · exact s.refuse_stays _
  · exact s.refuse_stays _
  · exact s.respond_stays _ _
  case h_4 e =>
    refine State.stays.trans ?_ (State.respond_stays _ _ _)
    split
    · exact State.stays_of_sweep fun h => State.sweepAgrees_turned h (.inl e) (.inr rfl) ⟨rfl, rfl, rfl⟩ rfl
    · exact State.stays_of_sweep fun h => State.sweepAgrees_turned h (.inl e) (.inl e) ⟨rfl, rfl, rfl⟩ rfl

theorem State.resumeSweep_stays (s : State) : s.stays s.resumeSweep := by
  have run : s.sweep.state = .running ∨ s.sweep.state = .halted →
      s.stays { s with sweep := { s.sweep with state := .running, haltPending := false } } := fun e =>
    State.stays_of_sweep fun h => State.sweepAgrees_turned h e (.inl rfl) ⟨rfl, rfl, rfl⟩ rfl
  unfold State.resumeSweep
  split
  · exact s.refuse_stays _
  · exact s.refuse_stays _
  case h_3 e => exact (run (.inl e)).trans (State.respond_stays _ _ _)
  case h_4 e => exact (run (.inr e)).trans (State.respond_stays _ _ _)

theorem State.applyHalt_stays (s : State) : s.stays s.applyHalt := by
  unfold State.applyHalt
  split
  case isTrue h =>
    simp only [Bool.and_eq_true, beq_iff_eq] at h
    exact State.stays_of_sweep fun k => State.sweepAgrees_turned k (.inl h.1) (.inr rfl) ⟨rfl, rfl, rfl⟩ rfl
  case isFalse => exact .refl s

theorem State.cancelSweep_stays (s : State) : s.stays s.cancelSweep := by
  have clear : s.stays { s.clearMarks with sweep := Sweep.reset, host := { s.host with sweepEnded := false } } :=
    State.stays_of_marks ⟨rfl, rfl, rfl, .inl rfl⟩ (fun j => by simp [State.clearMarks, State.record])
      ⟨rfl, rfl, rfl, rfl, rfl, rfl, rfl, rfl⟩ rfl fun _ => ⟨by simp [Sweep.reset], by simp [Sweep.reset], nofun⟩
  unfold State.cancelSweep
  split
  · exact s.respond_stays _ _
  all_goals exact clear.trans (State.respond_stays _ _ _)

theorem State.endSweep_stays {s : State} (h : s.sweep.state = .running) : s.stays (s.endSweep .deadline) :=
  State.stays_of_marks ⟨rfl, rfl, rfl, .inl rfl⟩ (fun _ => rfl) ⟨rfl, rfl, rfl, rfl, rfl, rfl, rfl, rfl⟩ rfl
    fun k => State.endSweep_agrees k.sums (s.sweepInProgress_iff.mpr (.inl h)) nofun

theorem State.countSweepCycle_stays (s : State) : s.stays s.countSweepCycle := by
  unfold State.countSweepCycle
  (repeat' split)
  · exact State.stays_of_sweep id
  case isTrue.isFalse h _ => exact State.endSweep_stays (by simpa using h)
  · exact .refl s

theorem State.sweepDeadline_stays (s : State) : s.stays s.sweepDeadline := by
  unfold State.sweepDeadline
  split
  case isTrue h =>
    simp only [Bool.and_eq_true, beq_iff_eq] at h
    exact State.endSweep_stays h.1.2
  case isFalse => exact .refl s

theorem State.readSweep_stays (s : State) : s.stays s.readSweep := by
  have read : s.stays { s with host := { s.host with sweepEnded := false } } :=
    State.stays_of_same ⟨rfl, rfl, rfl, .inl rfl⟩ ⟨rfl, rfl, rfl, rfl, rfl, rfl, rfl, rfl⟩ rfl rfl
  unfold State.readSweep
  split
  · exact s.respond_stays _ _
  · exact s.respond_stays _ _
  · exact s.respond_stays _ _
  · exact read.trans (State.respond_stays _ _ _)

/-! ## Inbound queue, attention list, counts and conditions (R119, R168, R171, R173) -/

/-- Entries of the inbound queue, or of the attention list, given to the host. -/
theorem State.stays_of_read {s : State} {inbound : List InboundEntry} {attention : List AttentionEntry}
    (hi : inbound.length ≤ s.inbound.length) (ha : attention.Sublist s.host.attention) :
    s.stays { s with inbound := inbound, host := { s.host with attention := attention } } := by
  refine ⟨State.moves_of_follows ⟨rfl, rfl, rfl, .inl rfl⟩ (fun _ => .refl _) rfl rfl rfl rfl rfl ?_ ?_
    (fun k => k.of_fewer rfl rfl fun _ => .inl rfl), rfl⟩
  · rintro ⟨h, hp⟩
    exact ⟨hi.trans h, hp⟩
  · intro h
    exact (List.Sublist.map _ ha).nodup h

theorem State.readInbound_stays (s : State) : s.stays s.readInbound := by
  unfold State.readInbound
  split
  · exact s.respond_stays _ _
  case h_2 e rest h =>
    exact (State.stays_of_read (s := s) (by rw [h]; simp) (List.Sublist.refl _)).trans (State.respond_stays _ _ _)

theorem State.nextAttention_stays (s : State) : s.stays s.nextAttention := by
  unfold State.nextAttention
  split
  · exact s.respond_stays _ _
  case h_2 e rest h =>
    have read : s.stays { s with host := { s.host with attention := rest } } :=
      State.stays_of_read (s := s) le_rfl (by rw [h]; exact List.sublist_cons_self _ _)
    refine State.stays.trans ?_ (State.respond_stays _ _ _)
    split
    · exact read.trans (State.reportCause_stays _ _ _)
    · exact read

theorem State.clearCounts_stays (s : State) : s.stays s.clearCounts := by
  have port : ∀ (u : State) (p : Port), u.stays (u.modifyPort p PortState.clearCounts) := fun u p =>
    State.modifyPort_stays (PortState.drained.bounded ⟨rfl, rfl, le_rfl, id⟩) (State.modifyPort_served fun h => ⟨h, id, id⟩)
  have host : s.stays { s with host := { s.host with hailsRefused := 0, hailsHeld := 0, garbledFrames := 0 } } :=
    State.stays_of_same ⟨rfl, rfl, rfl, .inl rfl⟩ ⟨rfl, rfl, rfl, rfl, rfl, rfl, rfl, rfl⟩ rfl rfl
  exact (host.trans (port _ .inbye)).trans (port _ .outbye)

theorem State.setClass_stays (s : State) (c : ConditionClass) (f : ClassFlags) : s.stays (s.setClass c f) :=
  State.stays_of_same ⟨rfl, rfl, rfl, .inl rfl⟩ ⟨rfl, rfl, rfl, rfl, rfl, rfl, rfl, rfl⟩ rfl rfl

theorem State.clearLatch_stays (s : State) (c : ConditionClass) : s.stays (s.clearLatch c) := by
  unfold State.clearLatch
  split
  · exact s.refuse_stays _
  · exact (s.setClass_stays _ _).trans (State.respond_stays _ _ _)

theorem State.forceClass_stays (s : State) (c : ConditionClass) (forced : Bool) : s.stays (s.forceClass c forced) :=
  State.stays_of_same ⟨rfl, rfl, rfl, .inl rfl⟩ ⟨rfl, rfl, rfl, rfl, rfl, rfl, rfl, rfl⟩ rfl rfl

theorem State.setPortCheck_stays (s : State) (n : Nat) : s.stays (s.setPortCheck n) :=
  State.stays_of_same ⟨rfl, rfl, rfl, .inl rfl⟩ ⟨rfl, rfl, rfl, rfl, rfl, rfl, rfl, rfl⟩ rfl rfl

/-! ## Backbone Ports (R122 to R136) -/

/-- Work on a port after which its arbiter looks for a frame. -/
theorem State.modifyPort_arbitrate_stays {s : State} {p : Port} {f : PortState → PortState}
    (hq : (s.port p).bounded (s.params.inUse p) → (f (s.port p)).bounded (s.params.inUse p)) :
    s.stays ((s.modifyPort p f).arbitrate p) := by
  obtain ⟨t, ht⟩ : ∃ t, t = s.modifyPort p f := ⟨_, rfl⟩
  have hroster : t.roster = s.roster := ht ▸ State.modifyPort_roster s p f
  have hparams : t.params = s.params := ht ▸ State.modifyPort_params s p f
  have step := t.arbitrate_stays p
  rw [← ht]
  refine ⟨State.moves_of_quiet (by simp [ht]) (by simp [ht]) ((State.arbitrate_tail t p).trans (by unfold State.tail; rw [hroster]))
    (by simp [ht]) (by simp [ht]) (by simp [ht]) (fun j => State.record_congr hroster j ▸ Record.follows_of_sent (t.arbitrate_recordsSent p j))
    (fun h => step.queues (State.queuesBounded_of_ports (by rw [ht]; cases p <;> rfl) hparams (fun q hb => ?_) h)) (fun h => ?_),
    step.plot.trans (State.plot_of (by rw [hroster]) (by rw [ht]; cases p <;> rfl))⟩
  · rw [ht]
    by_cases e : p = q
    · subst e
      rw [State.port_modifyPort]
      exact hq hb
    · rwa [State.port_modifyPort_ne _ _ e]
  · refine State.arbitrate_served fun q e hu hs => ?_
    have same : t.port q = s.port q := ht ▸ State.port_modifyPort_ne _ _ (Ne.symm e)
    rw [hparams] at hu
    rw [same] at hs ⊢
    obtain ⟨h1, h2, h3⟩ := h q hu hs
    exact ⟨h1, h2, fun i => State.dueThrough_false_of_fewer hparams (State.fewerContexts.of_roster hroster) (h3 i)⟩

theorem State.helloDue_stays (s : State) (p : Port) : s.stays (s.helloDue p) := by
  unfold State.helloDue
  split
  case isTrue hu => exact State.modifyPort_arbitrate_stays fun ⟨h1, h2, _⟩ => ⟨h1, h2, fun e => absurd e (by simp [hu])⟩
  case isFalse => exact .refl s

theorem State.transmitted_stays (s : State) (p : Port) : s.stays (s.transmitted p) := by
  unfold State.transmitted
  split
  · exact State.modifyPort_arbitrate_stays fun h => h
  · exact .refl s

theorem State.reportLinkDown_stays (s : State) : s.stays s.reportLinkDown := s.reportCause_stays _ _

theorem PortState.enqueue_bounded {q : PortState} {f : BackboneFrame} (h : q.bounded true) : (q.enqueue f).bounded true := by
  obtain ⟨h1, h2, -⟩ := h
  have depth : Config.receiveDepth = 8 := rfl
  unfold PortState.enqueue
  split
  · refine ⟨?_, h2, by simp⟩
    simp only [List.length_append, List.length_singleton]
    omega
  · exact ⟨h1, h2, by simp⟩

theorem PortState.enqueue_idle (q : PortState) (f : BackboneFrame) :
    (q.enqueue f).sending = q.sending ∧ (q.enqueue f).helloDue = q.helloDue ∧ (q.enqueue f).traffic = q.traffic := by
  unfold PortState.enqueue
  split <;> exact ⟨rfl, rfl, rfl⟩

theorem State.hearNeighbour_stays {s : State} {p : Port} (hu : s.params.inUse p = true) : s.stays (s.hearNeighbour p) :=
  (State.modifyPort_stays (fun ⟨h1, h2, _⟩ => ⟨h1, h2, fun e => absurd e (by simp [hu])⟩)
    (State.modifyPort_served fun h => ⟨h, id, id⟩)).trans (State.reportLinkDown_stays _)

theorem State.admitFrame_stays {s : State} {p : Port} (hu : s.params.inUse p = true) (f : BackboneFrame) :
    s.stays (s.admitFrame p f) := by
  have hear := State.hearNeighbour_stays hu
  have hu' : (s.hearNeighbour p).params.inUse p = true := by rw [hear.params, hu]
  refine hear.trans (State.modifyPort_stays (fun h => ?_) (State.modifyPort_served fun h => ?_))
  · rw [hu'] at h ⊢
    split
    · exact h
    · exact PortState.enqueue_bounded h
  · split at h
    · exact ⟨h, id, id⟩
    case h_2 =>
      obtain ⟨h1, h2, h3⟩ := PortState.enqueue_idle ((s.hearNeighbour p).port p) f
      rw [h1] at h
      rw [h2, h3]
      exact ⟨h, id, id⟩

theorem State.receiveFrame_stays (s : State) (p : Port) (bytes : List Byte) : s.stays (s.receiveFrame p bytes) := by
  unfold State.receiveFrame
  (repeat' split)
  case h_1 hu _ f _ => exact State.admitFrame_stays hu f
  · exact s.countCheckError_stays p
  · exact .refl s

theorem State.silenceEnds_settles (s : State) (p : Port) : s.settles (s.silenceEnds p) := by
  unfold State.silenceEnds
  split
  case isFalse => exact .refl s
  case isTrue hu =>
    have down : s.stays (s.modifyPort p fun q => { q with silence := 1000, neighbour := .down }) :=
      State.modifyPort_stays (fun ⟨h1, h2, _⟩ => ⟨h1, h2, fun e => absurd e (by simp [hu])⟩)
        (State.modifyPort_served fun h => ⟨h, id, id⟩)
    dsimp only
    split
    · exact down.settles
    · exact (down.trans (State.reportLinkDown_stays _)).settles.trans (State.losePort_settles _ p)

theorem State.flushPort_stays (s : State) (p : Port) : s.stays (s.flushPort p) :=
  (State.modifyPort_stays
    (fun ⟨_, _, h⟩ => ⟨by simp, by simp, fun e => ⟨(h e).1, rfl, rfl, (h e).2.2.2⟩⟩)
    (State.modifyPort_served fun h => ⟨h, id, fun _ => rfl⟩)).trans (State.respond_stays _ _ _)

/-! ## Frames routed and handled by car (R127 to R131) -/

theorem State.forward_stays (s : State) (arrived leaves : Port) (f : BackboneFrame) : s.stays (s.forward arrived leaves f) := by
  unfold State.forward
  split
  · exact State.modifyPort_stays (PortState.drained.bounded ⟨rfl, rfl, le_rfl, id⟩)
      (State.modifyPort_served fun h => ⟨h, id, id⟩)
  · exact s.offerTraffic_stays _ _

theorem State.sendNote_stays (s : State) (car number : Nat) (outcome : NoteOutcome) : s.stays (s.sendNote car number outcome) :=
  s.offerTraffic_stays _ _

theorem State.sendLocated_stays (s : State) (arrived : Port) (dest : Nat) (payload : Payload) :
    s.stays (s.sendLocated arrived dest payload) := by
  unfold State.sendLocated
  split
  · exact s.offerTraffic_stays _ _
  · exact s.countCheckError_stays _

theorem State.locate_stays (s : State) (arrived : Port) (f : BackboneFrame) (car query : Nat) :
    s.stays (s.locate arrived f car query) := by
  unfold State.locate
  (repeat' split)
  · exact s.sendLocated_stays _ _ _
  · exact s.forward_stays _ _ _
  · exact s.sendLocated_stays _ _ _

theorem State.relayPost_stays {s : State} {m : Message} (hc : (s.record m.target).contact ≠ .free) (car number : Nat) :
    s.stays (s.relayPost car number m) := by
  unfold State.relayPost
  split
  case isFalse => exact s.sendNote_stays _ _ _
  case isTrue hr =>
    have place := State.placeMessage_stays hr hc
    dsimp only
    split
    · exact place.trans (State.sendNote_stays _ _ _ _)
    · exact place

theorem State.relayOn_stays (s : State) (arrived leaves : Port) (f : BackboneFrame) (car number : Nat) :
    s.stays (s.relayOn arrived leaves f car number) := by
  unfold State.relayOn
  split
  · exact s.forward_stays _ _ _
  · exact s.sendNote_stays _ _ _

theorem State.relayToPeer_stays (s : State) (arrived : Port) (f : BackboneFrame) (i : Fin 48) (car number : Nat) :
    s.stays (s.relayToPeer arrived f i car number) := by
  unfold State.relayToPeer
  (repeat' split)
  · exact s.relayOn_stays _ _ _ _ _
  · exact s.sendNote_stays _ _ _
  · exact s.sendNote_stays _ _ _

theorem State.relay_stays (s : State) (arrived : Port) (f : BackboneFrame) (car number : Nat) (urgency : Urgency)
    (receipt : Bool) (body : List Byte) : s.stays (s.relay arrived f car number urgency receipt body) := by
  unfold State.relay
  (repeat' split)
  case h_1.isTrue hi _ => exact State.relayPost_stays (m := relayMessage _ _ _ _ _) (State.lookup_held hi).1 _ _
  · exact s.relayToPeer_stays _ _ _ _ _
  · exact s.sendNote_stays _ _ _
  · exact s.relayOn_stays _ _ _ _ _
  · exact s.sendNote_stays _ _ _

theorem State.handoverArrival_settles (s : State) (arrived : Port) (f : BackboneFrame) (car : Nat) :
    s.settles (s.handoverArrival arrived f car) := by
  unfold State.handoverArrival
  split
  case isTrue h =>
    unfold State.holdsFrame at h
    split at h
    · exact (State.holdWork_stays h _).settles
    · exact absurd h (by simp)
  case isFalse => exact s.takeHandoverFrame_settles arrived f

theorem State.handleHere_settles (s : State) (arrived : Port) (f : BackboneFrame) : s.settles (s.handleHere arrived f) := by
  unfold State.handleHere
  split
  · exact (s.locate_stays _ _ _ _).settles
  · exact (s.relay_stays _ _ _ _ _ _ _).settles
  · exact s.handoverArrival_settles _ _ _
  · exact s.handoverArrival_settles _ _ _
  · exact s.handoverArrival_settles _ _ _
  · exact s.handoverArrival_settles _ _ _
  all_goals exact (s.countCheckError_stays _).settles

theorem State.route_settles (s : State) (arrived : Port) (f : BackboneFrame) : s.settles (s.route arrived f) := by
  unfold State.route
  (repeat' split)
  · exact (s.countCheckError_stays _).settles
  · exact s.handleHere_settles _ _
  · exact (s.forward_stays _ _ _).settles
  · exact .refl s

theorem State.takeReceived_settles (s : State) (p : Port) : s.settles (s.takeReceived p) := by
  unfold State.takeReceived
  split
  case h_2 => exact .refl s
  case h_1 f rest h =>
    have take : s.stays (s.modifyPort p fun q => { q with receive := rest }) :=
      State.modifyPort_stays (fun ⟨h1, h2, h3⟩ => by
        rw [h] at h1
        simp only [List.length_cons] at h1
        exact ⟨by simp only; omega, h2, fun e => absurd (h3 e).2.1 (by rw [h]; simp)⟩)
        (State.modifyPort_served fun k => ⟨k, id, id⟩)
    exact take.settles.trans (State.route_settles _ p f)

/-! ## A millisecond (R123, R125) -/

theorem State.passMillisecond_stays (s : State) : s.stays s.passMillisecond := by
  unfold State.passMillisecond
  split
  case isTrue => exact .refl s
  case isFalse =>
    have same : ∀ (q : PortState) inUse, (q.passMillisecond inUse).sending = q.sending
        ∧ (q.passMillisecond inUse).helloDue = q.helloDue ∧ (q.passMillisecond inUse).traffic = q.traffic
        ∧ q.drained (q.passMillisecond inUse) := by
      intro q inUse
      unfold PortState.passMillisecond
      split <;> exact ⟨rfl, rfl, rfl, rfl, rfl, le_rfl, id⟩
    have port : ∀ (u : State) (p : Port) inUse, u.stays (u.modifyPort p fun q => q.passMillisecond inUse) := by
      intro u p inUse
      obtain ⟨h1, h2, h3, h4⟩ := same (u.port p) inUse
      exact State.modifyPort_stays h4.bounded (State.modifyPort_served fun h => ⟨h1 ▸ h, by rw [h2]; exact id, by rw [h3]; exact id⟩)
    have clock : s.stays { s with clock := s.clock + 1 } :=
      State.stays_of_same ⟨rfl, rfl, rfl, .inl rfl⟩ ⟨rfl, rfl, rfl, rfl, rfl, rfl, rfl, rfl⟩ rfl rfl
    exact (clock.trans (port _ .inbye s.params.inbyeUse)).trans (port _ .outbye s.params.outbyeUse)

end Sys2Proof.Machine

/-! The slots of the air. -/

namespace Sys2Proof.Machine

/-! ## Steps that keep every invariant -/

/-- What a step keeps of the invariants of queues, lists, roster, plan, pool and counts, whatever it makes of the air. -/
structure State.sound (s t : State) : Prop extends s.keeps t where
  plan : s.planConsistent → t.planConsistent

theorem State.sound.refl (s : State) : s.sound s := ⟨.refl s, id⟩

theorem State.sound.trans {s t u : State} (h : s.sound t) (k : t.sound u) : s.sound u :=
  ⟨h.tokeeps.trans k.tokeeps, k.plan ∘ h.plan⟩

theorem State.settles.sound {s t : State} (h : s.settles t) : s.sound t := ⟨h.tokeeps, h.plan⟩

theorem State.stays.sound {s t : State} (h : s.stays t) : s.sound t := h.settles.sound

/-- The air, the held work and the pages passed over are no concern of these invariants. -/
theorem State.sound_of_air (s : State) (air : Air) (passedOver : List (Fin 48)) (held : List HeldWork) (rfReady : Bool) :
    s.sound { s with air := air, roster := { s.roster with passedOver := passedOver, held := held }, rfReady := rfReady } :=
  ⟨⟨id, id, id, id, id, id, id, id⟩, id⟩

/-- `t` is `s` with another air. -/
theorem State.sound_of_air_eq {s t : State} (h : t = { s with air := t.air }) : s.sound t := by
  rw [h]
  exact s.sound_of_air t.air s.roster.passedOver s.roster.held s.rfReady

/-! ## The start of a slot -/

theorem State.startCycle_sound (s : State) : s.sound s.startCycle :=
  ((s.sound_of_air { s.air with cycle := s.air.cycle + 1 } _ _ _).trans (State.ageCells_settles _).sound).trans
    (State.countSweepCycle_stays _).sound

theorem State.sampleReady_sound (s : State) (ready : Bool) : s.sound (s.sampleReady ready) :=
  (s.sound_of_air { s.air with light := if ready then .ready else .darkFromStart } _ _ ready).trans
    (State.setDarkCount_stays _ _).sound

theorem State.beginPoll_sound (s : State) (h : CellHolding) : s.sound (s.beginPoll h) :=
  (s.startForPoll_stays h.holder).sound.trans (State.sound_of_air _ _ _ _ _)

theorem State.chooseDown_sound (s : State) (slot : Nat) : s.sound (s.chooseDown slot) := by
  unfold State.chooseDown
  (repeat' split)
  · exact State.sound_of_air_eq rfl
  · exact State.sound_of_air_eq rfl
  · exact .refl s
  · exact s.beginPoll_sound _
  · exact .refl s

theorem State.startSlot_sound (s : State) (slot : Fin 32) (ready : Bool) : s.sound (s.startSlot slot ready) := by
  have first (u : State) : u.sound (if slot.val = 0 then u.startCycle else u) := by
    split
    · exact u.startCycle_sound
    · exact .refl u
  have second (u : State) : u.sound (if slot.val = 0 then u.prepareBeacon else u) := by
    split
    · exact u.sound_of_air _ [] u.roster.held u.rfReady
    · exact .refl u
  have third (u : State) : u.sound (if ready then u.chooseDown slot.val else u) := by
    split
    · exact u.chooseDown_sound _
    · exact .refl u
  exact (((s.sound_of_air _ _ _ _ : s.sound (s.beginSlot slot)).trans (first _)).trans (State.sampleReady_sound _ ready)).trans
    ((second _).trans (third _))

theorem State.slotStart_sound (s : State) (ready : Bool) : s.sound (s.slotStart ready) := by
  unfold State.slotStart
  split
  · exact s.startSlot_sound _ _
  · exact .refl s

theorem State.openAir_sound (s : State) (ready : Bool) : s.sound (s.openAir ready) := by
  have opened : s.sound { s with air := { s.air with state := .opened } } := State.sound_of_air_eq rfl
  unfold State.openAir
  split
  · split
    · exact (s.refuse_stays _).sound
    · exact (opened.trans (State.startSlot_sound _ _ _)).trans (State.respond_stays _ _ _).sound
  · exact opened.trans (State.respond_stays _ _ _).sound
  · exact opened.trans (State.respond_stays _ _ _).sound

theorem State.closeAir_sound (s : State) : s.sound s.closeAir := by
  refine State.sound.trans ?_ (State.respond_stays _ _ _).sound
  split
  · exact State.sound_of_air_eq rfl
  · exact .refl s
  · exact .refl s

theorem State.receiveUp_sound (s : State) (bytes : List Byte) (level : Nat) : s.sound (s.receiveUp bytes level) := by
  unfold State.receiveUp
  split
  · exact State.sound_of_air_eq rfl
  · exact .refl s

theorem State.readyFalls_sound (s : State) (during : SlotPhase) : s.sound (s.readyFalls during) := by
  unfold State.readyFalls
  split
  · exact s.sound_of_air _ s.roster.passedOver s.roster.held false
  · exact .refl s

/-! ## The end of a slot -/

theorem State.countDarkEnd_stays (s : State) : s.stays s.countDarkEnd := by
  unfold State.countDarkEnd
  split
  · exact s.setDarkCount_stays _
  · exact .refl s
  · exact .refl s

theorem State.endBeacon_stays (s : State) : s.stays s.endBeacon := by
  obtain ⟨u, hu⟩ : ∃ u, u = match s.air.light, s.air.beacon with
    | .ready, some b => s.usePages b.pages
    | _, _ => s := ⟨_, rfl⟩
  have first : s.stays u := by
    rw [hu]
    split
    · exact s.usePages_stays _
    · exact .refl s
  have e : s.endBeacon = { u with air := { u.air with grants := [] } } := by
    rw [hu]
    rfl
  rw [e]
  exact first.trans
    (State.stays_of_same ⟨rfl, rfl, rfl, .inl rfl⟩ ⟨rfl, rfl, rfl, rfl, rfl, rfl, rfl, rfl⟩ rfl rfl)

theorem State.endEntry_settles (s : State) (slot : Nat) : s.settles (s.endEntry slot) := by
  obtain ⟨u, hu⟩ : ∃ u, u = match s.air.judge decodeHail with
    | .good h level => s.decideHail h level
    | .garbled => s.countGarbled
    | .absent | .dark => s := ⟨_, rfl⟩
  have first : s.settles u := by
    rw [hu]
    split
    · exact s.decideHail_settles _ _
    · exact s.countGarbled_stays.settles
    all_goals exact .refl s
  have e : s.endEntry slot = if slot = 2 then u.exhaustPages else u := by
    rw [hu]
    rfl
  rw [e]
  split
  · exact first.trans u.exhaustPages_settles
  · exact first

theorem State.countWindow_stays (s : State) (w : WindowResult Answer) : s.stays (s.countWindow w) := by
  unfold State.countWindow
  split
  · exact s.setGarbledRun_stays _
  · exact s.countGarbled_stays.trans (State.setGarbledRun_stays _ _)
  all_goals exact .refl s

/-- The end of an exchange window, before the work held for it is taken. -/
def State.windowClosed (s : State) : State :=
  { s with air := { s.air with exchange := none }, roster := { s.roster with held := [] } }

theorem State.takeHeld_fold_settles (i : Fin 48) (work : List HeldWork) (s : State) :
    s.settles (work.foldl (State.takeHeld i) s) :=
  foldl_rel State.settles.refl State.settles.trans (State.takeHeld_settles i) work s

theorem State.closeWindow_settles (s : State) (i : Fin 48) : s.windowClosed.settles (s.closeWindow i) :=
  State.takeHeld_fold_settles i s.roster.held s.windowClosed

theorem State.closeWindow_sound (s : State) (i : Fin 48) : s.sound (s.closeWindow i) :=
  (s.sound_of_air { s.air with exchange := none } s.roster.passedOver [] s.rfReady).trans (s.closeWindow_settles i).sound

/-- A turn slot's exchange judged, before its window is closed. -/
theorem State.judged_settles (s : State) (x : Exchange) {slot : Nat} (hslot : 3 ≤ slot) :
    s.settles ((s.countWindow (s.air.judge decodeAnswer)).judgeExchange x s.air.light.sent slot
      (x.poll.outcome (s.air.judge decodeAnswer))) :=
  (s.countWindow_stays _).settles.trans (State.judgeExchange_settles _ x _ _ hslot)

theorem State.endTurn_sound (s : State) {slot : Nat} (hslot : 3 ≤ slot) : s.sound (s.endTurn slot) := by
  unfold State.endTurn
  split
  · exact (s.judged_settles _ hslot).sound.trans (State.closeWindow_sound _ _)
  · exact .refl s

theorem State.endNotice_sound (s : State) (slot : Nat) : s.sound (s.endNotice slot) := by
  unfold State.endNotice
  split
  · exact s.endBeacon_stays.sound
  · split
    · exact (s.endEntry_settles slot).sound
    · exact s.endTurn_sound (by omega)

theorem State.finishClosing_sound (s : State) : s.sound s.finishClosing := by
  unfold State.finishClosing
  split
  · exact State.sound_of_air_eq rfl
  · exact .refl s

theorem State.finishSlot_sound (s : State) (slot : Nat) : s.sound (s.finishSlot slot) := by
  obtain ⟨u, hu⟩ : ∃ u, u = (s.countDarkEnd.endNotice slot).applyHalt.clearSlot := ⟨_, rfl⟩
  have first : s.sound u := hu ▸ ((s.countDarkEnd_stays.sound.trans (State.endNotice_sound _ slot)).trans
    (State.applyHalt_stays _).sound).trans (State.sound_of_air_eq rfl)
  have e : s.finishSlot slot = if slot = 31 then u.endCycle.finishClosing else u := by
    rw [hu]
    rfl
  rw [e]
  split
  · exact (first.trans u.endCycle_settles.sound).trans (State.finishClosing_sound _)
  · exact first

end Sys2Proof.Machine

/-! Parameters and ports changed. -/

namespace Sys2Proof.Machine

/-! ## Parameters and ports changed (R110, R122, R137, R138, R150, R167, R169) -/

/-- `t` is `s` with other ports and other parameters: of these only the record limit is read outside the ports. -/
structure State.sameInside (s t : State) : Prop where
  roster : t.roster = s.roster
  cells : t.cells = s.cells
  pool : t.pool = s.pool
  sweep : t.sweep = s.sweep
  attention : t.host.attention = s.host.attention
  limit : s.params.recordLimit ≤ 8 → t.params.recordLimit ≤ 8

/-- Work under other parameters, or on other ports: what is left to show is that queues and transmitters are kept. -/
theorem State.sound_of_inside {s u t : State} (h : s.sameInside u) (k : u.settles t)
    (hq : s.queuesBounded → t.queuesBounded) (hs : s.transmittersServed → t.transmittersServed) : s.sound t := by
  have same := State.record_congr h.roster
  exact
    { queues := hq
      attention := fun e => k.attention (State.attentionDistinct_of h.attention e)
      served := hs
      cars := fun e => k.cars (State.carIdsUnique_of (fun j f => ⟨same j ▸ f, by rw [same]⟩) e)
      tags := fun e => k.tags (State.tagsUnique_of (fun j f => ⟨same j ▸ f, by rw [same]⟩) (by rw [h.roster]) e)
      pool := fun ⟨lists, once, flight, free, limit⟩ => k.pool (by
        unfold State.poolConsistent
        simp only [same, h.pool]
        exact ⟨lists, once, flight, free, h.limit limit⟩)
      counts := fun e => k.counts (State.countsAgree_of (fun j => by rw [same]) (fun j => by rw [same])
        (fun j f => .inl (same j ▸ f)) (by rw [h.roster]) (by rw [h.roster]) e)
      sweep := fun e => k.sweep (State.sweepAgrees_of (fun j => by rw [same]) (fun j f => .inl (same j ▸ f)) h.sweep e)
      plan := fun e => k.plan (State.planConsistent_of_plot (State.plot_of (by rw [h.roster]) h.cells) e) }

/-- A port that is served with the same ports, contexts and station number stays so. -/
theorem State.servedAt_of_same {s t : State} {q : Port} (h : s.servedAt q) (hu : t.params.inUse q = s.params.inUse q)
    (hport : t.port q = s.port q) (hroster : t.roster = s.roster) (hstation : t.params.station = s.params.station) :
    t.servedAt q := by
  intro hin hs
  rw [hu] at hin
  rw [hport] at hs ⊢
  obtain ⟨h1, h2, h3⟩ := h hin hs
  refine ⟨h1, h2, fun i => ?_⟩
  have k := h3 i
  unfold State.dueThrough at k ⊢
  rwa [State.record_congr hroster, hstation]

/-- Parameters changed that neither a port nor a list heeds. -/
theorem State.sound_of_params {s t : State} {p : Params} (huse : ∀ q, p.inUse q = s.params.inUse q)
    (hstation : p.station = s.params.station) (hlimit : s.params.recordLimit ≤ 8 → p.recordLimit ≤ 8)
    (h : ({ s with params := p } : State).settles t) : s.sound t := by
  refine State.sound_of_inside (u := { s with params := p }) ⟨rfl, rfl, rfl, rfl, rfl, hlimit⟩ h (fun k => h.queues ?_) fun k => h.served ?_
  · rw [State.queuesBounded_iff] at k ⊢
    exact ⟨k.1, fun q => by rw [huse q]; exact k.2 q⟩
  · exact fun q => State.servedAt_of_same (k q) (huse q) rfl rfl hstation

theorem State.setMask_sound (s : State) (mask : Byte) (enables : Nat) : s.sound (s.setMask mask enables) := by
  have set (p : Params) (hu : ∀ q, p.inUse q = s.params.inUse q) (hn : p.station = s.params.station)
      (hl : p.recordLimit = s.params.recordLimit) : s.sound (({ s with params := p } : State).respond .done []) :=
    State.sound_of_params hu hn (by rw [hl]; exact id) (State.respond_stays _ _ _).settles
  unfold State.setMask
  (repeat' split)
  · exact set _ (fun q => by cases q <;> rfl) rfl rfl
  · exact (s.refuse_stays _).sound
  · exact set _ (fun q => by cases q <;> rfl) rfl rfl
  · exact (s.refuse_stays _).sound
  · exact (s.refuse_stays _).sound

section
variable {s : State} {p : Port} {params : Params} {f : PortState → PortState}

/-- `s` under changed parameters with one port changed, as a change of a port's use makes it. -/
def State.reused (s : State) (params : Params) (p : Port) (f : PortState → PortState) : State :=
  ({ s with params := params } : State).modifyPort p f

theorem State.reused_inside (hlimit : params.recordLimit = s.params.recordLimit) : s.sameInside (s.reused params p f) := by
  refine ⟨State.modifyPort_roster _ p f, ?_, ?_, ?_, ?_, fun h => ?_⟩
  · cases p <;> rfl
  · cases p <;> rfl
  · cases p <;> rfl
  · cases p <;> rfl
  · rw [State.reused, State.modifyPort_params, hlimit]
    exact h

theorem State.reused_queues (ho : ∀ q, q ≠ p → params.inUse q = s.params.inUse q)
    (hf : (s.port p).bounded (s.params.inUse p) → (f (s.port p)).bounded (params.inUse p)) (h : s.queuesBounded) :
    (s.reused params p f).queuesBounded := by
  rw [State.queuesBounded_iff] at h ⊢
  refine ⟨by cases p <;> exact h.1, fun q => ?_⟩
  rw [State.reused, State.modifyPort_params]
  by_cases e : p = q
  · subst e
    rw [State.port_modifyPort]
    exact hf (h.2 p)
  · rw [State.port_modifyPort_ne _ _ e, ho q (Ne.symm e)]
    exact h.2 q

theorem State.reused_servedAt (ho : ∀ q, q ≠ p → params.inUse q = s.params.inUse q)
    (hstation : params.station = s.params.station) (h : s.transmittersServed) {q : Port} (e : q ≠ p) :
    (s.reused params p f).servedAt q :=
  State.servedAt_of_same (h q) (by rw [State.reused, State.modifyPort_params, ho q e])
    (State.port_modifyPort_ne _ _ (Ne.symm e)) (State.modifyPort_roster _ p f)
    (by rw [State.reused, State.modifyPort_params, hstation])

/-- A port put out of use (R122, R150). -/
theorem State.closePort_sound (hp : params.inUse p = false) (ho : ∀ q, q ≠ p → params.inUse q = s.params.inUse q)
    (hstation : params.station = s.params.station) (hlimit : params.recordLimit = s.params.recordLimit) :
    s.sound (({ s with params := params } : State).closePort p) := by
  have lost (u : State) : u.settles (u.losePort p).reportLinkDown :=
    (u.losePort_settles p).trans (State.reportLinkDown_stays _).settles
  refine State.sound_of_inside (State.reused_inside hlimit) (lost _) (fun h => (lost _).queues ?_) fun h => (lost _).served ?_
  · exact State.reused_queues ho (fun _ => ⟨by simp, by simp, fun _ => ⟨rfl, rfl, rfl, rfl⟩⟩) h
  · intro q
    by_cases e : q = p
    · subst e
      intro hu
      rw [State.modifyPort_params, hp] at hu
      exact absurd hu (by simp)
    · exact State.reused_servedAt ho hstation h e

/-- A port put in use (R122). -/
theorem State.openPort_sound (hp : params.inUse p = true) (ho : ∀ q, q ≠ p → params.inUse q = s.params.inUse q)
    (hstation : params.station = s.params.station) (hlimit : params.recordLimit = s.params.recordLimit) :
    s.sound (({ s with params := params } : State).openPort p) := by
  have served (u : State) : u.stays (u.arbitrate p).reportLinkDown :=
    (u.arbitrate_stays p).trans (State.reportLinkDown_stays _)
  refine State.sound_of_inside (State.reused_inside hlimit) (served _).settles (fun h => (served _).queues ?_) fun h => ?_
  · exact State.reused_queues ho (fun ⟨h1, h2, _⟩ => ⟨h1, h2, fun e => absurd e (by simp [hp])⟩) h
  · exact (State.reportLinkDown_stays _).served
      (State.arbitrate_served fun q e => State.reused_servedAt ho hstation h e)

end

/-! ## A new station number (R138) -/

theorem State.setSoft_handover (s : State) (i j : Fin 48) (fault : SoftFault) :
    ((s.setSoft i fault).record j).handover = (s.record j).handover := by
  rw [State.setSoft, State.record_congr (State.offerReason_roster _ _ _), State.record_modifyRecord_eq]
  split
  case isTrue e => subst e; rfl
  case isFalse => rfl

theorem State.dropContext_handover (s : State) (i j : Fin 48) :
    ((s.dropContext i).record j).handover = if j = i then none else (s.record j).handover := by
  rw [State.dropContext, State.record_modifyRecord_eq]
  by_cases e : i = j <;> simp [e, eq_comm]

theorem State.fallToPaging_handover (s : State) (i j : Fin 48) (peer : Nat) :
    ((s.fallToPaging i peer).record j).handover = if j = i then none else (s.record j).handover := by
  unfold State.fallToPaging
  split
  · by_cases e : i = j
    · subst e
      simp
    · rw [State.record_modifyRecord_ne _ _ e, State.enterPaging, State.record_modifyRecord_ne _ _ e, if_neg (Ne.symm e)]
  · exact s.dropContext_handover i j

theorem State.loseContext_handover (s : State) (i j : Fin 48) :
    ((s.loseContext i).record j).handover = if j = i then none else (s.record j).handover := by
  unfold State.loseContext
  cases hc : (s.record i).handover with
  | none =>
      by_cases e : j = i
      · rw [if_pos e, e, hc]
      · rw [if_neg e]
  | some c =>
      cases hr : c.role with
      | claiming => simp only [hr, State.lapseClaim, State.setSoft_handover, State.dropContext_handover]
      | handing => simp only [hr, State.fallToPaging_handover]

theorem State.endContexts_handover (s : State) (j : Fin 48) : (s.endContexts.record j).handover = none := by
  have fold : ∀ (l : List (Fin 48)) (u : State),
      ((l.foldl State.loseContext u).record j).handover = if j ∈ l then none else (u.record j).handover := by
    intro l
    induction l with
    | nil => intro u; simp
    | cons i l ih =>
        intro u
        rw [List.foldl_cons, ih, State.loseContext_handover]
        by_cases e : j = i <;> by_cases m : j ∈ l <;> simp [e, m]
  have all := fold allRecords s
  rwa [if_pos (show j ∈ allRecords from List.mem_finRange j)] at all

theorem State.endContexts_settles (s : State) : s.settles s.endContexts :=
  foldl_rel State.settles.refl State.settles.trans State.loseContext_settles allRecords s

theorem State.endContexts_ports (s : State) : s.endContexts.ports = s.ports :=
  foldl_rel (R := fun s t => t.ports = s.ports) (fun _ => rfl) 
    (fun {a b c : State} (h : b.ports = a.ports) (k : c.ports = b.ports) => k.trans h) State.loseContext_ports allRecords s

/-- The station number changed: every context ends (R138). -/
theorem State.endContexts_sound {s : State} {p : Params} (huse : ∀ q, p.inUse q = s.params.inUse q)
    (hlimit : p.recordLimit = s.params.recordLimit) : s.sound ({ s with params := p } : State).endContexts := by
  have step := State.endContexts_settles { s with params := p }
  refine State.sound_of_inside (u := { s with params := p }) ⟨rfl, rfl, rfl, rfl, rfl, by rw [hlimit]; exact id⟩ step
    (fun h => step.queues ?_) fun h => ?_
  · rw [State.queuesBounded_iff] at h ⊢
    exact ⟨h.1, fun q => by rw [huse q]; exact h.2 q⟩
  · intro q hu hs
    have port : ({ s with params := p } : State).endContexts.port q = s.port q :=
      State.port_congr (State.endContexts_ports _) q
    rw [step.params, huse] at hu
    rw [port] at hs ⊢
    obtain ⟨h1, h2, -⟩ := h q hu hs
    exact ⟨h1, h2, fun i => by simp [State.dueThrough, State.endContexts_handover]⟩

end Sys2Proof.Machine

/-! Configuration and the resets. -/

namespace Sys2Proof.Machine

/-! ## Configuration (R167) -/

theorem Params.set_recordLimit {p : Params} {name : ParamName} {v : Nat} (h : p.inRange name v = true)
    (hl : p.recordLimit ≤ 8) : (p.set name v).recordLimit ≤ 8 := by
  cases name with
  | recordLimit =>
      simp only [Params.inRange, Bool.and_eq_true, decide_eq_true_eq] at h
      exact h.2
  | portUse q => cases q <;> exact hl
  | classPeriod | arbiterMode | deliveryMode | action =>
      unfold Params.set
      dsimp only
      split <;> exact hl
  | _ => exact hl

theorem Params.set_inUse {p : Params} {name : ParamName} {v : Nat} {q : Port} (h : name ≠ .portUse q) :
    (p.set name v).inUse q = p.inUse q := by
  cases name with
  | portUse r =>
      have e : r ≠ q := fun e => h (by rw [e])
      cases r <;> cases q <;> simp_all [Params.set, Params.inUse]
  | classPeriod | arbiterMode | deliveryMode | action =>
      unfold Params.set
      dsimp only
      split <;> rfl
  | _ => rfl

theorem Params.set_station {p : Params} {name : ParamName} {v : Nat} (h : name ≠ .station) :
    (p.set name v).station = p.station := by
  cases name with
  | station => exact absurd rfl h
  | portUse q => cases q <;> rfl
  | classPeriod | arbiterMode | deliveryMode | action =>
      unfold Params.set
      dsimp only
      split <;> rfl
  | _ => rfl

theorem Params.set_recordLimit_same {p : Params} {v : Nat} {q : Port} :
    (p.set (.portUse q) v).recordLimit = p.recordLimit := by
  cases q <;> rfl

/-- A parameter that is set, and heeded at once only by a report (R167). -/
theorem State.configured_sound {s t : State} {name : ParamName} {v : Nat} (hr : s.params.inRange name v = true)
    (hn : name ≠ .station) (hp : ∀ q, name ≠ .portUse q)
    (h : ({ s with params := s.params.set name v } : State).settles t) : s.sound t :=
  State.sound_of_params (fun q => Params.set_inUse (hp q)) (Params.set_station hn) (Params.set_recordLimit hr) h

/-- A port's use set to what it was leaves queues and transmitters alone. -/
theorem State.portUse_same_sound {s : State} {p : Port} {v : Nat} (h : (s.params.set (.portUse p) v).inUse p = s.params.inUse p) :
    s.sound { s with params := s.params.set (.portUse p) v } := by
  refine State.sound_of_params (fun q => ?_) (Params.set_station (by simp)) (by rw [Params.set_recordLimit_same]; exact id)
    (State.settles.refl _)
  by_cases e : q = p
  · rw [e, h]
  · exact Params.set_inUse (by simpa using Ne.symm e)

theorem State.parameterChanged_sound {s : State} {name : ParamName} {v : Nat} (hr : s.params.inRange name v = true) :
    s.sound (({ s with params := s.params.set name v } : State).parameterChanged s.params name) := by
  cases name with
  | station =>
      simp only [State.parameterChanged]
      split
      case isTrue h =>
        exact State.sound_of_params (fun q => Params.set_inUse (by simp)) (by simpa using h) id (State.settles.refl _)
      case isFalse => exact State.endContexts_sound (fun q => Params.set_inUse (by simp)) rfl
  | portUse p =>
      have other : ∀ q, q ≠ p → (s.params.set (.portUse p) v).inUse q = s.params.inUse q :=
        fun q e => Params.set_inUse (by simpa using Ne.symm e)
      simp only [State.parameterChanged]
      (repeat' split)
      case isTrue h => exact State.portUse_same_sound (by simpa using h)
      case isFalse.isTrue h => exact State.openPort_sound h other (Params.set_station (by simp)) Params.set_recordLimit_same
      case isFalse.isFalse h =>
        exact State.closePort_sound (by simpa using h) other (Params.set_station (by simp)) Params.set_recordLimit_same
  | poolLow | airCheck | darkLimit | portCheckThreshold =>
      exact State.configured_sound hr (by simp) (by simp) (State.reportCause_stays _ _ _).settles
  | _ => exact State.configured_sound hr (by simp) (by simp) (State.settles.refl _)

theorem State.configure_sound (s : State) (name : ParamName) (v : Nat) : s.sound (s.configure name v) := by
  unfold State.configure
  (repeat' split)
  · exact (s.refuse_stays _).sound
  · exact (s.refuse_stays _).sound
  case isFalse.isFalse h _ =>
    exact (State.parameterChanged_sound (by simpa using h)).trans (State.respond_stays _ _ _).sound

/-! ## The resets (R166) -/

/-- The parts that both resets set to their first values, the ports aside. -/
structure State.blank (s : State) : Prop where
  roster : s.roster = Roster.reset
  cells : s.cells = Cells.reset
  pool : s.pool = Pool.reset
  inbound : s.inbound = []
  sweep : s.sweep = Sweep.reset
  attention : s.host.attention = []

theorem State.blank.record {s : State} (h : s.blank) (i : Fin 48) : s.record i = Record.free := by
  simp [State.record, h.roster, Roster.reset]

theorem State.blank.countRecords {s : State} (h : s.blank) {test : Record → Bool} (ht : test Record.free = false) :
    s.countRecords test = 0 := by
  unfold State.countRecords
  rw [List.countP_eq_zero]
  intro i _
  rw [h.record, ht]
  simp

theorem State.blank.cell {s : State} (h : s.blank) (slot phase : Nat) : s.cell slot phase = none := by
  by_cases k : 3 ≤ slot ∧ slot ≤ 31 ∧ phase < 8
  · obtain ⟨k1, k2, k3⟩ := k
    rw [State.cell_eq _ k1 k2 k3]
    simp [h.cells, Cells.reset]
  · simp [State.cell, k]

theorem State.blank.attentionDistinct {s : State} (h : s.blank) : s.attentionDistinct := by
  simp [State.attentionDistinct, h.attention]

theorem State.blank.carIdsUnique {s : State} (h : s.blank) : s.carIdsUnique := fun i j hi => absurd (by rw [h.record]; rfl) hi

theorem State.blank.tagsUnique {s : State} (h : s.blank) : s.tagsUnique := by
  have free : ∀ i, (s.record i).contact = .free := fun i => by rw [h.record]; rfl
  have counter : s.roster.tagCounter = 1 := by rw [h.roster]; rfl
  exact ⟨fun i _ _ hi => absurd (free i) hi, fun i _ hi => absurd (free i) hi, by omega, by omega,
    fun i hi => absurd (free i) hi⟩

theorem State.blank.planConsistent {s : State} (h : s.blank) : s.planConsistent := by
  rw [State.planConsistent_iff]
  intro i
  have row : s.plot.1 i = (.free, none, none) := by
    simp only [State.plot, h.record]
    rfl
  rw [row]
  refine planFits_bare (ContactState.bare_iff.mpr (.inl rfl)) fun slot phase role e => ?_
  rw [State.holds, h.cell] at e
  exact absurd e (by simp)

theorem State.blank.poolConsistent {s : State} (h : s.blank) (hl : s.params.recordLimit ≤ 8) : s.poolConsistent := by
  have none_ : ∀ b : Fin 64, s.pool[b] = none := fun b => by simp [h.pool, Pool.reset]
  refine ⟨fun i b => ?_, fun i => ?_, fun i b => ?_, fun i _ => ?_, hl⟩ <;> rw [h.record]
  · rw [none_]
    simp [Record.free]
  · simp [Record.free]
  · simp [Record.free]
  · rfl

theorem State.blank.countsAgree {s : State} (h : s.blank) : s.countsAgree := by
  refine ⟨?_, ?_, ?_, ?_, fun i _ => ?_⟩
  · rw [h.countRecords rfl, h.roster]
    rfl
  · simp [h.roster, Roster.reset]
  · rw [h.countRecords rfl, h.roster]
    rfl
  · simp [h.roster, Roster.reset]
  · rw [h.record]
    exact ⟨rfl, rfl⟩

theorem State.blank.sweepAgrees {s : State} (h : s.blank) : s.sweepAgrees := by
  unfold State.sweepAgrees
  rw [h.sweep]
  simp [Sweep.reset]

/-- A step to a state with every list and record blank. -/
theorem State.blank.sound {s t : State} (h : t.blank) (hl : s.params.recordLimit ≤ 8 → t.params.recordLimit ≤ 8)
    (hq : t.queuesBounded) (hs : t.transmittersServed) : s.sound t where
  queues := fun _ => hq
  attention := fun _ => h.attentionDistinct
  served := fun _ => hs
  cars := fun _ => h.carIdsUnique
  tags := fun _ => h.tagsUnique
  pool := fun ⟨_, _, _, _, limit⟩ => h.poolConsistent (hl limit)
  counts := fun _ => h.countsAgree
  sweep := fun _ => h.sweepAgrees
  plan := fun _ => h.planConsistent

theorem State.reset_blank : State.reset.blank := ⟨rfl, rfl, rfl, rfl, rfl, rfl⟩

theorem State.reset_port (p : Port) : State.reset.port p = PortState.reset := by
  cases p <;> rfl

theorem State.reset_queuesBounded : State.reset.queuesBounded := by
  rw [State.queuesBounded_iff]
  refine ⟨by decide, fun p => ?_⟩
  rw [State.reset_port]
  exact ⟨by decide, by decide, fun _ => ⟨rfl, rfl, rfl, rfl⟩⟩

theorem State.reset_transmittersServed : State.reset.transmittersServed := by
  intro p _ _
  rw [State.reset_port]
  refine ⟨rfl, rfl, fun i => ?_⟩
  rw [State.dueThrough, State.reset_blank.record]
  rfl

theorem State.powerOn_sound (s : State) (held : Bool) (pending : List Instr) :
    s.sound { State.reset with resetHeld := held, pending := pending } :=
  State.blank.sound ⟨rfl, rfl, rfl, rfl, rfl, rfl⟩ (fun _ => (by decide : State.reset.params.recordLimit ≤ 8))
    State.reset_queuesBounded State.reset_transmittersServed

theorem State.resetBlocks_blank (s : State) : s.resetBlocks.blank := ⟨rfl, rfl, rfl, rfl, rfl, rfl⟩

theorem State.resetBlocks_queues (s : State) : s.resetBlocks.queuesBounded := by
  have port : ∀ (q : PortState) u, (q.afterReset u).bounded u := fun q u =>
    ⟨Nat.zero_le _, Nat.zero_le _, fun e => ⟨rfl, rfl, rfl, e⟩⟩
  exact ⟨Nat.zero_le _, port _ _, port _ _⟩

/-- After a station reset no transmitter of a port in use idles while its HELLO is due (R137). -/
theorem State.arbitrateBoth_served (s : State) : ((s.arbitrate .inbye).arbitrate .outbye).transmittersServed :=
  State.arbitrate_served fun q e => by
    have inbye : q = .inbye := by
      cases q with
      | inbye => rfl
      | outbye => exact absurd rfl e
    exact inbye ▸ s.arbitrate_servedAt .inbye

theorem State.stationReset_moves (s : State) :
    s.resetBlocks.stays s.stationReset :=
  ((State.arbitrate_stays _ .inbye).trans (State.arbitrate_stays _ .outbye)).trans (State.reportCause_stays _ _ _)

theorem State.stationReset_sound (s : State) : s.sound s.stationReset := by
  have h := s.stationReset_moves
  have b := s.resetBlocks_blank
  exact
    { queues := fun _ => h.queues s.resetBlocks_queues
      attention := fun _ => h.attention b.attentionDistinct
      served := fun _ => (State.reportCause_stays _ _ _).served (State.arbitrateBoth_served _)
      cars := fun _ => h.cars b.carIdsUnique
      tags := fun _ => h.tags b.tagsUnique
      pool := fun ⟨_, _, _, _, limit⟩ => h.pool (b.poolConsistent limit)
      counts := fun _ => h.counts b.countsAgree
      sweep := fun _ => h.sweep b.sweepAgrees
      plan := fun _ => h.settles.plan b.planConsistent }

theorem State.orderReset_sound (s : State) : s.sound s.orderReset := by
  refine State.sound.trans ?_ (State.respond_stays _ _ _).sound
  split
  · exact s.stationReset_sound
  · exact ⟨⟨id, id, id, id, id, id, id, id⟩, id⟩

theorem State.pendingReset_sound (s : State) : s.sound s.pendingReset := by
  unfold State.pendingReset
  split
  · exact s.stationReset_sound
  · exact .refl s

theorem State.slotEnd_sound (s : State) : s.sound s.slotEnd := by
  unfold State.slotEnd
  (repeat' split)
  · exact s.stationReset_sound
  · exact s.finishSlot_sound _
  · exact .refl s

end Sys2Proof.Machine

/-! Every step keeps the invariants. -/

namespace Sys2Proof.Machine

/-! ## The effect of every command -/

theorem State.onIndex_settles {s : State} {params : List Byte} {f : Fin 48 → State → State}
    (h : ∀ i, s.settles (f i s)) : s.settles (s.onIndex params f) := by
  unfold State.onIndex
  split
  · exact h _
  · exact (s.refuse_stays _).settles

theorem State.clearSoft_command_settles (s : State) (params : List Byte) (c : HeldCommand) :
    s.settles (s.onIndex params fun i s => (s.clearSoft i).command i c) :=
  State.onIndex_settles fun i => (s.clearSoft_stays i).settles.trans (State.command_settles _ i c)

/-- A command's effect within a slot: every command but those on the air, the parameters and the resets. -/
def insideSlot : Instr → Bool
  | .setMask _ | .configure _ | .setLanes _ | .openAir _ _ | .closeAir _ | .stationReset _ | .resetNAssert
  | .resetNRelease | .stationResetTakesEffect | .slotStart _ | .upFrameReceive _ _ | .rfReadyFall _ | .slotEnd => false
  | _ => true

theorem effect_settles {c : Instr} (hc : insideSlot c = true) (s : State) : s.settles (effect c s) := by
  have keep (params : List Byte) (keep : Bool) :
      s.settles (s.onIndex params fun i s => (s.clearSoft i).keepRecord i keep) :=
    State.onIndex_settles fun i => ((s.clearSoft_stays i).trans (State.keepRecord_stays _ i keep)).settles
  have refuse (status : Status) : s.settles (s.refuse status) := (s.refuse_stays status).settles
  have respond (status : Status) (bytes : List Byte) : s.settles (s.respond status bytes) := (s.respond_stays status bytes).settles
  cases c with
  | setMask | configure | setLanes | openAir | closeAir | stationReset | resetNAssert | resetNRelease
  | stationResetTakesEffect | slotStart | upFrameReceive | rfReadyFall | slotEnd => exact absurd hc (by simp [insideSlot])
  | readRecord p => exact State.onIndex_settles (s := s) (f := fun i s => s.respond .done (s.recordBytes i)) fun i => respond _ _
  | findCar p =>
      simp only [effect]
      split
      · exact (s.findCar_stays _).settles
      · exact .refl s
  | post p =>
      simp only [effect]
      (repeat' split)
      · exact ((s.clearSoft_stays _).trans (State.postTo_stays _ _ _ _)).settles
      · exact refuse _
      · exact .refl s
  | retire p => exact s.clearSoft_command_settles p .retire
  | release p => exact s.clearSoft_command_settles p .release
  | retune p =>
      simp only [effect]
      split
      · exact s.clearSoft_command_settles _ _
      · exact .refl s
  | summon p =>
      simp only [effect]
      (repeat' split)
      · exact s.summonCar_settles _
      · exact refuse _
      · exact .refl s
  | pin p => exact s.clearSoft_command_settles p .pin
  | unpin p => exact s.clearSoft_command_settles p .unpin
  | setKeep p => exact keep p true
  | clearKeep p => exact keep p false
  | clearFault p => exact s.clearSoft_command_settles p .clearFault
  | sweepStart p =>
      simp only [effect]
      (repeat' split)
      · exact refuse _
      · exact refuse _
      · exact ((s.startSweep_stays _ _ _ _).trans (State.respond_stays _ _ _)).settles
      · exact .refl s
  | sweepHalt p => exact s.haltSweep_stays.settles
  | sweepResume p => exact s.resumeSweep_stays.settles
  | sweepCancel p => exact s.cancelSweep_stays.settles
  | readSweep p => exact s.readSweep_stays.settles
  | readInbound p => exact s.readInbound_stays.settles
  | flushInbound p =>
      exact ((State.stays_of_read (s := s) (inbound := []) (Nat.zero_le _) (List.Sublist.refl _)).trans
        (State.respond_stays _ _ _)).settles
  | nextAttention p => exact s.nextAttention_stays.settles
  | readStation p => exact respond _ _
  | clearCounts p => exact (s.clearCounts_stays.trans (State.respond_stays _ _ _)).settles
  | clearCondition p =>
      simp only [effect]
      (repeat' split)
      · exact (s.clearLatch_stays _).settles
      · exact refuse _
      · exact .refl s
  | forceCondition p =>
      simp only [effect]
      (repeat' split)
      · exact ((s.forceClass_stays _ _).trans (State.respond_stays _ _ _)).settles
      · exact refuse _
      · exact .refl s
  | readParam p =>
      simp only [effect]
      (repeat' split)
      · exact respond _ _
      · exact refuse _
      · exact .refl s
  | flushPort p =>
      simp only [effect]
      (repeat' split)
      · exact (s.flushPort_stays _).settles
      · exact refuse _
      · exact .refl s
  | clearPortCheck p => exact ((s.setPortCheck_stays 0).trans (State.respond_stays _ _ _)).settles
  | identify p =>
      simp only [effect]
      split
      · exact respond _ _
      · exact refuse _
  | badCheckRequest bytes => exact ((s.setPortCheck_stays _).trans (State.refuse_stays _ _)).settles
  | badCommandRequest code p => exact refuse _
  | sweepDeadline => exact s.sweepDeadline_stays.settles
  | backboneFrameReceive p bytes => exact (s.receiveFrame_stays p bytes).settles
  | receiveQueueTake p => exact s.takeReceived_settles p
  | helloTimerExpiry p => exact (s.helloDue_stays p).settles
  | silenceTimeout p => exact s.silenceEnds_settles p
  | transmitComplete p => exact (s.transmitted_stays p).settles
  | claimExpiry i =>
      simp only [effect]
      (repeat' split)
      · exact ((s.reachDeadline_stays _).trans (State.expireClaim_stays _ i _)).settles
      · exact .refl s
      · exact .refl s
  | handingExpiry i =>
      simp only [effect]
      (repeat' split)
      · exact (s.reachDeadline_stays _).settles.trans (State.expireHanding_settles _ i _)
      · exact .refl s
      · exact .refl s

theorem effect_sound (c : Instr) (s : State) : s.sound (effect c s) := by
  cases h : insideSlot c with
  | true => exact (effect_settles h s).sound
  | false =>
      cases c with
      | setMask p =>
          simp only [effect]
          split
          · exact s.setMask_sound _ _
          · exact .refl s
      | configure p =>
          simp only [effect]
          (repeat' split)
          · exact s.configure_sound _ _
          · exact (s.refuse_stays _).sound
          · exact .refl s
      | setLanes p =>
          simp only [effect]
          split
          case h_1 lanes =>
            exact State.sound_of_params
              (p := { s.params with urgentLane := bitOf lanes 1, routineLane := bitOf lanes 0 })
              (fun q => by cases q <;> rfl) rfl id (State.respond_stays _ _ _).settles
          case h_2 => exact .refl s
      | openAir p ready => exact s.openAir_sound ready
      | closeAir p => exact s.closeAir_sound
      | stationReset p => exact s.orderReset_sound
      | resetNAssert => exact s.powerOn_sound true s.pending
      | resetNRelease => exact ⟨⟨id, id, id, id, id, id, id, id⟩, id⟩
      | stationResetTakesEffect => exact s.pendingReset_sound
      | slotStart ready => exact s.slotStart_sound ready
      | upFrameReceive bytes level => exact s.receiveUp_sound bytes level.val
      | rfReadyFall during => exact s.readyFalls_sound during
      | slotEnd => exact s.slotEnd_sound
      | _ => exact absurd h (by simp [insideSlot])

theorem exec_sound {c : Instr} {s t : State} (h : exec c s = .next t) : s.sound t :=
  exec_rel h (.refl s) (fun status => (s.refuse_stays status).sound) (effect_sound c s)

/-- A step keeps every invariant but that of the air and that of the parameters. -/
theorem step_sound {s t : State} (h : step s = .next t) : s.sound t := by
  unfold step at h
  split at h
  case h_1 c rest e => exact State.sound.trans (t := { s with pending := rest }) ⟨⟨id, id, id, id, id, id, id, id⟩, id⟩ (exec_sound h)
  case h_2 =>
    obtain rfl := Host.Outcome.next.inj h
    exact s.passMillisecond_stays.sound

/-- Settles O2: the effect of every command leaves the transmitters served (`effect_sound`). -/
theorem noFrameWaitsOnAnIdleTransmitter : Obligations.NoFrameWaitsOnAnIdleTransmitter :=
  fun _ _ hs h => (step_sound h).served hs

/-- Settles O53, by `step_sound`. -/
theorem listsStayBoundedAndDistinct : Obligations.ListsStayBoundedAndDistinct :=
  ⟨fun _ _ hs h => (step_sound h).queues hs, fun _ _ hs h => (step_sound h).attention hs⟩

/-- Settles O55, by `step_sound`. -/
theorem carIdsStayUnique : Obligations.CarIdsStayUnique := fun _ _ hs h => (step_sound h).cars hs

/-- Settles O56, by `step_sound`. -/
theorem tagsStayUnique : Obligations.TagsStayUnique := fun _ _ hs h => (step_sound h).tags hs

/-- Settles O58, by `step_sound`. -/
theorem thePlanStaysConsistent : Obligations.ThePlanStaysConsistent := fun _ _ hs h => (step_sound h).plan hs

/-- Settles O60, by `step_sound`. -/
theorem theCountsStayInAgreement : Obligations.TheCountsStayInAgreement :=
  ⟨fun _ _ hs h => (step_sound h).counts hs, fun _ _ hs h => (step_sound h).sweep hs⟩

/-! ## Buffers and listed messages number 64 (R104) -/

theorem State.poolConsistent.listedOnce {s : State} (h : s.poolConsistent) (b : Fin 64) :
    (∑ i : Fin 48, if b ∈ (s.record i).messages then 1 else 0) = if (s.pool[b]).isNone then 0 else 1 := by
  obtain ⟨lists, -⟩ := h
  cases e : s.pool[b] with
  | none =>
      refine Finset.sum_eq_zero fun i _ => if_neg fun k => ?_
      obtain ⟨m, hm, -⟩ := (lists i b).mp k
      rw [e] at hm
      exact absurd hm (by simp)
  | some m =>
      have one : ∀ i, b ∈ (s.record i).messages ↔ i = m.target := by
        intro i
        rw [lists, e]
        simp [eq_comm]
      simp [one]

theorem sum_mem_of_nodup {l : List (Fin 64)} (h : l.Nodup) : l.length = ∑ b : Fin 64, if b ∈ l then 1 else 0 := by
  have card := List.toFinset_card_of_nodup h
  rw [← card, Finset.card_eq_sum_ones, ← Finset.sum_filter]
  congr 1
  ext b
  simp

theorem vector_toList_eq {α : Type} {n : Nat} (v : Vector α n) : v.toList = (List.finRange n).map fun k : Fin n => v[k] :=
  List.ext_getElem (by simp) fun n h1 h2 => by simp

theorem State.freeBuffers_eq_sum (s : State) :
    s.freeBuffers = ∑ b : Fin 64, if (s.pool[b]).isNone then 1 else 0 := by
  have count : ∀ l : List (Fin 64), (l.map fun b : Fin 64 => s.pool[b]).countP Option.isNone =
      (l.map fun b : Fin 64 => if (s.pool[b]).isNone then 1 else 0).sum := by
    intro l
    induction l with
    | nil => rfl
    | cons b l ih =>
        rw [List.map_cons, List.map_cons, List.countP_cons, List.sum_cons, ih]
        omega
  rw [State.freeBuffers, vector_toList_eq, count, Fin.sum_univ_def]

theorem State.poolConsistent.buffersNumber {s : State} (h : s.poolConsistent) :
    s.freeBuffers + (allRecords.map fun i => (s.record i).messages.length).sum = 64 := by
  have listed : (allRecords.map fun i => (s.record i).messages.length).sum =
      ∑ b : Fin 64, if (s.pool[b]).isNone then 0 else 1 := by
    calc (allRecords.map fun i => (s.record i).messages.length).sum
        = ∑ i : Fin 48, (s.record i).messages.length := (Fin.sum_univ_def _).symm
      _ = ∑ i : Fin 48, ∑ b : Fin 64, if b ∈ (s.record i).messages then 1 else 0 :=
          Finset.sum_congr rfl fun i _ => sum_mem_of_nodup (h.2.1 i).1
      _ = ∑ b : Fin 64, ∑ i : Fin 48, if b ∈ (s.record i).messages then 1 else 0 := Finset.sum_comm
      _ = ∑ b : Fin 64, if (s.pool[b]).isNone then 0 else 1 := Finset.sum_congr rfl fun b _ => h.listedOnce b
  rw [s.freeBuffers_eq_sum, listed, ← Finset.sum_add_distrib]
  calc ∑ b : Fin 64, ((if (s.pool[b]).isNone then 1 else 0) + if (s.pool[b]).isNone then 0 else 1)
      = ∑ _b : Fin 64, 1 := Finset.sum_congr rfl fun b _ => by split <;> rfl
    _ = 64 := by simp

/-- Settles O59: pool and lists are kept by `step_sound`, and the 64 buffers are counted once each, free or listed. -/
theorem thePoolStaysConsistent : Obligations.ThePoolStaysConsistent :=
  ⟨fun _ _ hs h => (step_sound h).pool hs, fun _ hs => hs.buffersNumber⟩

end Sys2Proof.Machine

/-! Parameters, the air, the step and RESET_N. -/

namespace Sys2Proof.Machine

/-! ## What no command changes, and what few do (R110, R165, R167, R169) -/

/-- The parameters and the queue of commands. -/
def State.kept (s : State) : Params × List Instr := (s.params, s.pending)

theorem State.kept_of_calm {s t : State} (h : t.calm = s.calm) : t.kept = s.kept :=
  Prod.ext (State.params_of_calm h) (State.pending_of_calm h)

theorem State.within.kept {s t : State} (h : s.within t) : t.kept = s.kept := Prod.ext h.params h.pending

theorem State.respond_kept (s : State) (status : Status) (results : List Byte) : (s.respond status results).kept = s.kept :=
  rfl

theorem State.openAir_kept (s : State) (ready : Bool) : (s.openAir ready).kept = s.kept := by
  unfold State.openAir
  split
  · split
    · rfl
    · rw [State.respond_kept, State.kept_of_calm (State.startSlot_calm _ _ _)]
      rfl
  · rfl
  · rfl

theorem State.closeAir_kept (s : State) : s.closeAir.kept = s.kept := by
  unfold State.closeAir
  rw [State.respond_kept]
  split <;> rfl

theorem State.stationReset_kept (s : State) : s.stationReset.kept = s.kept :=
  (s.stationReset_moves.towithin.kept).trans rfl

theorem State.orderReset_kept (s : State) : s.orderReset.kept = s.kept := by
  unfold State.orderReset
  rw [State.respond_kept]
  split
  · exact s.stationReset_kept
  · rfl

theorem State.pendingReset_kept (s : State) : s.pendingReset.kept = s.kept := by
  unfold State.pendingReset
  split
  · exact s.stationReset_kept
  · rfl

theorem State.slotEnd_kept (s : State) : s.slotEnd.kept = s.kept := by
  unfold State.slotEnd
  (repeat' split)
  · exact s.stationReset_kept
  · exact State.kept_of_calm (s.finishSlot_calm _)
  · rfl

theorem effect_kept {c : Instr} (hc : ∀ p, c ≠ .configure p) (hm : ∀ p, c ≠ .setMask p) (hl : ∀ p, c ≠ .setLanes p)
    (hr : c ≠ .resetNAssert) (s : State) : (effect c s).kept = s.kept := by
  cases h : insideSlot c with
  | true => exact (effect_settles h s).towithin.kept
  | false =>
      cases c with
      | configure p => exact absurd rfl (hc p)
      | setMask p => exact absurd rfl (hm p)
      | setLanes p => exact absurd rfl (hl p)
      | resetNAssert => exact absurd rfl hr
      | resetNRelease => rfl
      | openAir p ready => exact s.openAir_kept ready
      | closeAir p => exact s.closeAir_kept
      | stationReset p => exact s.orderReset_kept
      | stationResetTakesEffect => exact s.pendingReset_kept
      | slotStart ready => exact State.kept_of_calm (s.slotStart_calm ready)
      | upFrameReceive bytes level => exact State.kept_of_calm (s.receiveUp_calm bytes level.val)
      | rfReadyFall during => exact State.kept_of_calm (s.readyFalls_calm during)
      | slotEnd => exact s.slotEnd_kept
      | _ => exact absurd h (by simp [insideSlot])

theorem State.setMask_pending (s : State) (mask : Byte) (enables : Nat) : (s.setMask mask enables).pending = s.pending := by
  unfold State.setMask
  (repeat' split) <;> rfl

theorem State.configure_pending (s : State) (name : ParamName) (v : Nat) : (s.configure name v).pending = s.pending := by
  unfold State.configure
  (repeat' split)
  · rfl
  · rfl
  · have calm := State.parameterChanged_calm { s with params := s.params.set name v } s.params name
    exact (State.pending_of_calm calm :)

theorem effect_pending (c : Instr) (s : State) : (effect c s).pending = s.pending := by
  have others (hc : ∀ p, c ≠ .configure p) (hm : ∀ p, c ≠ .setMask p) (hl : ∀ p, c ≠ .setLanes p) (hr : c ≠ .resetNAssert) :
      (effect c s).pending = s.pending := congrArg Prod.snd (effect_kept hc hm hl hr s)
  cases c with
  | configure p =>
      simp only [effect]
      (repeat' split)
      · exact s.configure_pending _ _
      · rfl
      · rfl
  | setMask p =>
      simp only [effect]
      split
      · exact s.setMask_pending _ _
      · rfl
  | setLanes p =>
      simp only [effect]
      split <;> rfl
  | resetNAssert => rfl
  | _ => exact others (by simp) (by simp) (by simp) (by simp)

/-- Settles O3: every command answers a state (`exec_answers`), whose queue is as it was. -/
theorem everyCommandGoesOn : Obligations.EveryCommandGoesOn := by
  refine ⟨fun c s => ?_, fun c s t h => exec_rel (R := fun s t => t.pending = s.pending) h rfl (fun _ => rfl) (effect_pending c s)⟩
  obtain ⟨t, e, -⟩ := exec_answers c s
  rw [e]
  rfl

theorem exec_setLanes (lanes : Byte) (s : State) :
    exec (.setLanes [lanes]) s = hostRequest true (effect (.setLanes [lanes])) s := rfl

theorem exec_params {c : Instr} {s t : State} (h : exec c s = .next t) (hc : ∀ p, c ≠ .configure p)
    (hm : ∀ p, c ≠ .setMask p) (hl : ∀ p, c ≠ .setLanes p) (hr : c ≠ .resetNAssert) : t.params = s.params :=
  exec_rel (R := fun s t => t.params = s.params) h rfl (fun _ => rfl) (congrArg Prod.fst (effect_kept hc hm hl hr s))

/-- Settles O14: SET_LANES answers at once, and no effect but those of the four commands touches the parameters. -/
theorem parametersChangeByTheirCommandsOnly : Obligations.ParametersChangeByTheirCommandsOnly := by
  refine ⟨fun s lanes h => ?_, fun c s t => exec_params⟩
  rw [exec_setLanes, hostRequest_taken h]
  rfl

/-! ## Parameters stay in range (R167) -/

theorem Params.set_value {p : Params} {name : ParamName} {v : Nat} (h : p.inRange name v = true) :
    (p.set name v).value name = v := by
  have bit : v ≤ 1 → flagAt 0 (v == 1) = v := by
    intro hv
    interval_cases v <;> rfl
  cases name with
  | classPeriod k =>
      have hv : v ≤ 3 := by simpa [Params.inRange] using h
      interval_cases v <;> simp [Params.set, Params.value, Period.ofCode, Period.code]
  | portUse q =>
      have hv : v ≤ 1 := by simpa [Params.inRange] using h
      cases q <;> exact bit hv
  | arbiterMode | deliveryMode =>
      have hv : v ≤ 1 := by simpa [Params.inRange] using h
      interval_cases v <;> rfl
  | entryEnable => exact bit (by simpa [Params.inRange] using h)
  | action c =>
      have hv : v ≤ 2 := by simpa [Params.inRange] using h
      interval_cases v <;> simp [Params.set, Params.value, Params.actionOf, Action.ofCode, Action.code]
  | _ => rfl

theorem Params.set_value_ne {p : Params} {name other : ParamName} {v : Nat} (h : other ≠ name) :
    (p.set name v).value other = p.value other := by
  have use : ∀ {q : Params} r, q.inbyeUse = p.inbyeUse → q.outbyeUse = p.outbyeUse →
      q.value (.portUse r) = p.value (.portUse r) := by
    intro q r h1 h2
    cases r
    · exact congrArg (flagAt 0) h1
    · exact congrArg (flagAt 0) h2
  cases name with
  | classPeriod k =>
      unfold Params.set
      dsimp only
      split
      case h_2 => rfl
      case h_1 q hq =>
        cases other with
        | classPeriod j =>
            have e : k.val ≠ j.val := fun e => h (by rw [Fin.ext e])
            simp [Params.value, Vector.getElem_set_ne _ _ e]
        | portUse r => exact use r rfl rfl
        | _ => rfl
  | portUse q =>
      cases other with
      | portUse r => cases q <;> cases r <;> simp_all [Params.set, Params.value, Params.inUse]
      | _ => cases q <;> rfl
  | action c =>
      unfold Params.set
      dsimp only
      split
      case h_2 => rfl
      case h_1 a ha =>
        cases other with
        | action d =>
            have e := ConditionClass.index_val_ne fun e : c = d => h (by rw [e])
            simp [Params.value, Params.actionOf, Vector.getElem_set_ne _ _ e]
        | portUse r => exact use r rfl rfl
        | _ => rfl
  | arbiterMode | deliveryMode =>
      unfold Params.set
      dsimp only
      split
      case h_2 => rfl
      case h_1 =>
        cases other with
        | portUse r => exact use r rfl rfl
        | arbiterMode | deliveryMode => simp_all [Params.value]
        | _ => rfl
  | _ =>
      cases other with
      | portUse r => exact use r rfl rfl
      | _ => simp_all [Params.set, Params.value, Params.actionOf]

/-- The ranges are fixed but for Lo and Hi, which are weighed against each other (R99, R167). -/
theorem Params.inRange_set {p : Params} {name other : ParamName} {v : Nat} (hlo : name = .hi → other ≠ .lo)
    (hhi : name = .lo → other ≠ .hi) (w : Nat) : (p.set name v).inRange other w = p.inRange other w := by
  cases other with
  | lo =>
      have hi : (p.set name v).hi = p.hi := Params.set_value_ne (other := .hi) fun e => hlo e.symm rfl
      simp only [Params.inRange, hi]
  | hi =>
      have lo : (p.set name v).lo = p.lo := Params.set_value_ne (other := .lo) fun e => hhi e.symm rfl
      simp only [Params.inRange, lo]
  | _ => rfl

theorem Params.valid.set {p : Params} (h : p.valid) {name : ParamName} {v : Nat} (hv : p.inRange name v = true) :
    (p.set name v).valid := by
  intro other
  by_cases e : other = name
  · subst e
    left
    rw [Params.set_value hv, Params.inRange_set (fun e => by simp [e]) (fun e => by simp [e])]
    exact hv
  · rw [Params.set_value_ne e]
    have old := h other
    by_cases pair : (name = .hi ∧ other = .lo) ∨ (name = .lo ∧ other = .hi)
    · left
      rcases pair with ⟨rfl, rfl⟩ | ⟨rfl, rfl⟩
      · simp_all [Params.inRange, Params.value, Params.set]
      · simp_all [Params.inRange, Params.value, Params.set]
    · have station : (p.set name v).station = p.station ∨ other ≠ .station := by
        by_cases k : name = .station
        · exact .inr fun f => e (f.trans k.symm)
        · exact .inl (Params.set_value_ne (other := .station) (Ne.symm k))
      rw [Params.inRange_set (fun k f => pair (.inl ⟨k, f⟩)) fun k f => pair (.inr ⟨k, f⟩)]
      rcases station with k | k
      · rwa [k]
      · exact .inl (old.resolve_right fun f => k f.1)

/-- A parameter's range is heeded by nothing that the two masks and the lane enables touch (R110, R169). -/
theorem Params.valid.masks {p : Params} (h : p.valid) (attention : BitVec 11) (event : BitVec 4) (urgent routine : Bool) :
    ({ p with attentionMask := attention, eventMask := event, urgentLane := urgent, routineLane := routine } : Params).valid := by
  intro name
  have old := h name
  cases name with
  | portUse q => cases q <;> exact old
  | _ => exact old

theorem Params.reset_valid : Params.reset.valid := by
  intro name
  cases name with
  | station => exact .inr ⟨rfl, rfl⟩
  | classPeriod k => left; revert k; decide
  | portUse q => left; cases q <;> decide
  | action c => left; cases c <;> decide
  | _ => left; decide

theorem State.setMask_valid {s : State} (h : s.params.valid) (mask : Byte) (enables : Nat) :
    (s.setMask mask enables).params.valid := by
  unfold State.setMask
  (repeat' split)
  · exact Params.valid.masks h _ s.params.eventMask s.params.urgentLane s.params.routineLane
  · exact h
  · exact Params.valid.masks h s.params.attentionMask _ s.params.urgentLane s.params.routineLane
  · exact h
  · exact h

theorem State.configure_valid {s : State} (h : s.params.valid) (name : ParamName) (v : Nat) :
    (s.configure name v).params.valid := by
  unfold State.configure
  (repeat' split)
  · exact h
  · exact h
  case isFalse.isFalse hv _ =>
    have calm := State.parameterChanged_calm { s with params := s.params.set name v } s.params name
    have params : (({ s with params := s.params.set name v } : State).parameterChanged s.params name).params =
        s.params.set name v := State.params_of_calm calm
    rw [State.respond_params, params]
    exact h.set (by simpa using hv)

theorem effect_valid (c : Instr) {s : State} (h : s.params.valid) : (effect c s).params.valid := by
  have others (hc : ∀ p, c ≠ .configure p) (hm : ∀ p, c ≠ .setMask p) (hl : ∀ p, c ≠ .setLanes p) (hr : c ≠ .resetNAssert) :
      (effect c s).params.valid := by
    have same : (effect c s).params = s.params := congrArg Prod.fst (effect_kept hc hm hl hr s)
    rwa [same]
  cases c with
  | configure p =>
      simp only [effect]
      (repeat' split)
      · exact State.configure_valid h _ _
      · exact h
      · exact h
  | setMask p =>
      simp only [effect]
      split
      · exact State.setMask_valid h _ _
      · exact h
  | setLanes p =>
      simp only [effect]
      split
      · exact Params.valid.masks h s.params.attentionMask s.params.eventMask _ _
      · exact h
  | resetNAssert => exact Params.reset_valid
  | _ => exact others (by simp) (by simp) (by simp) (by simp)

/-- Settles O57: a value is set only where it is in range (`Params.valid.set`). -/
theorem parametersStayInRange : Obligations.ParametersStayInRange := by
  intro s t h e
  unfold step at e
  split at e
  case h_1 c rest hp =>
    have keep := exec_rel (R := fun s t => s.params.valid → t.params.valid) e id (fun _ => id) (effect_valid c)
    exact keep h
  case h_2 =>
    obtain rfl := Host.Outcome.next.inj e
    rw [s.passMillisecond_stays.params]
    exact h

/-! ## The air hangs together (R1, R5, R7, R36, R166) -/

/-- Work within a slot leaves slot, work, exchange and a pending reset alone, and holds work for an exchange only. -/
theorem State.within.airConsistent {s t : State} (h : s.within t) (hs : s.airConsistent) : t.airConsistent := by
  obtain ⟨slot, noWork, idle, turn, held, reset⟩ := hs
  have e := h.air
  simp only [State.airFrame, Air.mk.injEq] at e
  obtain ⟨e1, -, e2, e3, -, -, -, -, -, -, e4, e5, e6⟩ := e
  unfold State.airConsistent
  rw [e1, e2, e3, e4, e5, e6, h.resetPending]
  exact ⟨slot, noWork, idle, turn, fun e => (h.held.resolve_right (not_not.mpr e)).trans (held e), reset⟩

/-- No slot runs, and nothing waits for one. -/
theorem State.airConsistent_closed {s : State} (h : s.air.state = .closed ∧ s.air.slot = none ∧ s.air.work = none
    ∧ s.air.exchange = none ∧ s.air.down = none ∧ s.air.up = none) (hh : s.roster.held = []) (hr : s.resetPending = false) :
    s.airConsistent := by
  obtain ⟨h1, h2, h3, h4, h5, h6⟩ := h
  exact ⟨iff_of_true h1 h2, fun _ => h3, fun _ => ⟨h4, h5, h6⟩, fun e => absurd h4 e, fun _ => hh, by simp [hr]⟩

/-- What the air's consistency reads of a state, but for the frames of the slot. -/
def State.slotView (s : State) : AirState × Option (Fin 32) × Option SlotPhase × Option Exchange × List HeldWork × Bool :=
  (s.air.state, s.air.slot, s.air.work, s.air.exchange, s.roster.held, s.resetPending)

theorem State.countSweepCycle_slotView (s : State) : s.countSweepCycle.slotView = s.slotView := by
  unfold State.countSweepCycle
  (repeat' split) <;> rfl

theorem State.startCycle_slotView (s : State) : s.startCycle.slotView = s.slotView :=
  (State.countSweepCycle_slotView _).trans rfl

theorem State.sampleReady_slotView (s : State) (ready : Bool) : (s.sampleReady ready).slotView = s.slotView := rfl

theorem State.prepareBeacon_slotView (s : State) : s.prepareBeacon.slotView = s.slotView := rfl

theorem State.startForPoll_slotView (s : State) (i : Fin 48) : (s.startForPoll i).slotView = s.slotView := by
  unfold State.startForPoll
  (repeat' split) <;> rfl

/-- The down frame chosen puts a record in exchange in a turn slot only, and moves nothing else of the slot (R7). -/
theorem State.chooseDown_slotView (s : State) (slot : Nat) :
    ∃ x, (s.chooseDown slot).slotView = ({ s with air := { s.air with exchange := x } } : State).slotView
      ∧ (x ≠ s.air.exchange → 3 ≤ slot) := by
  unfold State.chooseDown
  (repeat' split)
  · exact ⟨s.air.exchange, rfl, fun h => absurd rfl h⟩
  · exact ⟨s.air.exchange, rfl, fun h => absurd rfl h⟩
  · exact ⟨s.air.exchange, rfl, fun h => absurd rfl h⟩
  case h_1 h _ =>
    have view := s.startForPoll_slotView h.holder
    simp only [State.slotView, Prod.mk.injEq] at view
    obtain ⟨v1, v2, v3, -, v5, v6⟩ := view
    refine ⟨(s.beginPoll h).air.exchange, ?_, fun _ => by omega⟩
    simp only [State.slotView, State.beginPoll, v1, v2, v3, v5, v6]
  · exact ⟨s.air.exchange, rfl, fun h => absurd rfl h⟩

/-- A slot begun at LEAD, whatever its number and its sample (R6, R7). -/
theorem State.startSlot_slotView (s : State) (slot : Fin 32) (ready : Bool) :
    ∃ x, (s.startSlot slot ready).slotView = (s.air.state, some slot, some .lead, x, s.roster.held, s.resetPending)
      ∧ (x ≠ none → 3 ≤ slot.val) := by
  obtain ⟨u, hu⟩ : ∃ u, u = if slot.val = 0 then (s.beginSlot slot).startCycle else s.beginSlot slot := ⟨_, rfl⟩
  obtain ⟨v, hv⟩ : ∃ v, v = if slot.val = 0 then (u.sampleReady ready).prepareBeacon else u.sampleReady ready := ⟨_, rfl⟩
  have first : u.slotView = (s.beginSlot slot).slotView := by
    rw [hu]
    split
    · exact State.startCycle_slotView _
    · rfl
  have second : v.slotView = u.slotView := by
    rw [hv]
    split <;> rfl
  have begun : v.slotView = (s.air.state, some slot, some .lead, none, s.roster.held, s.resetPending) :=
    (second.trans first).trans rfl
  have e : s.startSlot slot ready = if ready then v.chooseDown slot.val else v := by
    rw [hv, hu]
    rfl
  rw [e]
  split
  · obtain ⟨x, view, turn⟩ := v.chooseDown_slotView slot.val
    simp only [State.slotView, Prod.mk.injEq] at begun view
    obtain ⟨b1, b2, b3, b4, b5, b6⟩ := begun
    obtain ⟨v1, v2, v3, v4, v5, v6⟩ := view
    refine ⟨x, ?_, fun h => turn (by rwa [b4])⟩
    simp only [State.slotView, v1, v2, v3, v4, v5, v6, b1, b2, b3, b5, b6]
  · exact ⟨none, begun, fun h => absurd rfl h⟩

/-- A slot that begins while none is in progress leaves the air consistent. -/
theorem State.startSlot_airConsistent {s : State} (hstate : s.air.state ≠ .closed) (hh : s.roster.held = [])
    (slot : Fin 32) (ready : Bool) : (s.startSlot slot ready).airConsistent := by
  obtain ⟨x, view, turn⟩ := s.startSlot_slotView slot ready
  simp only [State.slotView, Prod.mk.injEq] at view
  obtain ⟨v1, v2, v3, v4, v5, -⟩ := view
  unfold State.airConsistent
  rw [v1, v2, v3, v4, v5]
  exact ⟨iff_of_false hstate (by simp), by simp, by simp, fun h => ⟨slot, rfl, turn h⟩, fun _ => hh, fun _ => hstate⟩

theorem State.airConsistent.slotStart {s : State} (h : s.airConsistent) (ready : Bool) : (s.slotStart ready).airConsistent := by
  obtain ⟨slot, -, idle, -, held, -⟩ := id h
  unfold State.slotStart
  split
  case h_1 k hk hw =>
    refine State.startSlot_airConsistent (fun e => ?_) (held (idle hw).1) _ ready
    rw [slot.mp e] at hk
    exact absurd hk (by simp)
  case h_2 => exact h

theorem State.airConsistent.openAir {s : State} (h : s.airConsistent) (ready : Bool) : (s.openAir ready).airConsistent := by
  have after (u : State) (hu : u.airConsistent) (bytes : List Byte) : (u.respond .done bytes).airConsistent :=
    (u.respond_stays .done bytes).towithin.airConsistent hu
  obtain ⟨slot, noWork, idle, turn, held, reset⟩ := id h
  have opened (e : s.air.state ≠ .closed) : ({ s with air := { s.air with state := .opened } } : State).airConsistent :=
    ⟨iff_of_false (by simp) fun k => e (slot.mpr k), noWork, idle, turn, held, by simp⟩
  unfold State.openAir
  split
  case h_1 e =>
    split
    · exact (s.refuse_stays _).towithin.airConsistent h
    · have none_ : s.air.exchange = none := (idle (noWork (slot.mp e))).1
      exact after _ (State.startSlot_airConsistent (s := { s with air := { s.air with state := .opened } }) (by simp)
        (held none_) 0 ready) []
  case h_2 e => exact after _ (opened (by rw [e]; simp)) []
  case h_3 e => exact after _ (opened (by rw [e]; simp)) []

theorem State.airConsistent.closeAir {s : State} (h : s.airConsistent) : s.closeAir.airConsistent := by
  unfold State.closeAir
  refine (State.respond_stays _ .done []).towithin.airConsistent ?_
  split
  case h_1 e =>
    obtain ⟨slot, noWork, idle, turn, held, reset⟩ := h
    exact ⟨iff_of_false (by simp) fun k => by rw [slot.mpr k] at e; exact absurd e (by simp), noWork, idle, turn, held, by simp⟩
  all_goals exact h

theorem State.airConsistent.receiveUp {s : State} (h : s.airConsistent) (bytes : List Byte) (level : Nat) :
    (s.receiveUp bytes level).airConsistent := by
  unfold State.receiveUp
  split
  case isFalse => exact h
  case isTrue hw =>
    obtain ⟨slot, noWork, idle, turn, held, reset⟩ := h
    simp only [State.windowOpen, Bool.and_eq_true] at hw
    obtain ⟨⟨⟨-, work⟩, -⟩, -⟩ := hw
    refine ⟨slot, fun e => ?_, by simp, turn, held, reset⟩
    rw [noWork e] at work
    exact absurd work (by simp)

theorem State.airConsistent.readyFalls {s : State} (h : s.airConsistent) (during : SlotPhase) :
    (s.readyFalls during).airConsistent := by
  unfold State.readyFalls
  split
  case h_2 => exact h
  case h_1 w hw =>
    obtain ⟨slot, noWork, idle, turn, held, reset⟩ := h
    refine ⟨slot, fun e => ?_, by simp, turn, held, reset⟩
    rw [noWork e] at hw
    exact absurd hw (by simp)

theorem State.resetBlocks_airConsistent (s : State) : s.resetBlocks.airConsistent :=
  State.airConsistent_closed ⟨rfl, rfl, rfl, rfl, rfl, rfl⟩ rfl rfl

theorem State.stationReset_airConsistent (s : State) : s.stationReset.airConsistent :=
  s.stationReset_moves.towithin.airConsistent s.resetBlocks_airConsistent

theorem State.airConsistent.orderReset {s : State} (h : s.airConsistent) : s.orderReset.airConsistent := by
  unfold State.orderReset
  refine (State.respond_stays _ .done []).towithin.airConsistent ?_
  split
  · exact s.stationReset_airConsistent
  case isFalse e =>
    obtain ⟨slot, noWork, idle, turn, held, -⟩ := h
    exact ⟨slot, noWork, idle, turn, held, fun _ => by simpa using e⟩

theorem State.airConsistent.pendingReset {s : State} (h : s.airConsistent) : s.pendingReset.airConsistent := by
  unfold State.pendingReset
  split
  · exact s.stationReset_airConsistent
  · exact h

/-! ## The air at the end of a slot (R18) -/

/-- After the notice the slot stands as before it, but that no work is held any longer. -/
structure State.noticed (s t : State) : Prop where
  state : t.air.state = s.air.state
  place : t.air.slot = s.air.slot
  held : t.roster.held = []
  resetPending : t.resetPending = s.resetPending

theorem State.within.noticed {s t : State} (h : s.within t) (hx : s.air.exchange = none) (hh : s.roster.held = []) :
    s.noticed t := by
  have e := h.air
  simp only [State.airFrame, Air.mk.injEq] at e
  obtain ⟨e1, -, e2, -⟩ := e
  exact ⟨e1, e2, (h.held.resolve_right (not_not.mpr hx)).trans hh, h.resetPending⟩

theorem State.closeWindow_noticed {s u : State} (h : s.within u) (i : Fin 48) : s.noticed (u.closeWindow i) := by
  have e := h.air
  simp only [State.airFrame, Air.mk.injEq] at e
  obtain ⟨e1, -, e2, -⟩ := e
  obtain ⟨n1, n2, n3, n4⟩ := (u.closeWindow_settles i).towithin.noticed rfl rfl
  exact ⟨n1.trans e1, n2.trans e2, n3, n4.trans h.resetPending⟩

theorem State.airConsistent.endNotice {s : State} (h : s.airConsistent) {k : Fin 32} (hk : s.air.slot = some k) :
    s.noticed (s.endNotice k.val) := by
  obtain ⟨-, -, -, turn, held, -⟩ := h
  have none_ (hs : k.val ≤ 2) : s.air.exchange = none := by
    by_contra e
    obtain ⟨j, hj, h3⟩ := turn e
    rw [hk, Option.some.injEq] at hj
    rw [hj] at hs
    omega
  unfold State.endNotice
  split
  · exact s.endBeacon_stays.towithin.noticed (none_ (by omega)) (held (none_ (by omega)))
  · split
    · exact (s.endEntry_settles _).towithin.noticed (none_ (by omega)) (held (none_ (by omega)))
    · unfold State.endTurn
      split
      case h_1 x hx => exact State.closeWindow_noticed (s.judged_settles x (by omega)).towithin _
      case h_2 hx => exact (State.within.refl s).noticed hx (held hx)

theorem State.airConsistent.finishSlot {s : State} (h : s.airConsistent) {k : Fin 32} (hk : s.air.slot = some k)
    (hr : s.resetPending = false) : (s.finishSlot k.val).airConsistent := by
  obtain ⟨w, hw⟩ : ∃ w, w = s.countDarkEnd := ⟨_, rfl⟩
  obtain ⟨u, hu⟩ : ∃ u, u = (w.endNotice k.val).applyHalt := ⟨_, rfl⟩
  have dark := hw ▸ s.countDarkEnd_stays.towithin
  have darkAir := dark.air
  simp only [State.airFrame, Air.mk.injEq] at darkAir
  obtain ⟨d1, -, d2, -⟩ := darkAir
  have notice := (dark.airConsistent h).endNotice (d2.trans hk)
  have halt : u.air = (w.endNotice k.val).air ∧ u.roster = (w.endNotice k.val).roster
      ∧ u.resetPending = (w.endNotice k.val).resetPending := by
    rw [hu]
    unfold State.applyHalt
    split <;> exact ⟨rfl, rfl, rfl⟩
  have state : u.air.state = s.air.state := by rw [halt.1, notice.state, d1]
  have place : u.air.slot = some k := by rw [halt.1, notice.place, d2, hk]
  have held : u.roster.held = [] := by rw [halt.2.1, notice.held]
  have reset : u.resetPending = false := by rw [halt.2.2, notice.resetPending, dark.resetPending, hr]
  have open_ : u.air.state ≠ .closed := by
    rw [state]
    intro e
    rw [h.1.mp e] at hk
    exact absurd hk (by simp)
  have cleared : u.clearSlot.airConsistent :=
    ⟨iff_of_false open_ (by rw [show u.clearSlot.air.slot = some k from place]; simp), fun _ => rfl, fun _ => ⟨rfl, rfl, rfl⟩,
      fun e => absurd rfl e, fun _ => held, fun e => absurd (e.symm.trans reset) (by simp)⟩
  have e : s.finishSlot k.val = if k.val = 31 then u.clearSlot.endCycle.finishClosing else u.clearSlot := by
    rw [hu, hw]
    rfl
  rw [e]
  split
  case isFalse => exact cleared
  case isTrue =>
    have ended := u.clearSlot.endCycle_settles.towithin
    have endedAir := ended.air
    simp only [State.airFrame, Air.mk.injEq] at endedAir
    obtain ⟨-, -, -, e3, -, -, -, -, -, -, e4, e5, e6⟩ := endedAir
    unfold State.finishClosing
    split
    · exact State.airConsistent_closed ⟨rfl, rfl, e3, e6, e4, e5⟩
        ((ended.held.resolve_right fun x => x rfl).trans held) (ended.resetPending.trans reset)
    · exact ended.airConsistent cleared

theorem State.airConsistent.slotEnd {s : State} (h : s.airConsistent) : s.slotEnd.airConsistent := by
  unfold State.slotEnd
  (repeat' split)
  · exact s.stationReset_airConsistent
  case h_1.isFalse k _ hk _ hr => exact h.finishSlot hk (by simpa using hr)
  · exact h

theorem State.modifyPort_within (s : State) (p : Port) (f : PortState → PortState) : s.within (s.modifyPort p f) := by
  cases p <;> exact ⟨rfl, rfl, rfl, .inl rfl⟩

theorem State.parameterChanged_within (s : State) (old : Params) (name : ParamName) :
    s.within (s.parameterChanged old name) := by
  unfold State.parameterChanged
  (repeat' split)
  · exact .refl s
  · exact s.endContexts_settles.towithin
  · exact .refl s
  · exact (s.modifyPort_within _ _).trans ((State.arbitrate_stays _ _).trans (State.reportLinkDown_stays _)).towithin
  · exact (s.modifyPort_within _ _).trans
      ((State.losePort_settles _ _).trans (State.reportLinkDown_stays _).settles).towithin
  · exact (s.reportCause_stays _ _).towithin
  · exact (s.reportCause_stays _ _).towithin
  · exact (s.reportCause_stays _ _).towithin
  · exact (s.reportCause_stays _ _).towithin
  all_goals exact .refl s

theorem State.airConsistent.configure {s : State} (h : s.airConsistent) (name : ParamName) (v : Nat) :
    (s.configure name v).airConsistent := by
  unfold State.configure
  (repeat' split)
  · exact (s.refuse_stays _).towithin.airConsistent h
  · exact (s.refuse_stays _).towithin.airConsistent h
  · have change := State.parameterChanged_within { s with params := s.params.set name v } s.params name
    exact (change.trans (State.respond_stays _ .done []).towithin).airConsistent h

theorem effect_airConsistent (c : Instr) {s : State} (h : s.airConsistent) : (effect c s).airConsistent := by
  have sameAir {t : State} (ha : t.air = s.air) (hr : t.roster = s.roster) (hp : t.resetPending = s.resetPending) :
      t.airConsistent := by
    unfold State.airConsistent at h ⊢
    rw [ha, hr, hp]
    exact h
  cases hc : insideSlot c with
  | true => exact (effect_settles hc s).towithin.airConsistent h
  | false =>
      cases c with
      | setMask p =>
          simp only [effect]
          split
          · unfold State.setMask
            (repeat' split) <;> exact sameAir rfl rfl rfl
          · exact h
      | configure p =>
          simp only [effect]
          (repeat' split)
          · exact State.airConsistent.configure h _ _
          · exact sameAir rfl rfl rfl
          · exact h
      | setLanes p =>
          simp only [effect]
          split
          · exact sameAir rfl rfl rfl
          · exact h
      | openAir p ready => exact h.openAir ready
      | closeAir p => exact h.closeAir
      | stationReset p => exact h.orderReset
      | resetNAssert => exact State.airConsistent_closed ⟨rfl, rfl, rfl, rfl, rfl, rfl⟩ rfl rfl
      | resetNRelease => exact sameAir rfl rfl rfl
      | stationResetTakesEffect => exact h.pendingReset
      | slotStart ready => exact h.slotStart ready
      | upFrameReceive bytes level => exact h.receiveUp bytes level.val
      | rfReadyFall during => exact h.readyFalls during
      | slotEnd => exact h.slotEnd
      | _ => exact absurd hc (by simp [insideSlot])

/-- Settles O54: the effect of every command leaves the air consistent, whatever the slot that it begins, works in or
ends (`effect_airConsistent`). -/
theorem theAirStaysConsistent : Obligations.TheAirStaysConsistent := by
  intro s t h e
  unfold step at e
  split at e
  case h_1 c rest hp =>
    have keep := exec_rel (R := fun s t => s.airConsistent → t.airConsistent) e id
      (fun status => (State.refuse_stays _ status).towithin.airConsistent) (effect_airConsistent c)
    exact keep h
  case h_2 =>
    obtain rfl := Host.Outcome.next.inj e
    exact s.passMillisecond_stays.towithin.airConsistent h

/-- Settles O52: a blank roster, plan and pool satisfy every invariant. -/
theorem invariantsHoldAtReset : Obligations.InvariantsHoldAtReset :=
  ⟨State.reset_queuesBounded, State.airConsistent_closed ⟨rfl, rfl, rfl, rfl, rfl, rfl⟩ rfl rfl,
    State.reset_blank.carIdsUnique, State.reset_blank.tagsUnique, Params.reset_valid, State.reset_blank.attentionDistinct,
    State.reset_transmittersServed, State.reset_blank.planConsistent, State.reset_blank.poolConsistent (by decide),
    State.reset_blank.countsAgree, State.reset_blank.sweepAgrees⟩

/-! ## The step and RESET_N (R166) -/

/-- Settles O1: the step is the command at the front, or a millisecond. -/
theorem stepTakesTheFrontCommandOrTicks : Obligations.StepTakesTheFrontCommandOrTicks := by
  refine ⟨fun _ _ _ => rfl, fun s h => ⟨fun hh => ?_, fun hh => ⟨s.passMillisecond, ?_, ?_, fun p => ?_⟩⟩⟩
  · simp [step, h, State.passMillisecond, hh]
  · simp [step, h]
  · simp [State.passMillisecond, hh]
  · rw [State.passMillisecond, if_neg (by simp [hh])]
    cases p <;> rfl

/-- Settles O4: RESET_N puts the part in `State.reset`, whose values are read off. -/
theorem powerOnResetLeavesTheStatedValues : Obligations.PowerOnResetLeavesTheStatedValues := by
  refine ⟨⟨fun _ => rfl, fun c s h => exec_held h, fun _ => rfl, fun s t h => ?_⟩, ?_⟩
  · obtain rfl := Host.Outcome.next.inj h
    rfl
  · refine ⟨rfl, rfl, rfl, rfl, rfl, rfl, rfl, rfl, rfl, State.reset_blank.record, rfl, rfl, rfl, rfl, rfl, rfl, ?_, ?_, rfl,
      fun p => ?_, rfl, rfl, rfl, rfl, rfl, rfl, rfl, rfl, fun c => ?_, rfl, rfl, rfl, rfl, rfl, rfl, rfl, rfl, rfl, rfl, rfl,
      rfl, rfl, rfl, rfl, rfl, rfl, rfl, rfl, rfl, rfl, rfl, fun c => ?_, rfl, rfl, rfl, rfl, rfl⟩
    · show Cells.reset.toList.countP Option.isNone = 232
      rw [Cells.reset, Vector.toList_replicate, List.countP_replicate]
      rfl
    · show Pool.reset.toList.countP Option.isNone = 64
      rw [Pool.reset, Vector.toList_replicate, List.countP_replicate]
      rfl
    · rw [State.reset_port]
      exact ⟨rfl, rfl, rfl, rfl, rfl, rfl, rfl, rfl, rfl, rfl, rfl, rfl, rfl, rfl⟩
    · cases c <;> rfl
    · cases c <;> rfl

end Sys2Proof.Machine

/-! The arbiter, the station reset, conditions, attention and counts read. -/

namespace Sys2Proof.Machine

/-! ## The arbiter, case by case (R123, R133) -/

theorem State.arbitrate_idle_not {s : State} {p : Port} (h : ¬ (s.params.inUse p = true ∧ (s.port p).sending = none)) :
    s.arbitrate p = s := by
  unfold State.arbitrate
  rw [if_neg]
  simpa [Option.isNone_iff_eq_none] using h

/-- A HELLO that is due goes first (R123, R133). -/
theorem State.arbitrate_hello {s : State} {p : Port} (hu : s.params.inUse p = true) (hs : (s.port p).sending = none)
    (hd : (s.port p).helloDue = true) (hn : s.params.station ≠ 0) :
    s.arbitrate p = s.setPort p { s.port p with helloDue := false, sending := some s.helloFrame } := by
  simp only [State.arbitrate, hu, hs, hd, Option.isNone_none, Bool.and_self, if_true, beq_iff_eq, hn, if_false]
  cases p <;> rfl

theorem State.chooseSource_nothing {s : State} {p : Port} (ht : (s.port p).traffic = []) (hw : ∀ i, s.dueThrough p i = false) :
    s.chooseSource p = s := by
  simp [State.chooseSource, State.handoverWaiting_none hw, State.serveTraffic, ht]

/-- A port after its HELLO became due where nothing else waits: begun, or discarded while the station number is 0, on an
idle transmitter of a port in use (R123, R133). -/
def State.greeted (s : State) (p : Port) : PortState :=
  if s.params.inUse p = true ∧ (s.port p).sending = none then
    { s.port p with helloDue := false, sending := if s.params.station = 0 then none else some s.helloFrame }
  else s.port p

theorem State.setPort_port (s : State) (p : Port) : s.setPort p (s.port p) = s := by
  cases p <;> rfl

theorem State.arbitrate_greeted {s : State} {p : Port} (hd : (s.port p).helloDue = s.params.inUse p)
    (ht : (s.port p).traffic = []) (hw : ∀ i, s.dueThrough p i = false) : s.arbitrate p = s.setPort p (s.greeted p) := by
  by_cases h : s.params.inUse p = true ∧ (s.port p).sending = none
  · obtain ⟨hu, hs⟩ := id h
    rw [State.greeted, if_pos h]
    by_cases hn : s.params.station = 0
    · have choose : (s.modifyPort p fun q => { q with helloDue := false }).chooseSource p =
          s.modifyPort p fun q => { q with helloDue := false } := by
        refine State.chooseSource_nothing ?_ fun i => ?_
        · rw [State.port_modifyPort, ht]
        · exact State.dueThrough_false_of_fewer (State.modifyPort_params s p _)
            (State.fewerContexts.of_roster (State.modifyPort_roster s p _)) (hw i)
      simp only [State.arbitrate, hu, hs, hd, Option.isNone_none, Bool.and_self, if_true, beq_iff_eq, hn, choose]
      rw [State.modifyPort, ← hs]
    · rw [State.arbitrate_hello hu hs (hd.trans hu) hn, if_neg hn]
  · rw [State.arbitrate_idle_not h, State.greeted, if_neg h, State.setPort_port]

/-! ## The station reset (R137, R166) -/

theorem State.resetBlocks_port (s : State) (p : Port) : s.resetBlocks.port p = (s.port p).afterReset (s.params.inUse p) := by
  cases p <;> rfl

theorem State.resetBlocks_dueThrough (s : State) (p : Port) (i : Fin 48) : s.resetBlocks.dueThrough p i = false := by
  rw [State.dueThrough, s.resetBlocks_blank.record]
  rfl

/-- A station reset in full: every block at its first values, the HELLOs chosen, the port check count reported. -/
theorem State.stationReset_eq (s : State) :
    s.stationReset = ((s.resetBlocks.setPort .inbye (s.resetBlocks.greeted .inbye)).setPort .outbye
      (s.resetBlocks.greeted .outbye)).reportPortCheck := by
  have first : s.resetBlocks.arbitrate .inbye = s.resetBlocks.setPort .inbye (s.resetBlocks.greeted .inbye) :=
    State.arbitrate_greeted rfl rfl (s.resetBlocks_dueThrough _)
  have second : (s.resetBlocks.setPort .inbye (s.resetBlocks.greeted .inbye)).arbitrate .outbye =
      (s.resetBlocks.setPort .inbye (s.resetBlocks.greeted .inbye)).setPort .outbye (s.resetBlocks.greeted .outbye) :=
    State.arbitrate_greeted rfl rfl fun i => s.resetBlocks_dueThrough .outbye i
  rw [State.stationReset, first, second]

theorem State.greeted_portReset (s : State) (p : Port) : s.portReset p (s.resetBlocks.greeted p) := by
  have params : s.resetBlocks.params = s.params := rfl
  have hello : s.resetBlocks.helloFrame = s.helloFrame := rfl
  have sending : ((s.port p).afterReset (s.params.inUse p)).sending = (s.port p).sending := rfl
  unfold State.portReset State.greeted
  rw [State.resetBlocks_port, params, hello, sending]
  by_cases h : s.params.inUse p = true ∧ (s.port p).sending = none
  · simp [h, PortState.afterReset, PortState.reset]
  · simp [h, PortState.afterReset, PortState.reset]

theorem State.stationReset_wasReset (s : State) : s.stationWasReset s.stationReset := by
  rw [State.stationReset_eq]
  refine ⟨rfl, rfl, rfl, rfl, rfl, rfl, rfl, fun p => ?_, rfl, rfl, rfl, fun c h => ?_, ?_, ?_, rfl, rfl, rfl⟩
  · cases p with
    | inbye => exact s.greeted_portReset .inbye
    | outbye => exact s.greeted_portReset .outbye
  · rw [State.reportPortCheck, State.classFlags_reportCause_ne _ _ h.symm]
    cases c <;> rfl
  · rw [State.reportPortCheck, State.classFlags_reportCause]
    rfl
  · rw [State.reportPortCheck, State.classFlags_reportCause]
    rfl

theorem State.stationReset_response (s : State) : s.stationReset.response = s.response := by
  rw [State.stationReset_eq]
  rfl

theorem State.stationWasReset.respond {s t : State} (h : s.stationWasReset t) (status : Status) (bytes : List Byte) :
    s.stationWasReset (t.respond status bytes) := h

/-- Settles O5: at once while the air is CLOSED, and otherwise at the end of the slot in progress. -/
theorem stationResetTakesEffect : Obligations.StationResetTakesEffect := by
  refine ⟨fun s h hc => ⟨s.stationReset.respond .done [], ?_, s.stationReset_wasReset.respond _ _, rfl⟩, fun s h hc => ?_,
    fun s hr hp hs hw => ⟨s.stationReset, ?_, ?_, s.stationReset_wasReset, s.stationReset_response⟩⟩
  · rw [exec_taken rfl (by decide) rfl h]
    simp [effect, State.orderReset, hc]
  · rw [exec_taken rfl (by decide) rfl h]
    simp [effect, State.orderReset, hc]
  · rw [exec_released rfl (by simp) (by simp) hr]
    simp [effect, State.pendingReset, hp, Option.isSome_iff_ne_none, hw]
  · obtain ⟨k, hk⟩ := Option.ne_none_iff_exists'.mp hs
    obtain ⟨w, hw⟩ := Option.ne_none_iff_exists'.mp hw
    rw [exec_released rfl (by simp) (by simp) hr]
    simp [effect, State.slotEnd, hk, hw, hp]

/-! ## The tests of a request (R165) -/

theorem eq_identify {c : Instr} {params : List Byte} (h : requestOf c = some (0x48, params)) : c = .identify params := by
  cases c <;> simp_all [requestOf]

theorem identify_wrongLength {params : List Byte} (h : lengthRight 0x48 params = false) (s : State) :
    effect (.identify params) s = s.refuse .badValue := by
  cases params with
  | nil => exact absurd h (by decide)
  | cons b rest => rfl

/-- Settles O6: the tests are those of `hostRequest`, and the refused frames and IDENTIFY are events. -/
theorem requestTestsComeInOrder : Obligations.RequestTestsComeInOrder := by
  refine ⟨fun c code params s h hr => ⟨fun hl => ?_, fun hl hp hc => ?_⟩,
    fun s hr => ⟨fun bytes => ?_, fun code params => ?_, ?_, fun hp => ?_⟩⟩
  · by_cases hc : code = 0x48
    · subst hc
      rw [eq_identify h, exec_event (by simp [requestOf]) (by simp) (by simp), unlessHeld_released hr, identify_wrongLength hl]
    · rw [exec_request h hc, hl, hostRequest_wrongLength hr]
  · rw [exec_request h hc, hl, hostRequest_busy hr hp]
  · rw [exec_released rfl (by simp) (by simp) hr]
    rfl
  · rw [exec_released rfl (by simp) (by simp) hr]
    rfl
  · rw [exec_event (by simp [requestOf]) (by simp) (by simp), unlessHeld_released hr]
    rfl
  · rw [exec_taken rfl (by decide) rfl (s.takesRequests_iff.mpr ⟨hr, hp⟩)]
    rfl

/-! ## Conditions (R171, R172) -/

theorem ConditionClass.ofCode_index (c : ConditionClass) : ConditionClass.ofCode c.index.val = some c := by
  cases c <;> rfl

theorem ConditionClass.ofCode_high {n : Nat} (h : 8 ≤ n) : ConditionClass.ofCode n = none :=
  List.getElem?_eq_none h

theorem flagOfCode_high {n : Nat} (h : 1 < n) : flagOfCode n = none := by
  unfold flagOfCode
  split
  case h_1 => omega
  case h_2 => omega
  case h_3 => rfl

theorem exec_clearCondition {s : State} (h : s.takesRequests = true) {k : Byte} {c : ConditionClass}
    (hk : k.toNat = c.index.val) : exec (.clearCondition [k]) s = .next (s.clearLatch c) := by
  rw [exec_taken rfl (by decide) rfl h]
  simp only [effect, hk, ConditionClass.ofCode_index]

theorem exec_forceCondition {s : State} (h : s.takesRequests = true) {k on : Byte} {c : ConditionClass} {forced : Bool}
    (hk : k.toNat = c.index.val) (ho : flagOfCode on.toNat = some forced) :
    exec (.forceCondition [k, on]) s = .next ((s.forceClass c forced).respond .done []) := by
  rw [exec_taken rfl (by decide) rfl h]
  simp only [effect, hk, ConditionClass.ofCode_index, ho]

/-- A class whose forced flag is cleared is not latched by it (R171). -/
theorem State.forceClass_off (s : State) (c : ConditionClass) :
    s.forceClass c false = s.setClass c { s.classFlags c with forced := false } := by
  unfold State.forceClass ClassFlags.latchRise
  congr 1
  cases s.classFlags c with
  | mk cause latched forced => cases cause <;> cases latched <;> cases forced <;> rfl

theorem State.forceClass_on (s : State) (c : ConditionClass) :
    s.forceClass c true = s.setClass c
      { cause := (s.classFlags c).cause, forced := true, latched := (s.classFlags c).latched || !(s.classFlags c).active } := by
  unfold State.forceClass ClassFlags.latchRise
  simp [ClassFlags.active]

/-- Settles O7: a report and a forcing set one class by `ClassFlags.latchRise`, and ATTN is `State.attn_iff`. -/
theorem conditionsAndAttnFollowTheirRules : Obligations.ConditionsAndAttnFollowTheirRules := by
  refine ⟨⟨fun s c d cause => ?_, fun s k h => ⟨fun hk => ⟨?_, fun on => ?_⟩, fun c hk => ⟨fun ha => ?_, fun ha => ?_,
    fun on ho => ?_, ?_, ?_⟩⟩⟩, fun s => State.attn_iff⟩
  · rw [State.classFlags_reportCause]
    exact ⟨rfl, rfl, by simp, fun hd => State.classFlags_reportCause_ne s cause (Ne.symm hd)⟩
  · rw [exec_taken rfl (by decide) rfl h]
    simp only [effect, ConditionClass.ofCode_high hk]
  · rw [exec_taken rfl (by decide) rfl h]
    simp only [effect, ConditionClass.ofCode_high hk]
  · rw [exec_clearCondition h hk, State.clearLatch, if_pos ha]
  · rw [exec_clearCondition h hk, State.clearLatch, if_neg (by simp [ha])]
  · rw [exec_taken rfl (by decide) rfl h]
    simp only [effect, flagOfCode_high ho]
    split
    case h_1 e => exact absurd e (by simp)
    case h_2 => rfl
  · rw [exec_forceCondition h hk (on := 0#8) rfl, State.forceClass_off]
  · rw [exec_forceCondition h hk (on := 1#8) rfl, State.forceClass_on]

/-! ## The attention list (R168) -/

theorem ReasonSet.getLsbD_add (q : ReasonSet) (r : Reason) (k : Nat) :
    (q.add r).bits.getLsbD k = (q.bits.getLsbD k || decide (k = r.bit.val)) := by
  have one : (1#11 <<< r.bit.val).getLsbD k = decide (k = r.bit.val) := by
    have hr := r.bit.isLt
    rw [BitVec.getLsbD_shiftLeft, BitVec.getLsbD_one]
    by_cases e : k = r.bit.val
    · simp [e]
    · simp [e]
      omega
  rw [← one]
  exact BitVec.getLsbD_or

theorem addReason_absent {list : List AttentionEntry} {i : Fin 48} (h : (list.any fun e => e.record == i) = false)
    (r : Reason) : addReason list i r = list ++ [{ record := i, reasons := ReasonSet.empty.add r }] := by
  simp [addReason, h]

theorem addReason_present {list : List AttentionEntry} {i : Fin 48} (h : (list.any fun e => e.record == i) = true)
    (r : Reason) : addReason list i r = list.map fun e => if e.record = i then { e with reasons := e.reasons.add r } else e := by
  simp [addReason, h]

theorem State.nextAttention_empty {s : State} (h : s.host.attention = []) : s.nextAttention = s.respond .done [] := by
  simp only [State.nextAttention, h]

/-- The state in which the head of the attention list is answered. -/
theorem State.nextAttention_cons {s : State} {e : AttentionEntry} {rest : List AttentionEntry}
    (h : s.host.attention = e :: rest) :
    s.nextAttention =
      (if (s.record e.record).contact = .free then
          ({ s with host := { s.host with attention := rest } } : State).reportCause .rosterFull false
        else { s with host := { s.host with attention := rest } }).respond .done
        ([byteOf e.record.val] ++ e.reasons.bytes ++ bytes16 (s.record e.record).carId
          ++ [byteOf (s.record e.record).contact.code]) := by
  simp only [State.nextAttention, h, beq_iff_eq]

/-- Settles O9: an offer is `addReason` under the mask, and NEXT_ATTENTION answers the head. -/
theorem theAttentionListIsServed : Obligations.TheAttentionListIsServed := by
  refine ⟨fun s i r => ⟨fun h => State.offerReason_disabled h i, fun h => ?_, fun q k _ => q.getLsbD_add r k, fun _ _ => rfl,
    fun _ _ => rfl⟩, fun s h => ⟨fun he => ?_, fun e rest he => ⟨s.nextAttention, ?_⟩⟩⟩
  · rw [State.offerReason_enabled h]
    exact ⟨fun ha => addReason_absent ha r, fun ha => addReason_present ha r, rfl⟩
  · rw [exec_taken rfl (by decide) rfl h]
    exact congrArg _ (State.nextAttention_empty he)
  · refine ⟨exec_taken rfl (by decide) rfl h, ?_⟩
    rw [State.nextAttention_cons he]
    by_cases hf : (s.record e.record).contact = .free
    · rw [if_pos hf]
      refine ⟨rfl, rfl, ⟨fun _ => ?_, fun k => absurd hf k⟩, fun c hc => ?_, rfl⟩
      · exact (State.classFlags_reportCause_false _ _).trans rfl
      · exact State.classFlags_reportCause_ne _ false (by simpa [eq_comm] using hc)
    · rw [if_neg hf]
      exact ⟨rfl, rfl, ⟨fun k => absurd k hf, fun _ => rfl⟩, fun c _ => rfl, rfl⟩

/-! ## Counts and the inbound queue read (R119, R173) -/

theorem flagByte_eq (f : Bool) : flagByte f = byteOf f.toNat := by
  cases f <;> rfl

theorem flagByte_decide (p : Prop) [Decidable p] : flagByte (decide p) = if p then 1#8 else 0#8 := by
  by_cases h : p <;> simp [h, flagByte, flagAt, byteOf]

/-- A port's part of READ_STATION, by the codes of R177. -/
theorem PortState.reportBytes_eq (q : PortState) (inUse : Bool) :
    q.reportBytes inUse =
      [byteOf inUse.toNat,
        match q.neighbour with
        | .unknown => 0#8
        | .up => 1#8
        | .down => 2#8]
      ++ (match q.neighbourNumber with
          | none => [0#8]
          | some n => [1#8, byteOf n])
      ++ bytes16 q.checkErrors ++ bytes16 q.receiveFull ++ bytes16 q.trafficFull ++ bytes16 q.hopDrops := by
  unfold PortState.reportBytes
  rw [flagByte_eq]
  cases q.neighbour <;> cases q.neighbourNumber <;> rfl

theorem State.classBytes_eq (s : State) (c : ConditionClass) :
    s.classBytes c =
      [byteOf ((s.classFlags c).cause || (s.classFlags c).forced).toNat, byteOf (s.classFlags c).latched.toNat,
        byteOf (s.classFlags c).forced.toNat,
        match s.params.actionOf c with
        | .ignore => 0#8
        | .notify => 1#8
        | .closeEntry => 2#8,
        byteOf (s.classFlags c).cause.toNat] := by
  simp only [State.classBytes, flagByte_eq, ClassFlags.active]
  cases s.params.actionOf c <;> rfl

theorem State.freeCells_eq (s : State) : s.freeCells = (List.finRange 232).countP fun k => (s.cells[k]).isNone := by
  rw [State.freeCells, vector_toList_eq, List.countP_map]
  rfl

theorem State.freeBuffers_eq (s : State) : s.freeBuffers = (List.finRange 64).countP fun b => (s.pool[b]).isNone := by
  rw [State.freeBuffers, vector_toList_eq, List.countP_map]
  rfl

theorem AirState.codeByte_eq (a : AirState) :
    byteOf a.code = match a with
      | .closed => 0#8
      | .opened => 1#8
      | .closing => 2#8 := by
  cases a <;> rfl

theorem SweepState.codeByte_eq (w : SweepState) :
    byteOf w.code = match w with
      | .idle => 0#8
      | .running => 1#8
      | .halted => 2#8
      | .complete => 3#8 := by
  cases w <;> rfl

/-- The pending states of the four events, in READ_STATION's flags (R170, R177). -/
theorem State.pendingBytes_eq (s : State) :
    s.pendingEvents.map flagByte =
      [if s.host.attention = [] then 0#8 else 1#8, byteOf s.host.sweepEnded.toNat,
        if s.params.inboundLevel ≤ s.inbound.length then 1#8 else 0#8,
        if ConditionClass.all.any (fun c => (s.classFlags c).latched && s.params.actionOf c != .ignore) then 1#8
        else 0#8] := by
  have attention : flagByte s.attentionPending = if s.host.attention = [] then 0#8 else 1#8 := by
    rw [State.attentionPending]
    cases s.host.attention <;> rfl
  have condition (b : Bool) : flagByte b = if b then 1#8 else 0#8 := by
    cases b <;> rfl
  rw [State.pendingEvents, List.map_cons, List.map_cons, List.map_cons, List.map_cons, attention, flagByte_eq s.host.sweepEnded,
    State.inboundPending, flagByte_decide, condition]
  rfl

/-- Settles O10: READ_STATION by the bytes of its parts, CLEAR_COUNTS and the two readers of the inbound queue at once. -/
theorem countsAndInboundAreRead : Obligations.CountsAndInboundAreRead := by
  refine ⟨fun s port cls h hp hc => ?_, fun s h => ⟨s.clearCounts.respond .done [], exec_taken rfl (by decide) rfl h, rfl, fun p => ?_⟩,
    fun s h => ⟨fun he => ?_, fun e rest he => ?_, ?_⟩⟩
  · rw [exec_taken rfl (by decide) rfl h]
    have port' : ∀ p, (s.port p).reportBytes (s.params.inUse p) = port p := fun p => by
      rw [hp p]
      exact PortState.reportBytes_eq _ _
    have cls' : ∀ c, s.classBytes c = cls c := fun c => (s.classBytes_eq c).trans (hc c).symm
    rw [← State.freeCells_eq, ← State.freeBuffers_eq, ← s.pendingBytes_eq]
    simp only [← port', ← cls']
    simp [effect, State.stationBytes, ConditionClass.all, counterBytes, State.port, Params.inUse]
    rewrite [AirState.codeByte_eq, SweepState.codeByte_eq]
    rfl
  · cases p <;> rfl
  · rw [exec_taken rfl (by decide) rfl h]
    simp only [effect, State.readInbound, he]
    rfl
  · rw [exec_taken rfl (by decide) rfl h]
    simp only [effect, State.readInbound, he]
    rfl
  · rw [exec_taken rfl (by decide) rfl h]
    rfl

end Sys2Proof.Machine

/-! Parameters configured. -/

namespace Sys2Proof.Machine

/-! ## Parameters configured (R167) -/

/-- What no accepted parameter changes at once. -/
def State.unconfigured (s : State) : Air × Cells × Pool × Sweep := (s.air, s.cells, s.pool, s.sweep)

theorem State.parameterChanged_unconfigured (s : State) (old : Params) (name : ParamName) :
    (s.parameterChanged old name).unconfigured = s.unconfigured := by
  have contexts : s.endContexts.unconfigured = s.unconfigured :=
    foldl_keep State.unconfigured State.loseContext (fun t i => by simp [State.unconfigured]) _ s
  have opened (p : Port) : (s.openPort p).unconfigured = s.unconfigured := by
    simp [State.unconfigured, State.openPort, State.reportLinkDown]
  have closed (p : Port) : (s.closePort p).unconfigured = s.unconfigured := by
    simp [State.unconfigured, State.closePort, State.reportLinkDown]
  cases name with
  | station =>
      rw [State.parameterChanged]
      split
      · rfl
      · exact contexts
  | portUse p =>
      rw [State.parameterChanged]
      split
      · rfl
      · split
        · exact opened p
        · exact closed p
  | _ => rfl

theorem exec_readParam {s : State} (h : s.takesRequests = true) {k : Byte} {name : ParamName}
    (hk : ParamName.ofCode k.toNat = some name) :
    exec (.readParam [k]) s = .next (s.respond .done (bytes16 (s.params.value name))) := by
  rw [exec_taken rfl (by decide) rfl h]
  simp only [effect, hk]

theorem Params.set_beside (p : Params) (name : ParamName) (v : Nat) :
    (p.set name v).urgentLane = p.urgentLane ∧ (p.set name v).routineLane = p.routineLane ∧
      (p.set name v).attentionMask = p.attentionMask ∧ (p.set name v).eventMask = p.eventMask := by
  cases name with
  | portUse q => cases q <;> exact ⟨rfl, rfl, rfl, rfl⟩
  | classPeriod _ | action _ | arbiterMode | deliveryMode =>
      rw [Params.set]
      split <;> exact ⟨rfl, rfl, rfl, rfl⟩
  | _ => exact ⟨rfl, rfl, rfl, rfl⟩

theorem flagAt_zero (f : Bool) : flagAt 0 f = f.toNat := by
  cases f <;> rfl

theorem ParamName.ofCode_high {n : Nat} (h : 0x28 ≤ n) : ParamName.ofCode n = none := by
  unfold ParamName.ofCode
  split
  case h_26 =>
    rw [ConditionClass.ofCode_high (by omega), Option.map_none, ite_self]
  all_goals omega

/-- Settles O11: an accepted value is set and then acts through `State.parameterChanged`, which leaves the rest alone. -/
theorem configureSetsOneParameter : Obligations.ConfigureSetsOneParameter := by
  refine ⟨fun s k hi lo h => ⟨fun hk => ⟨?_, ?_⟩, fun name hk => ⟨exec_readParam h hk, fun hv => ?_, fun hv => ⟨fun hs => ?_, fun hs =>
    ⟨s.configure name (wordOf hi lo), exec_configure_of_name h hk hi lo, ?_⟩⟩⟩⟩, fun p v => ?_, fun p => ?_, by decide, by decide,
    fun n h1 h2 => ?_, fun n hn => ?_⟩
  · rw [exec_taken rfl (by decide) rfl h]
    simp only [effect, hk]
  · rw [exec_taken rfl (by decide) rfl h]
    simp only [effect, hk]
  · rw [exec_configure_of_name h hk, State.configure_out_of_range (v := wordOf hi lo) hv]
  · obtain ⟨rfl, ha⟩ := hs
    rw [exec_configure_of_name h hk, State.configure, wordOf, hv]
    simp [ha]
  · have taken : s.configure name (wordOf hi lo) = (({ s with params := s.params.set name (wordOf hi lo) } : State).parameterChanged
        s.params name).respond .done [] := by
      rw [State.configure, show s.params.inRange name (wordOf hi lo) = true from hv]
      by_cases e : name = .station
      · simp [e, show s.air.state = .closed by simpa [e] using hs]
      · simp [e]
    rw [taken]
    have calm := State.parameterChanged_calm { s with params := s.params.set name (wordOf hi lo) } s.params name
    have quiet := State.parameterChanged_quiet { s with params := s.params.set name (wordOf hi lo) } s.params name
    have params := State.params_of_calm calm
    have rest := State.parameterChanged_unconfigured { s with params := s.params.set name (wordOf hi lo) } s.params name
    simp only [State.unconfigured, Prod.mk.injEq] at rest
    obtain ⟨air, cells, pool, sweep⟩ := rest
    obtain ⟨b1, b2, b3, b4⟩ := s.params.set_beside name (wordOf hi lo)
    rw [State.respond_params, params, State.respond_air, State.respond_cells, State.respond_pool, State.respond_sweep,
      State.respond_inbound, State.respond_clock, State.respond_response]
    exact ⟨Params.set_value hv, fun other e => Params.set_value_ne e, b1, b2, b3, b4, rfl, air, cells, pool,
      (State.inbound_of_quiet quiet).trans rfl, sweep, (State.clock_of_calm calm).trans rfl⟩
  · refine ⟨?_, fun _ => ?_, ?_, ?_, ?_, ?_, ?_, ?_, ?_, ?_, ?_, ?_, fun _ => ?_, ?_, ?_, ?_, ?_, ?_, ?_, ?_, ?_, fun _ => ?_⟩ <;>
      simp only [Params.inRange, isStation, Bool.and_eq_true, decide_eq_true_eq, beq_iff_eq, and_assoc]
    omega
  · refine ⟨rfl, fun k => ?_, rfl, rfl, rfl, rfl, rfl, rfl, rfl, rfl, rfl, rfl, ?_, ?_, ?_, ?_, rfl, ?_, rfl, rfl, rfl, rfl, fun c => ?_⟩
    · rw [Params.value]
      cases p.classPeriods[k] <;> rfl
    · exact flagAt_zero p.inbyeUse
    · exact flagAt_zero p.outbyeUse
    · rw [Params.value]
      cases p.arbiterMode <;> decide
    · rw [Params.value]
      cases p.deliveryMode <;> decide
    · exact flagAt_zero p.entryEnable
    · rw [Params.value]
      cases p.actionOf c <;> rfl
  · interval_cases n <;> rfl
  · exact ParamName.ofCode_high hn

end Sys2Proof.Machine

/-! What the attention list says, and contexts ended. -/

namespace Sys2Proof.Machine

/-! ## What the attention list says (R168)

An offered reason stands in its record's entry until the host takes the entry, or until an offer of the same kind with another
outcome. -/

/-- An entry holds a reason, with the outcome that it carries. -/
def AttentionEntry.says (e : AttentionEntry) (reason : Reason) : Prop :=
  e.reasons.bits.getLsbD reason.bit.val = true ∧ (∀ o, reason = .summonEnded o → e.reasons.summonOutcome = some o)
    ∧ (∀ o, reason = .retuneEnded o → e.reasons.retuneOutcome = some o)

/-- A record's entry holds a reason. -/
def State.says (s : State) (i : Fin 48) (reason : Reason) : Prop :=
  ∃ e ∈ s.host.attention, e.record = i ∧ e.says reason

/-- An offer of `other` leaves `reason` as it was told. -/
def Reason.keptBy (reason other : Reason) : Prop := other = reason ∨ other.bit ≠ reason.bit

theorem State.told_iff {s t : State} {i : Fin 48} {reason : Reason} :
    s.told t i reason ↔ (s.params.attentionMask.getLsbD reason.bit.val = true → t.says i reason) := Iff.rfl

theorem AttentionEntry.says_add (e : AttentionEntry) (reason : Reason) :
    ({ e with reasons := e.reasons.add reason } : AttentionEntry).says reason := by
  refine ⟨?_, ?_, ?_⟩
  · simp [ReasonSet.getLsbD_add]
  · rintro o rfl
    rfl
  · rintro o rfl
    rfl

theorem AttentionEntry.says.add {e : AttentionEntry} {reason other : Reason} (h : e.says reason) (k : reason.keptBy other) :
    ({ e with reasons := e.reasons.add other } : AttentionEntry).says reason := by
  rcases k with rfl | k
  · exact e.says_add _
  · obtain ⟨hb, hs, hr⟩ := h
    refine ⟨?_, ?_, ?_⟩
    · simp [ReasonSet.getLsbD_add, hb]
    · rintro o rfl
      cases other with
      | summonEnded _ => exact absurd rfl k
      | _ => exact hs o rfl
    · rintro o rfl
      cases other with
      | retuneEnded _ => exact absurd rfl k
      | _ => exact hr o rfl

theorem State.says_offerReason {s : State} {reason : Reason} (h : s.params.attentionMask.getLsbD reason.bit.val = true)
    (i : Fin 48) : (s.offerReason i reason).says i reason := by
  rw [State.offerReason_enabled h]
  cases ha : s.host.attention.any fun e => e.record == i with
  | false =>
      refine ⟨{ record := i, reasons := ReasonSet.empty.add reason }, ?_, rfl,
        AttentionEntry.says_add { record := i, reasons := ReasonSet.empty } reason⟩
      rw [addReason_absent ha]
      exact List.mem_append_right _ (List.mem_singleton_self _)
  | true =>
      obtain ⟨e, he, hi⟩ := List.any_eq_true.mp ha
      have hi : e.record = i := by simpa using hi
      refine ⟨{ e with reasons := e.reasons.add reason }, ?_, hi, e.says_add reason⟩
      simp only [addReason_present ha, List.mem_map]
      exact ⟨e, he, if_pos hi⟩

theorem State.says.offerReason {s : State} {i j : Fin 48} {reason other : Reason} (h : s.says j reason)
    (k : j ≠ i ∨ reason.keptBy other) : (s.offerReason i other).says j reason := by
  cases hm : s.params.attentionMask.getLsbD other.bit.val with
  | false => rwa [State.offerReason_disabled hm]
  | true =>
      obtain ⟨e, he, hj, hr⟩ := h
      rw [State.offerReason_enabled hm]
      cases ha : s.host.attention.any fun e => e.record == i with
      | false => exact ⟨e, by simp [addReason_absent ha, he], hj, hr⟩
      | true =>
          by_cases hi : e.record = i
          · refine ⟨{ e with reasons := e.reasons.add other }, ?_, hj,
              hr.add (k.resolve_left fun n => n (hj.symm.trans hi))⟩
            simp only [addReason_present ha, List.mem_map]
            exact ⟨e, he, if_pos hi⟩
          · refine ⟨e, ?_, hj, hr⟩
            simp only [addReason_present ha, List.mem_map]
            exact ⟨e, he, if_neg hi⟩

theorem State.told_offerReason {s t : State} (h : t.params = s.params) (i : Fin 48) (reason : Reason) :
    s.told (t.offerReason i reason) i reason :=
  fun hm => State.says_offerReason (by rwa [h]) i

theorem State.told.offerReason {s t : State} {i j : Fin 48} {reason other : Reason} (h : s.told t j reason)
    (k : j ≠ i ∨ reason.keptBy other) : s.told (t.offerReason i other) j reason :=
  fun hm => State.says.offerReason (h hm) k

/-- What was told stands while the list does. -/
theorem State.told.attention {s t u : State} {i : Fin 48} {reason : Reason} (h : s.told t i reason)
    (k : u.host.attention = t.host.attention) : s.told u i reason := fun hm => by
  obtain ⟨e, he, r⟩ := h hm
  exact ⟨e, k ▸ he, r⟩

/-- What was told after work under the same parameters. -/
theorem State.told.of_params {s t u : State} {i : Fin 48} {reason : Reason} (h : t.told u i reason)
    (k : t.params = s.params) : s.told u i reason := by
  rw [State.told_iff] at h ⊢
  rwa [← k]

/-- Work on the records of a list, each by the same function of the record as it stood. -/
theorem foldl_record {f : State → Fin 48 → State} {g : Fin 48 → Record → Record} {p : Params}
    (keeps : ∀ t i, (f t i).params = t.params) (others : ∀ t i j, j ≠ i → (f t i).record j = t.record j)
    (own : ∀ t i, t.params = p → (f t i).record i = g i (t.record i)) {l : List (Fin 48)} (hl : l.Nodup) {s : State}
    (hs : s.params = p) (j : Fin 48) : (l.foldl f s).record j = if j ∈ l then g j (s.record j) else s.record j := by
  induction l generalizing s with
  | nil => simp
  | cons i l ih =>
      obtain ⟨fresh, hl⟩ := List.nodup_cons.mp hl
      rw [List.foldl_cons, ih hl ((keeps s i).trans hs)]
      by_cases e : j = i
      · subst e
        rw [if_neg fresh, own s j hs, if_pos (List.mem_cons_self ..)]
      · simp only [others s i j e, List.mem_cons, e, false_or]

theorem mem_allRecords (i : Fin 48) : i ∈ allRecords := List.mem_finRange i

theorem allRecords_nodup : allRecords.Nodup := List.nodup_finRange 48

theorem foldl_allRecords_record {f : State → Fin 48 → State} {g : Fin 48 → Record → Record} {s : State}
    (keeps : ∀ t i, (f t i).params = t.params) (others : ∀ t i j, j ≠ i → (f t i).record j = t.record j)
    (own : ∀ t i, t.params = s.params → (f t i).record i = g i (t.record i)) (j : Fin 48) :
    (allRecords.foldl f s).record j = g j (s.record j) := by
  rw [foldl_record keeps others own allRecords_nodup rfl, if_pos (mem_allRecords j)]

/-! ## Contexts ended by the loss of a port (R150) -/

/-- A record whose context the loss of its port ends, under a page limit. -/
def Record.contextLost (r : Record) (pageLimit : Nat) : Record :=
  match r.handover with
  | none => r
  | some c =>
      match c.role with
      | .claiming => { r with handover := none, soft := some .claimLapsed }
      | .handing =>
          if r.contact = .outbound then
            { r with handover := none, contact := .paging, pageCount := pageLimit, lastHanding := some c.peer }
          else { r with handover := none }

theorem State.setSoft_record (s : State) (i j : Fin 48) (fault : SoftFault) :
    (s.setSoft i fault).record j = if j = i then { s.record i with soft := some fault } else s.record j := by
  rw [State.setSoft, State.record_congr (State.offerReason_roster _ _ _), State.record_modifyRecord_eq]
  by_cases e : i = j
  · simp [e]
  · simp [e, Ne.symm e]

theorem State.lapseClaim_record (s : State) (i j : Fin 48) : (s.lapseClaim i).record j =
    if j = i then { s.record i with handover := none, soft := some .claimLapsed } else s.record j := by
  rw [State.lapseClaim, State.setSoft_record]
  by_cases e : j = i
  · simp [e, State.dropContext]
  · simp only [e, if_false]
    exact State.record_modifyRecord_ne _ _ (Ne.symm e)

theorem State.fallToPaging_record (s : State) (i j : Fin 48) (peer : Nat) : (s.fallToPaging i peer).record j =
    if j = i then
      if (s.record i).contact = .outbound then
        { s.record i with handover := none, contact := .paging, pageCount := s.params.pageLimit, lastHanding := some peer }
      else { s.record i with handover := none }
    else s.record j := by
  unfold State.fallToPaging State.enterPaging State.dropContext
  by_cases e : j = i
  · subst e
    by_cases c : (s.record j).contact = .outbound <;> simp [c]
  · have ne := Ne.symm e
    by_cases c : (s.record i).contact = .outbound <;> simp [c, e, State.record_modifyRecord_ne _ _ ne]

theorem State.loseContext_record (s : State) (i : Fin 48) :
    (s.loseContext i).record i = (s.record i).contextLost s.params.pageLimit := by
  unfold State.loseContext Record.contextLost
  cases hc : (s.record i).handover with
  | none => rfl
  | some c =>
      cases hr : c.role with
      | claiming => simp only [hr, State.lapseClaim_record, if_true]
      | handing => simp only [hr, State.fallToPaging_record, if_true]

theorem State.loseContext_record_ne (s : State) {i j : Fin 48} (h : j ≠ i) : (s.loseContext i).record j = s.record j := by
  unfold State.loseContext
  cases (s.record i).handover with
  | none => rfl
  | some c =>
      cases hr : c.role with
      | claiming => simp only [hr, State.lapseClaim_record, if_neg h]
      | handing => simp only [hr, State.fallToPaging_record, if_neg h]

theorem State.loseContext_params (s : State) (i : Fin 48) : (s.loseContext i).params = s.params :=
  State.params_of_calm (s.loseContext_calm i)

theorem State.loseContext_told (s : State) {i : Fin 48} {c : HandoverContext} (h : (s.record i).handover = some c)
    (hr : c.role = .claiming) : s.told (s.loseContext i) i .softFault := by
  simp only [State.loseContext, h, hr]
  exact State.told_offerReason (t := (s.dropContext i).modifyRecord i fun r => { r with soft := some .claimLapsed }) rfl i _

theorem State.says.loseContext {s : State} {j : Fin 48} (h : s.says j .softFault) (i : Fin 48) :
    (s.loseContext i).says j .softFault := by
  unfold State.loseContext
  cases (s.record i).handover with
  | none => exact h
  | some c =>
      cases hr : c.role with
      | claiming =>
          simp only [hr]
          exact State.says.offerReason (s := (s.dropContext i).modifyRecord i _) h (.inr (.inl rfl))
      | handing =>
          simp only [hr]
          obtain ⟨e, he⟩ := h
          exact ⟨e, by rwa [State.fallToPaging_host]⟩

/-- A record's context ended if a test picks the record. -/
def State.loseContextIf (lost : Fin 48 → Bool) (s : State) (i : Fin 48) : State := if lost i then s.loseContext i else s

theorem State.loseContextIf_params (lost : Fin 48 → Bool) (s : State) (i : Fin 48) :
    (s.loseContextIf lost i).params = s.params := by
  rw [State.loseContextIf]
  split
  · exact s.loseContext_params i
  · rfl

theorem State.loseContextIf_record (lost : Fin 48 → Bool) (s : State) (i : Fin 48) : (s.loseContextIf lost i).record i =
    if lost i then (s.record i).contextLost s.params.pageLimit else s.record i := by
  rw [State.loseContextIf]
  split
  · exact s.loseContext_record i
  · rfl

theorem State.loseContextIf_record_ne (lost : Fin 48 → Bool) (s : State) {i j : Fin 48} (h : j ≠ i) :
    (s.loseContextIf lost i).record j = s.record j := by
  rw [State.loseContextIf]
  split
  · exact s.loseContext_record_ne h
  · rfl

theorem State.says.loseContextIf {s : State} {j : Fin 48} (h : s.says j .softFault) (lost : Fin 48 → Bool) (i : Fin 48) :
    (s.loseContextIf lost i).says j .softFault := by
  rw [State.loseContextIf]
  split
  · exact h.loseContext i
  · exact h

/-- The contexts of the records that a test picks, ended in index order. -/
def State.loseContexts (s : State) (lost : Fin 48 → Bool) : State := allRecords.foldl (State.loseContextIf lost) s

theorem State.loseContexts_record (s : State) (lost : Fin 48 → Bool) (j : Fin 48) :
    (s.loseContexts lost).record j =
      if lost j then (s.record j).contextLost s.params.pageLimit else s.record j :=
  foldl_allRecords_record (g := fun j r => if lost j then r.contextLost s.params.pageLimit else r)
    (State.loseContextIf_params lost) (fun t _ _ e => t.loseContextIf_record_ne lost e)
    (fun t i e => e ▸ t.loseContextIf_record lost i) j

theorem State.loseContexts_told {s : State} {lost : Fin 48 → Bool} {i : Fin 48} {c : HandoverContext}
    (hi : lost i = true) (h : (s.record i).handover = some c) (hr : c.role = .claiming) :
    s.told (s.loseContexts lost) i .softFault := by
  have stays (l : List (Fin 48)) : ∀ t : State, t.says i .softFault →
      (l.foldl (State.loseContextIf lost) t).says i .softFault := by
    induction l with
    | nil => exact fun _ h => h
    | cons j l ih => exact fun t h => ih _ (h.loseContextIf lost j)
  have reached (l : List (Fin 48)) : ∀ t : State, i ∈ l → t.params = s.params → t.record i = s.record i →
      s.told (l.foldl (State.loseContextIf lost) t) i .softFault := by
    induction l with
    | nil => exact fun _ h => absurd h List.not_mem_nil
    | cons j l ih =>
        intro t hl hp ht
        by_cases e : i = j
        · subst e
          refine fun hm => stays l _ ?_
          rw [State.loseContextIf, if_pos hi]
          exact t.loseContext_told (ht ▸ h) hr (hp ▸ hm)
        · exact ih _ ((List.mem_cons.mp hl).resolve_left e) ((t.loseContextIf_params lost j).trans hp)
            ((t.loseContextIf_record_ne lost e).trans ht)
  exact reached allRecords s (mem_allRecords i) rfl rfl

theorem State.loseContexts_contextsEnded (s : State) (lost : Fin 48 → Bool) : s.contextsEnded (s.loseContexts lost) lost := by
  refine ⟨fun i hi => ?_, fun i hi => ?_, fun i c hi hc hr => ⟨?_, State.loseContexts_told hi hc hr⟩, fun i c hi hc hr ho => ?_⟩
  · rw [State.loseContexts_record, hi, if_pos rfl, Record.contextLost]
    cases hc : (s.record i).handover with
    | none => exact hc
    | some c =>
        cases hr : c.role with
        | claiming => simp only [hr]
        | handing =>
            simp only [hr]
            split <;> rfl
  · rw [State.loseContexts_record]
    rcases hi with hi | hi
    · rw [hi]
      rfl
    · simp only [Record.contextLost, hi, ite_self]
  · rw [State.loseContexts_record, hi, if_pos rfl]
    simp only [Record.contextLost, hc, hr]
  · rw [State.loseContexts_record, hi, if_pos rfl]
    simp only [Record.contextLost, hc, hr, ho, if_true]

theorem State.endContexts_eq (s : State) : s.endContexts = s.loseContexts fun _ => true := rfl

/-- The loss of a port ends the contexts that were routed through it as it began. -/
theorem State.losePort_eq (s : State) (p : Port) : s.losePort p = s.loseContexts (s.routedThrough p) := by
  have route (l : List (Fin 48)) : ∀ t : State, l.Nodup → t.params = s.params → (∀ i ∈ l, t.record i = s.record i) →
      l.foldl (fun t i => if t.routedThrough p i then t.loseContext i else t) t =
        l.foldl (State.loseContextIf (s.routedThrough p)) t := by
    induction l with
    | nil => exact fun _ _ _ _ => rfl
    | cons i l ih =>
        intro t hl hp ht
        obtain ⟨fresh, hl⟩ := List.nodup_cons.mp hl
        have same : t.routedThrough p i = s.routedThrough p i := by
          rw [State.routedThrough, State.routedThrough, ht i (List.mem_cons_self ..), hp]
        rw [List.foldl_cons, List.foldl_cons, same]
        refine ih _ hl ((t.loseContextIf_params _ i).trans hp) fun j hj => ?_
        have ne : j ≠ i := fun e => fresh (e ▸ hj)
        exact (t.loseContextIf_record_ne _ ne).trans (ht j (List.mem_cons_of_mem _ hj))
  exact route allRecords s allRecords_nodup rfl fun _ _ => rfl

end Sys2Proof.Machine

/-! What an accepted parameter does at once. -/

namespace Sys2Proof.Machine

/-! ## What an accepted parameter does at once (R122, R125, R138, R167) -/

theorem State.contextsEnded.congr {s t u : State} {lost : Fin 48 → Bool} (h : s.contextsEnded t lost)
    (roster : u.roster = t.roster) (attention : u.host.attention = t.host.attention) : s.contextsEnded u lost := by
  obtain ⟨cleared, kept, claims, handings⟩ := h
  simp only [State.contextsEnded, State.record_congr roster]
  exact ⟨cleared, kept, fun i c hi hc hr => ⟨(claims i c hi hc hr).1, (claims i c hi hc hr).2.attention attention⟩, handings⟩

/-- The same contexts end whatever stands beside the roster, the attention list and the parameters that say so. -/
theorem State.contextsEnded.of_begin {s s' t : State} {lost : Fin 48 → Bool} (h : s'.contextsEnded t lost)
    (roster : s'.roster = s.roster) (mask : s'.params.attentionMask = s.params.attentionMask)
    (limit : s'.params.pageLimit = s.params.pageLimit) : s.contextsEnded t lost := by
  simp only [State.contextsEnded, State.record_congr roster, State.told, mask, limit] at h
  exact h

theorem State.linkDown_iff (s : State) :
    s.linkDown = true ↔ ∃ q, s.params.inUse q = true ∧ (s.port q).neighbour = .down := by
  simp only [State.linkDown, Bool.or_eq_true, Bool.and_eq_true, beq_iff_eq]
  constructor
  · rintro (h | h)
    · exact ⟨.inbye, h⟩
    · exact ⟨.outbye, h⟩
  · rintro ⟨q, h⟩
    cases q with
    | inbye => exact .inl h
    | outbye => exact .inr h

/-- A report for LINK_DOWN while port `p` has no neighbour that is DOWN. -/
theorem State.reportLinkDown_elsewhere {s t : State} {p : Port} (conditions : t.conditions = s.conditions)
    (hp : (t.port p).neighbour ≠ .down)
    (others : ∀ q, q ≠ p → (t.port q).neighbour = (s.port q).neighbour ∧ t.params.inUse q = s.params.inUse q) :
    s.linkDownElsewhere t.reportLinkDown p := by
  refine ⟨?_, t.linkDown, ?_, ?_⟩
  · exact (State.onlyClasses_of_conditions conditions (l := [])).trans (t.onlyClasses_reportCause .linkDown t.linkDown)
  · have reported := t.reportCause_reported .linkDown t.linkDown
    simp only [State.classReported, State.classFlags_congr conditions] at reported
    exact reported
  · rw [State.linkDown_iff]
    constructor
    · rintro ⟨q, hu, hd⟩
      have ne : q ≠ p := by
        rintro rfl
        exact hp hd
      obtain ⟨neighbour, use⟩ := others q ne
      exact ⟨q, ne, use ▸ hu, neighbour ▸ hd⟩
    · rintro ⟨q, ne, hu, hd⟩
      obtain ⟨neighbour, use⟩ := others q ne
      exact ⟨q, use ▸ hu, neighbour ▸ hd⟩

theorem Params.set_portUse (p : Params) (q : Port) (v : Nat) : (p.set (.portUse q) v).inUse q = (v == 1) := by
  cases q <;> rfl

theorem Params.set_portUse_same {p : Params} {q : Port} {v : Nat} (h : p.inUse q = (v == 1)) : p.set (.portUse q) v = p := by
  cases q <;> (simp only [Params.set, ← h]; rfl)

theorem Params.set_portUse_ne (p : Params) {q r : Port} (v : Nat) (h : r ≠ q) :
    (p.set (.portUse q) v).inUse r = p.inUse r := by
  exact Params.set_inUse fun e => h (ParamName.portUse.inj e).symm

/-- What a port knows of the link to its neighbour. -/
def PortState.link (q : PortState) : NeighbourState × Option Nat × Nat × Nat :=
  (q.neighbour, q.neighbourNumber, q.helloTimer, q.silence)

theorem State.serveHandover_link (s : State) (p q : Port) (i : Fin 48) :
    ((s.serveHandover p i).port q).link = (s.port q).link := by
  unfold State.serveHandover
  split
  · cases p <;> cases q <;> rfl
  · rfl

theorem State.serveTraffic_link (s : State) (p q : Port) : ((s.serveTraffic p).port q).link = (s.port q).link := by
  unfold State.serveTraffic
  split
  · cases p <;> cases q <;> rfl
  · rfl

theorem State.chooseSource_link (s : State) (p q : Port) : ((s.chooseSource p).port q).link = (s.port q).link := by
  unfold State.chooseSource
  (repeat' split)
  · exact s.serveTraffic_link p q
  · exact s.serveHandover_link p q _
  · exact s.serveHandover_link p q _
  · exact s.serveTraffic_link p q
  · exact s.serveHandover_link p q _

/-- The arbiter leaves the link to the neighbour and its timers alone. -/
theorem State.arbitrate_link (s : State) (p q : Port) : ((s.arbitrate p).port q).link = (s.port q).link := by
  unfold State.arbitrate
  (repeat' split)
  · refine (State.chooseSource_link _ p q).trans ?_
    cases p <;> cases q <;> rfl
  · cases p <;> cases q <;> rfl
  · exact s.chooseSource_link p q
  · rfl

/-! A port put out of use and into use. -/

/-- What a port put out of use leaves behind (R122, R150). -/
structure State.portClosed (s t : State) (p : Port) : Prop where
  own : t.port p =
    { s.port p with neighbour := .unknown, neighbourNumber := none, receive := [], traffic := [], helloDue := false }
  others : ∀ q, q ≠ p → t.port q = s.port q
  ended : s.contextsEnded t (s.routedThrough p)
  linkDown : s.linkDownElsewhere t p
  cells : t.cells = s.cells
  pool : t.pool = s.pool

theorem State.closePort_closed (s : State) (p : Port) {params : Params}
    (ho : ∀ q, q ≠ p → params.inUse q = s.params.inUse q) (station : params.station = s.params.station)
    (mask : params.attentionMask = s.params.attentionMask) (limit : params.pageLimit = s.params.pageLimit) :
    s.portClosed (({ s with params := params } : State).closePort p) p := by
  obtain ⟨u, hu⟩ : ∃ u, u = ({ s with params := params } : State).modifyPort p fun q =>
    { q with neighbour := .unknown, neighbourNumber := none, receive := [], traffic := [], helloDue := false } := ⟨_, rfl⟩
  obtain ⟨w, hw⟩ : ∃ w, w = u.losePort p := ⟨_, rfl⟩
  have closed : ({ s with params := params } : State).closePort p = w.reportLinkDown := by
    rw [hw, hu]
    rfl
  have ports : w.ports = u.ports := by rw [hw, State.losePort_ports]
  have own : w.port p =
      { s.port p with neighbour := .unknown, neighbourNumber := none, receive := [], traffic := [], helloDue := false } := by
    rw [State.port_congr ports, hu, State.port_modifyPort]
    rfl
  have others (q : Port) (e : q ≠ p) : w.port q = s.port q := by
    rw [State.port_congr ports, hu, State.port_modifyPort_ne _ _ (Ne.symm e)]
    rfl
  have roster : u.roster = s.roster := by rw [hu, State.modifyPort_roster]
  have same : u.params = params := by rw [hu, State.modifyPort_params]
  have routed : u.routedThrough p = s.routedThrough p := by
    funext i
    simp only [State.routedThrough, State.record_congr roster, same, station]
  rw [closed]
  refine ⟨own, others, ?_, ?_, ?_, ?_⟩
  · have ended := u.loseContexts_contextsEnded (u.routedThrough p)
    rw [← State.losePort_eq, ← hw, routed] at ended
    exact (ended.of_begin roster (by rw [same, mask]) (by rw [same, limit])).congr rfl rfl
  · refine State.reportLinkDown_elsewhere ?_ ?_ fun q e => ⟨congrArg _ (others q e), ?_⟩
    · rw [hw, State.losePort_conditions, hu, State.modifyPort_conditions]
    · rw [own]
      exact nofun
    · rw [hw, State.params_of_calm (u.losePort_calm p), same, ho q e]
  · rw [State.reportLinkDown_cells, hw, State.losePort_cells, hu, State.modifyPort_cells]
  · rw [State.reportLinkDown_pool, hw, State.losePort_pool, hu, State.modifyPort_pool]

/-- What a port put into use begins with (R122). -/
structure State.portOpened (s t : State) (p : Port) : Prop where
  neighbour : (t.port p).neighbour = .unknown
  helloTimer : (t.port p).helloTimer = 0
  silence : (t.port p).silence = 0
  begun : (s.port p).sending = none → s.params.station ≠ 0 → (t.port p).sending = some s.helloFrame ∧
    (t.port p).helloDue = false
  waiting : (s.port p).sending ≠ none → (t.port p).sending = (s.port p).sending ∧ (t.port p).helloDue = true
  others : ∀ q, q ≠ p → t.port q = s.port q
  records : s.recordsSent t
  linkDown : s.linkDownElsewhere t p
  cells : t.cells = s.cells
  pool : t.pool = s.pool

theorem State.openPort_opened (s : State) (p : Port) {params : Params} (hp : params.inUse p = true)
    (ho : ∀ q, q ≠ p → params.inUse q = s.params.inUse q) (station : params.station = s.params.station) :
    s.portOpened (({ s with params := params } : State).openPort p) p := by
  obtain ⟨u, hu⟩ : ∃ u, u = ({ s with params := params } : State).modifyPort p fun q =>
    { q with neighbour := .unknown, helloTimer := 0, silence := 0, helloDue := true } := ⟨_, rfl⟩
  obtain ⟨w, hw⟩ : ∃ w, w = u.arbitrate p := ⟨_, rfl⟩
  have opened : ({ s with params := params } : State).openPort p = w.reportLinkDown := by
    rw [hw, hu]
    rfl
  have fresh : u.port p = { s.port p with neighbour := .unknown, helloTimer := 0, silence := 0, helloDue := true } := by
    rw [hu, State.port_modifyPort]
    rfl
  have others (q : Port) (e : q ≠ p) : w.port q = s.port q := by
    rw [hw, State.arbitrate_ports_ne u e, hu, State.port_modifyPort_ne _ _ (Ne.symm e)]
    rfl
  have roster : u.roster = s.roster := by rw [hu, State.modifyPort_roster]
  have same : u.params = params := by rw [hu, State.modifyPort_params]
  have link : (w.port p).link = (u.port p).link := by rw [hw, State.arbitrate_link]
  simp only [PortState.link, fresh, Prod.mk.injEq] at link
  obtain ⟨neighbour, -, helloTimer, silence⟩ := link
  rw [opened]
  refine ⟨neighbour, helloTimer, silence, fun hs hn => ?_, fun hs => ?_, others, ?_, ?_, ?_, ?_⟩
  · have hello : u.helloFrame = s.helloFrame := by simp only [State.helloFrame, State.originate, same, station]
    have port : w.port p = { u.port p with helloDue := false, sending := some s.helloFrame } := by
      rw [hw, State.arbitrate_hello (by rw [same, hp]) (by rw [fresh, hs]) (by rw [fresh]) (by rw [same, station]; exact hn),
        State.port_setPort, hello]
    exact ⟨congrArg PortState.sending port, congrArg PortState.helloDue port⟩
  · have port : w.port p = u.port p := by
      rw [hw, State.arbitrate_idle_not fun k => hs (by rw [← k.2, fresh])]
    rw [show w.reportLinkDown.port p = w.port p from rfl, port, fresh]
    exact ⟨rfl, rfl⟩
  · have sent := (State.recordsSent_of_roster roster).trans (u.arbitrate_recordsSent p)
    rwa [← hw] at sent
  · refine State.reportLinkDown_elsewhere ?_ ?_ fun q e => ⟨congrArg _ (others q e), ?_⟩
    · rw [hw, State.arbitrate_conditions, hu, State.modifyPort_conditions]
    · rw [neighbour]
      exact nofun
    · rw [hw, State.arbitrate_params, same, ho q e]
  · rw [State.reportLinkDown_cells, hw, State.arbitrate_cells, hu, State.modifyPort_cells]
  · rw [State.reportLinkDown_pool, hw, State.arbitrate_pool, hu, State.modifyPort_pool]

theorem State.endContexts_conditions (s : State) : s.endContexts.conditions = s.conditions :=
  foldl_keep State.conditions State.loseContext State.loseContext_conditions allRecords s

theorem exec_configure_reports {s : State} (h : s.takesRequests = true) {k hi lo : Byte} {name : ParamName} {v : Nat}
    {c : ConditionClass} {cause : Bool} (hk : ParamName.ofCode k.toNat = some name) (hv : wordOf hi lo = v)
    (range : s.params.inRange name v = true) (hn : name ≠ .station)
    (change : ({ s with params := s.params.set name v } : State).parameterChanged s.params name =
      ({ s with params := s.params.set name v } : State).reportCause c cause) :
    ∃ t, exec (.configure [k, hi, lo]) s = .next t ∧ s.classReported t c cause ∧ s.onlyClasses t [c] := by
  refine ⟨_, exec_configure_of_name h hk hi lo, ?_⟩
  rw [hv, State.configure_in_range range hn, change]
  exact ⟨State.reportCause_reported { s with params := s.params.set name v } c cause,
    State.onlyClasses_reportCause { s with params := s.params.set name v } c cause⟩

theorem wordOf_low (b : Byte) : wordOf 0#8 b = b.toNat := by
  simp [wordOf]

/-- Settles O13: the four thresholds are one report, and a port and a station number act through `State.loseContexts`. -/
theorem configureActsAtOnce : Obligations.ConfigureActsAtOnce := by
  refine ⟨fun s lo h => ⟨fun hv => ?_, fun hv hw => ?_, fun hv => ?_, fun hv hw => ?_⟩, fun s p k h hk => ⟨fun hu => ?_, fun hu => ?_,
    fun hu => ?_, fun hu => ?_⟩, fun s hi lo h hc hv hw => ⟨fun he => ?_, fun he => ?_⟩⟩
  · exact exec_configure_reports h (name := .poolLow) rfl (wordOf_low lo) (by simpa [Params.inRange] using hv) nofun rfl
  · exact exec_configure_reports h (name := .airCheck) rfl (wordOf_low lo) (by simp [Params.inRange, hv, hw]) nofun rfl
  · have high : lo.toNat ≤ 255 := Nat.le_of_lt_succ lo.isLt
    exact exec_configure_reports h (name := .darkLimit) rfl (wordOf_low lo) (by simp [Params.inRange, hv, high]) nofun rfl
  · exact exec_configure_reports h (name := .portCheckThreshold) rfl (wordOf_low lo) (by simp [Params.inRange, hv, hw]) nofun rfl
  · have closed := s.closePort_closed p (fun q e => s.params.set_portUse_ne 0 e) (Params.set_station nofun)
      (s.params.set_beside (.portUse p) 0).2.2.1 (Params.set_value_ne (other := .pageLimit) nofun)
    have params := State.params_of_calm (({ s with params := s.params.set (.portUse p) 0 } : State).closePort_calm p)
    obtain ⟨t, ht⟩ : ∃ t, t = ({ s with params := s.params.set (.portUse p) 0 } : State).closePort p := ⟨_, rfl⟩
    rw [← ht] at closed params
    refine ⟨t.respond .done [], ?_, ?_, closed.own, closed.others, closed.ended.congr rfl rfl, closed.linkDown, closed.cells,
      closed.pool⟩
    · rw [exec_configure_of_name h hk, show wordOf 0#8 0#8 = 0 from rfl,
        State.configure_in_range (name := .portUse p) (v := 0) (by rfl) (by simp), State.parameterChanged, hu]
      simp only [Params.set_portUse, ht]
      rfl
    · rw [State.respond_params, params]
      exact s.params.set_portUse p 0
  · have opened := s.openPort_opened p (s.params.set_portUse p 1) (fun q e => s.params.set_portUse_ne 1 e)
      (Params.set_station nofun)
    have params := State.params_of_calm (({ s with params := s.params.set (.portUse p) 1 } : State).openPort_calm p)
    obtain ⟨t, ht⟩ : ∃ t, t = ({ s with params := s.params.set (.portUse p) 1 } : State).openPort p := ⟨_, rfl⟩
    rw [← ht] at opened params
    refine ⟨t.respond .done [], ?_, ?_, opened.neighbour, opened.helloTimer, opened.silence, opened.begun, opened.waiting,
      opened.others, opened.records, opened.linkDown, opened.cells, opened.pool⟩
    · rw [exec_configure_of_name h hk, show wordOf 0#8 1#8 = 1 from rfl,
        State.configure_in_range (name := .portUse p) (v := 1) (by rfl) (by simp), State.parameterChanged, hu]
      simp only [Params.set_portUse, ht]
      rfl
    · rw [State.respond_params, params]
      exact s.params.set_portUse p 1
  · have same := Params.set_portUse_same (q := p) (v := 1) hu
    rw [exec_configure_of_name h hk, show wordOf 0#8 1#8 = 1 from rfl,
      State.configure_in_range (name := .portUse p) (v := 1) (by rfl) (by simp), same]
    simp [State.parameterChanged]
  · have same := Params.set_portUse_same (q := p) (v := 0) hu
    rw [exec_configure_of_name h hk, show wordOf 0#8 0#8 = 0 from rfl,
      State.configure_in_range (name := .portUse p) (v := 0) (by rfl) (by simp), same]
    simp [State.parameterChanged]
  · have range : s.params.inRange .station (wordOf hi lo) = true := by simp [Params.inRange, isStation, wordOf, hv, hw]
    have same : s.params.set .station (wordOf hi lo) = s.params := by rw [wordOf, he, Params.set]
    rw [exec_configure_of_name h rfl, State.configure, range, hc, same]
    simp [State.parameterChanged]
  · have range : s.params.inRange .station (wordOf hi lo) = true := by simp [Params.inRange, isStation, wordOf, hv, hw]
    obtain ⟨u, hu⟩ : ∃ u, u = ({ s with params := s.params.set .station (wordOf hi lo) } : State) := ⟨_, rfl⟩
    obtain ⟨t, ht⟩ : ∃ t, t = u.endContexts := ⟨_, rfl⟩
    have changed : u.parameterChanged s.params .station = t := by
      have ne : u.params.station ≠ s.params.station := by rwa [hu]
      simp [State.parameterChanged, ne, ht]
    have params := State.parameterChanged_calm u s.params .station
    have beside := State.parameterChanged_unconfigured u s.params .station
    rw [changed] at params beside
    simp only [State.unconfigured, Prod.mk.injEq] at beside
    obtain ⟨-, cells, pool, -⟩ := beside
    have ended := u.loseContexts_contextsEnded fun _ => true
    rw [← State.endContexts_eq, ← ht] at ended
    refine ⟨t.respond .done [], ?_, ?_, (ended.of_begin (by rw [hu]) (by rw [hu]; rfl) (by rw [hu]; rfl)).congr rfl rfl, ?_,
      State.onlyClasses_of_conditions ?_, ?_, ?_⟩
    · rw [exec_configure_of_name h rfl, State.configure, range, hc, ← hu, changed]
      rfl
    · rw [State.respond_params, State.params_of_calm params, hu]
      rfl
    · rw [State.respond_ports, ht, State.endContexts_ports, hu]
    · rw [State.respond_conditions, ht, State.endContexts_conditions, hu]
    · rw [State.respond_cells, cells, hu]
    · rw [State.respond_pool, pool, hu]

end Sys2Proof.Machine

/-! Records found, and the commands that name one. -/

namespace Sys2Proof.Machine

/-! ## Records found and allocated (R24, R26) -/

/-- The first of all the records that passes a test. -/
theorem find_allRecords_first {test : Fin 48 → Bool} {i : Fin 48} (h : allRecords.find? test = some i) {j : Fin 48}
    (hj : j < i) : test j = false := by
  obtain ⟨-, older, newer, split, before⟩ := List.find?_eq_some_iff_append.mp h
  have sorted : allRecords.Pairwise (· < ·) := List.pairwise_lt_finRange 48
  have mem : j ∈ older ++ i :: newer := split ▸ mem_allRecords j
  rw [split, List.pairwise_append, List.pairwise_cons] at sorted
  obtain ⟨-, ⟨later, -⟩, -⟩ := sorted
  rcases List.mem_append.mp mem with hm | hm
  · simpa using before j hm
  · rcases List.mem_cons.mp hm with e | hm
    · exact absurd e (ne_of_lt hj)
    · exact absurd (later j hm) (not_lt_of_gt hj)

theorem State.lookup_none {s : State} {car : Nat} (h : s.lookup car = none) (i : Fin 48) :
    (s.record i).contact = .free ∨ (s.record i).carId ≠ car := by
  have := List.find?_eq_none.mp h i (mem_allRecords i)
  simp only [Bool.and_eq_true, bne_iff_ne, ne_eq, beq_iff_eq, not_and_or, not_not] at this
  exact this

/-- While the car IDs are unique, the lookup finds the record that holds a car. -/
theorem State.lookup_of_held {s : State} (h : s.carIdsUnique) {i : Fin 48} {car : Nat} (hi : (s.record i).contact ≠ .free)
    (hc : (s.record i).carId = car) : s.lookup car = some i := by
  cases hl : s.lookup car with
  | none => exact absurd hc ((State.lookup_none hl i).resolve_left hi)
  | some j =>
      obtain ⟨hj, hjc⟩ := State.lookup_held hl
      exact congrArg some (h j i hj hi (hjc.trans hc.symm))

theorem State.allocatable_eq_some {s : State} {i : Fin 48} (h : s.allocatable = some i) :
    (s.record i).contact = .free ∧ s.onAttention i = false ∧
      ∀ j, j < i → (s.record j).contact ≠ .free ∨ s.onAttention j = true := by
  have found := List.find?_some h
  simp only [Bool.and_eq_true, beq_iff_eq, Bool.not_eq_true'] at found
  refine ⟨found.1, found.2, fun j hj => ?_⟩
  have first := find_allRecords_first h hj
  simp only [Bool.and_eq_false_iff, beq_eq_false_iff_ne, Bool.not_eq_false'] at first
  exact first

theorem State.allocatable_none {s : State} (h : s.allocatable = none) (j : Fin 48) :
    (s.record j).contact ≠ .free ∨ s.onAttention j = true := by
  have first := List.find?_eq_none.mp h j (mem_allRecords j)
  simp only [Bool.and_eq_true, beq_iff_eq, Bool.not_eq_true', not_and_or, Bool.not_eq_false] at first
  exact first

/-! ## The commands that name a record (R27, R30 to R33, R36) -/

/-- The request of a command that is held for a record in exchange. -/
def HeldCommand.instr (b : Byte) : HeldCommand → Instr
  | .retire => .retire [b]
  | .release => .release [b]
  | .retune code => .retune [b, code]
  | .clearFault => .clearFault [b]
  | .pin => .pin [b]
  | .unpin => .unpin [b]

theorem exec_heldCommand {s : State} (h : s.takesRequests = true) (c : HeldCommand) (b : Byte) :
    exec (c.instr b) s = .next (s.onIndex [b] fun i s => (s.clearSoft i).command i c) := by
  cases c with
  | retune code => exact exec_taken (c := .retune [b, code]) rfl (by decide) rfl h
  | retire => exact exec_taken (c := .retire [b]) rfl (by decide) rfl h
  | release => exact exec_taken (c := .release [b]) rfl (by decide) rfl h
  | clearFault => exact exec_taken (c := .clearFault [b]) rfl (by decide) rfl h
  | pin => exact exec_taken (c := .pin [b]) rfl (by decide) rfl h
  | unpin => exact exec_taken (c := .unpin [b]) rfl (by decide) rfl h

theorem exec_heldCommand_at {s : State} (h : s.takesRequests = true) (c : HeldCommand) (i : Fin 48) :
    exec (c.instr (byteOf i.val)) s = .next ((s.clearSoft i).command i c) := by
  rw [exec_heldCommand h, State.onIndex_byteOf]

theorem exec_heldCommand_high {s : State} (h : s.takesRequests = true) (c : HeldCommand) {b : Byte} (hb : 47 < b.toNat) :
    exec (c.instr b) s = .next (s.refuse .badIndex) := by
  rw [exec_heldCommand h, State.onIndex_high s hb]

theorem State.command_refused {s : State} {i : Fin 48} {c : HeldCommand} {status : Status}
    (h : s.checkCommand i c = some status) : s.command i c = s.refuse status := by
  rw [State.command, h]

theorem State.command_held {s : State} {i : Fin 48} {c : HeldCommand} (h : s.checkCommand i c = none)
    (hx : s.inExchange i = true) : s.command i c = (s.holdWork (.command c)).respond .done [] := by
  rw [State.command, h, hx]
  rfl

theorem State.command_applied {s : State} {i : Fin 48} {c : HeldCommand} (h : s.checkCommand i c = none)
    (hx : s.inExchange i = false) : s.command i c = (s.applyCommand i c).respond .done [] := by
  rw [State.command, h, hx]
  rfl

theorem State.record_clearSoft (s : State) (i : Fin 48) : (s.clearSoft i).record i = { s.record i with soft := none } := by
  rw [State.clearSoft, State.record_modifyRecord]

/-- No command is refused for the soft fault, which is cleared before its check. -/
theorem State.checkCommand_clearSoft (s : State) (i : Fin 48) (c : HeldCommand) :
    (s.clearSoft i).checkCommand i c = s.checkCommand i c := by
  cases c with
  | retune code =>
      simp only [State.checkCommand, State.checkRetune, State.record_clearSoft]
      rfl
  | pin =>
      simp only [State.checkCommand, State.record_clearSoft]
      rfl
  | _ => simp only [State.checkCommand, State.record_clearSoft]

/-- Of a FREE record every held command but RETUNE is refused with BAD_STATE. -/
theorem State.checkCommand_free {s : State} {i : Fin 48} (h : (s.record i).contact = .free) {c : HeldCommand}
    (hc : ∀ code, c ≠ .retune code) : s.checkCommand i c = some .badState := by
  cases c with
  | retune code => exact absurd rfl (hc code)
  | _ => simp [State.checkCommand, h]

theorem exec_setKeep_at {s : State} (h : s.takesRequests = true) (i : Fin 48) :
    exec (.setKeep [byteOf i.val]) s = .next ((s.clearSoft i).keepRecord i true) := by
  rw [exec_taken rfl (by decide) rfl h, effect, State.onIndex_byteOf]

theorem exec_clearKeep_at {s : State} (h : s.takesRequests = true) (i : Fin 48) :
    exec (.clearKeep [byteOf i.val]) s = .next ((s.clearSoft i).keepRecord i false) := by
  rw [exec_taken rfl (by decide) rfl h, effect, State.onIndex_byteOf]

theorem State.keepRecord_free {s : State} {i : Fin 48} (h : (s.record i).contact = .free) (keep : Bool) :
    s.keepRecord i keep = s.refuse .badState := by
  simp [State.keepRecord, h]

theorem exec_post {s : State} (h : s.takesRequests = true) {n : Byte} {body : List Byte} (hn : body.length = n.toNat)
    (b u : Byte) :
    exec (.post (b :: u :: n :: body)) s = .next (match recordIndex b with
      | some i => (s.clearSoft i).postTo i u body
      | none => s.refuse .badIndex) :=
  exec_taken (c := .post (b :: u :: n :: body)) rfl (by decide) (beq_iff_eq.mpr hn) h

/-- Settles O15: the search by car ID and the search for a FREE record, and the two checks of every command on a record. -/
theorem recordsAreFoundAndChecked : Obligations.RecordsAreFoundAndChecked := by
  refine ⟨⟨fun s car => ⟨fun i => State.lookup_held, State.lookup_none, fun hu i => State.lookup_of_held hu⟩,
    fun s => ⟨fun i => State.allocatable_eq_some, State.allocatable_none⟩⟩, fun s b h hb => ?_, fun s i h hf t ht => ?_⟩
  · have held (c : HeldCommand) : exec (c.instr b) s = .next (s.refuse .badIndex) := exec_heldCommand_high h c hb
    refine ⟨?_, held .retire, held .release, held .pin, held .unpin, ?_, ?_, held .clearFault, fun code => held (.retune code),
      fun u n body hn => ?_⟩
    · rw [exec_taken rfl (by decide) rfl h, effect, State.onIndex_high s hb]
    · rw [exec_taken rfl (by decide) rfl h, effect, State.onIndex_high s hb]
    · rw [exec_taken rfl (by decide) rfl h, effect, State.onIndex_high s hb]
    · rw [exec_post h hn, recordIndex_none hb]
  · subst ht
    have free : ((s.clearSoft i).record i).contact = .free := by rw [State.record_clearSoft, hf]
    have held (c : HeldCommand) (hc : ∀ code, c ≠ .retune code) :
        exec (c.instr (byteOf i.val)) s = .next ((s.clearSoft i).refuse .badState) := by
      rw [exec_heldCommand_at h, State.command_refused (State.checkCommand_free free hc)]
    rw [← State.clearSoft_eq]
    refine ⟨held .retire nofun, held .release nofun, held .pin nofun, held .unpin nofun, ?_, ?_, held .clearFault nofun⟩
    · rw [exec_setKeep_at h, State.keepRecord_free free]
    · rw [exec_clearKeep_at h, State.keepRecord_free free]

end Sys2Proof.Machine

/-! The readers of the roster. -/

namespace Sys2Proof.Machine

/-! ## The readers of the roster (R27, R177) -/

theorem ContactState.codeByte_eq (c : ContactState) :
    byteOf c.code = match c with
      | .free => 7#8
      | .granted => 1#8
      | .present => 2#8
      | .paging => 3#8
      | .dormant => 4#8
      | .outbound => 5#8
      | .releasing => 6#8 := by
  cases c <;> rfl

theorem SweepMark.codeByte_eq (m : SweepMark) :
    byteOf m.code = match m with
      | .none => 0#8
      | .marked => 1#8
      | .answered => 2#8
      | .left => 3#8 := by
  cases m <;> rfl

theorem Urgency.codeByte_eq (u : Urgency) : byteOf u.code = if u = .urgent then 1#8 else 0#8 := by
  cases u <;> rfl

theorem HandoverRole.codeByte_eq (r : HandoverRole) : byteOf r.code = if r = .handing then 1#8 else 0#8 := by
  cases r <;> rfl

theorem Turn.resultBytes_eq (t : Turn) :
    t.resultBytes = [byteOf t.slot,
      match t.period with
      | .one => 0#8
      | .two => 1#8
      | .four => 2#8
      | .eight => 3#8,
      byteOf t.phase] := by
  rw [Turn.resultBytes]
  cases t.period <;> rfl

theorem numberBytes_eq (o : Option Nat) :
    optionBytes (fun n => [byteOf n]) o = match o with
      | none => [0#8]
      | some n => [1#8, byteOf n] := by
  cases o <;> rfl

theorem turnBytes_eq (turn : Turn → List Byte) (o : Option Turn) :
    optionBytes turn o = match o with
      | none => [0#8]
      | some t => 1#8 :: turn t := by
  cases o <;> rfl

theorem retuneBytes_eq (turn : Turn → List Byte) (o : Option RetuneContext) :
    optionBytes (fun c => turn c.target ++ [byteOf c.tries]) o = match o with
      | none => [0#8]
      | some c => 1#8 :: (turn c.target ++ [byteOf c.tries]) := by
  cases o <;> rfl

theorem handoverBytes_eq (o : Option HandoverContext) :
    optionBytes (fun h : HandoverContext => [if h.role = .handing then 1#8 else 0#8, byteOf h.peer, byteOf h.tries]) o =
      match o with
      | none => [0#8]
      | some c => [1#8, if c.role = .handing then 1#8 else 0#8, byteOf c.peer, byteOf c.tries] := by
  cases o <;> rfl

theorem positionBytes_eq (r : Record) :
    optionBytes (fun n => [byteOf n]) r.inFlightPosition = match r.inFlight with
      | none => [0#8]
      | some b => [1#8, byteOf (r.messages.idxOf b)] := by
  rw [Record.inFlightPosition]
  cases r.inFlight <;> rfl

theorem softBytes_eq (f : Option SoftFault) :
    optionBytes (fun f : SoftFault => [byteOf f.code]) f = match f with
      | none => [0#8]
      | some .garbled => [1#8, 0#8]
      | some .mismatch => [1#8, 1#8]
      | some .reentry => [1#8, 2#8]
      | some .degraded => [1#8, 3#8]
      | some .claimLapsed => [1#8, 4#8]
      | some .noRoute => [1#8, 5#8]
      | some .retuneFailed => [1#8, 6#8]
      | some .dropped => [1#8, 7#8]
      | some .partialTransfer => [1#8, 8#8] := by
  cases f with
  | none => rfl
  | some f => cases f <;> rfl

theorem hardBytes_eq (f : Option HardFault) :
    optionBytes (fun f : HardFault => [byteOf f.code]) f = match f with
      | none => [0#8]
      | some .identity => [1#8, 0#8] := by
  cases f with
  | none => rfl
  | some f =>
      cases f
      rfl

theorem State.listed_urgency {s : State} {r : Record} {lanes : List Urgency} (h : r.messages.map s.urgencyOf = lanes.map some) :
    (s.listed r).map Message.urgency = lanes := by
  have read : (s.listed r).map Message.urgency = (r.messages.map s.urgencyOf).filterMap id := by
    rw [State.listed, List.map_filterMap, List.filterMap_map]
    rfl
  rw [read, h, List.filterMap_map]
  simp

theorem exec_findCar {s : State} (h : s.takesRequests = true) (hi lo : Byte) :
    exec (.findCar [hi, lo]) s = .next (s.findCar (wordOf hi lo)) :=
  exec_taken (c := .findCar [hi, lo]) rfl (by decide) rfl h

theorem exec_readRecord_at {s : State} (h : s.takesRequests = true) (i : Fin 48) :
    exec (.readRecord [byteOf i.val]) s = .next (s.respond .done (s.recordBytes i)) := by
  rw [exec_taken rfl (by decide) rfl h, effect, State.onIndex_byteOf]

/-- Settles O16: READ_RECORD field by field, and FIND_CAR by the lookup. -/
theorem rosterReadersAnswer : Obligations.RosterReadersAnswer := by
  refine fun s h => ⟨fun i r lanes turn hr hl ht => ?_, fun i => ⟨_, exec_readRecord_at h i⟩, fun b hb => ?_, fun hi lo hv => ?_,
    fun hi lo h1 h2 => ⟨fun hn => ?_, fun i hs => ?_⟩⟩
  · have turns : Turn.resultBytes = turn := funext fun t => (t.resultBytes_eq).trans (ht t).symm
    have length : lanes.length = r.messages.length := by
      simpa using (congrArg List.length hl).symm
    rw [exec_readRecord_at h, State.recordBytes, ← hr, State.listed_urgency hl, Record.resultBytes, turns, listBytes, length,
      positionBytes_eq]
    simp only [ContactState.codeByte_eq, SweepMark.codeByte_eq, Urgency.codeByte_eq, softBytes_eq, hardBytes_eq, flagByte_eq,
      HandoverRole.codeByte_eq, ← List.map_eq_flatMap, numberBytes_eq, turnBytes_eq, retuneBytes_eq, handoverBytes_eq] <;>
      rfl
  · rw [exec_taken rfl (by decide) rfl h, effect, State.onIndex_high s hb]
  · have range : isCarId (wordOf hi lo) = false := by
      rw [isCarId, Bool.and_eq_false_iff, decide_eq_false_iff_not, decide_eq_false_iff_not, wordOf]
      omega
    rw [exec_findCar h, State.findCar, range]
    rfl
  · have range : isCarId (wordOf hi lo) = true := by simp [isCarId, wordOf, h1, h2]
    rw [exec_findCar h, State.findCar, range, wordOf, hn]
    rfl
  · have range : isCarId (wordOf hi lo) = true := by simp [isCarId, wordOf, h1, h2]
    rw [exec_findCar h, State.findCar, range, wordOf, hs]
    rfl

end Sys2Proof.Machine

/-! Reasons offered in turn, and the return to FREE. -/

namespace Sys2Proof.Machine

/-! ## Reasons offered in turn for one record (R168) -/

/-- The attention list after an offer under a mask. -/
def listOffered (mask : BitVec 11) (i : Fin 48) (list : List AttentionEntry) (reason : Reason) : List AttentionEntry :=
  if mask.getLsbD reason.bit.val then addReason list i reason else list

/-- The attention list of `t` is that of `s` after these reasons were offered for a record in turn. -/
def State.tells (s t : State) (i : Fin 48) (reasons : List Reason) : Prop :=
  t.host.attention = reasons.foldl (listOffered s.params.attentionMask i) s.host.attention

theorem State.offerReason_attention (s : State) (i : Fin 48) (reason : Reason) :
    (s.offerReason i reason).host.attention = listOffered s.params.attentionMask i s.host.attention reason := by
  rw [State.offerReason, listOffered]
  split <;> rfl

theorem State.tells_offerReason (s : State) (i : Fin 48) (reason : Reason) : s.tells (s.offerReason i reason) i [reason] :=
  s.offerReason_attention i reason

/-- Work that leaves the attention list alone. -/
theorem State.tells_nothing {s t : State} (i : Fin 48) (h : t.host.attention = s.host.attention) : s.tells t i [] := h

theorem State.tells.trans {s t u : State} {i : Fin 48} {l m : List Reason} (h : s.tells t i l) (k : t.tells u i m)
    (params : t.params = s.params) : s.tells u i (l ++ m) := by
  rw [State.tells, params] at k
  rw [State.tells, k, h, List.foldl_append]

/-- Work that leaves the attention list alone, after an offer. -/
theorem State.tells.after {s t u : State} {i : Fin 48} {l : List Reason} (h : s.tells t i l)
    (k : u.host.attention = t.host.attention) : s.tells u i l := k.trans h

/-- Work that leaves the attention list and the parameters alone, before an offer. -/
theorem State.tells.before {s t u : State} {i : Fin 48} {l : List Reason} (h : t.tells u i l)
    (params : t.params = s.params) (k : t.host.attention = s.host.attention) : s.tells u i l := by
  rwa [State.tells, params, k] at h

/-- What was said stays said through offers that leave it. -/
theorem State.says.tells {s t : State} {i j : Fin 48} {reason : Reason} {l : List Reason} (h : s.says j reason)
    (k : s.tells t i l) (kept : j ≠ i ∨ ∀ other ∈ l, reason.keptBy other) : t.says j reason := by
  induction l generalizing s with
  | nil =>
      obtain ⟨e, he, r⟩ := h
      exact ⟨e, k ▸ he, r⟩
  | cons other l ih =>
      refine ih (s := s.offerReason i other) (State.says.offerReason h ?_) ?_ ?_
      · exact kept.imp_right fun k => k other (List.mem_cons_self ..)
      · rw [State.tells, State.offerReason_attention, State.params_of_calm (s.offerReason_calm i other)]
        exact k
      · exact kept.imp_right fun k x hx => k x (List.mem_cons_of_mem _ hx)

/-- A reason offered is told, if the later offers leave it. -/
theorem State.tells.told {s t : State} {i : Fin 48} {earlier later : List Reason} {reason : Reason}
    (h : s.tells t i (earlier ++ reason :: later)) (kept : ∀ other ∈ later, reason.keptBy other) : s.told t i reason := by
  induction earlier generalizing s with
  | nil =>
      refine fun hm => State.says.tells (i := i) (l := later) (State.says_offerReason hm i) ?_ (.inr kept)
      rw [State.tells, State.offerReason_attention, State.params_of_calm (s.offerReason_calm i reason)]
      exact h
  | cons other earlier ih =>
      refine (ih (s := s.offerReason i other) ?_).of_params (State.params_of_calm (s.offerReason_calm i other))
      rw [State.tells, State.offerReason_attention, State.params_of_calm (s.offerReason_calm i other)]
      exact h

theorem State.told.tells {s t u : State} {i j : Fin 48} {reason : Reason} {l : List Reason} (h : s.told t j reason)
    (k : t.tells u i l) (kept : j ≠ i ∨ ∀ other ∈ l, reason.keptBy other) : s.told u j reason :=
  fun hm => State.says.tells (h hm) k kept

/-! ## What each end of a stay tells (R33, R39, R90) -/

theorem State.endSummon_tells (s : State) (i : Fin 48) (o : SummonOutcome) :
    s.tells (s.endSummon i o) i (if (s.record i).summoned then [.summonEnded o] else []) := by
  unfold State.endSummon
  split
  · exact State.tells.before (State.tells_offerReason _ i (.summonEnded o)) rfl rfl
  · exact State.tells_nothing i rfl

theorem State.markLeft_attention (s : State) (i : Fin 48) : (s.markLeft i).host.attention = s.host.attention := by
  unfold State.markLeft State.endIfAccounted
  (repeat' split) <;> rfl

theorem State.offerReasonOpt_tells (s : State) (i : Fin 48) (reason : Option Reason) :
    s.tells (s.offerReason? i reason) i reason.toList := by
  cases reason with
  | none => exact State.tells_nothing i rfl
  | some r => exact s.tells_offerReason i r

theorem State.setSoft_tells (s : State) (i : Fin 48) (fault : SoftFault) : s.tells (s.setSoft i fault) i [.softFault] :=
  State.tells.before (State.tells_offerReason _ i .softFault) rfl rfl

theorem State.freeMessages_summoned (s : State) (i : Fin 48) (notes : Bool) :
    ((s.freeMessages i notes).record i).summoned = (s.record i).summoned := by
  obtain ⟨⟨r, hr, hri⟩, -⟩ := State.freeMessages_spec s i notes
  rw [hri]
  rcases hr with rfl | ⟨c, -, rfl⟩ <;> rfl

/-- A record that becomes FREE ends its summons with SUMMON_ENDED cancelled before its own reason (R39). -/
theorem State.becomeFree_tells (s : State) (i : Fin 48) (notes : Bool) (reason : Option Reason) :
    s.tells (s.becomeFree i notes reason) i
      ((if (s.record i).summoned then [.summonEnded .cancelled] else []) ++ reason.toList) := by
  obtain ⟨u, hu⟩ : ∃ u, u = (((s.withdrawGrant i).freeCellsOf i).freeMessages i notes).dropContext i := ⟨_, rfl⟩
  obtain ⟨v, hv⟩ : ∃ v, v = (((u.endSummon i .cancelled).dropPin i).markLeft i).emptyRecord i := ⟨_, rfl⟩
  have freed : s.becomeFree i notes reason = (v.offerReason? i reason).reportAllocatable i := by
    rw [hv, hu]
    rfl
  have uparams : u.params = s.params := State.params_of_calm (by rw [hu]; simp)
  have vparams : v.params = s.params := State.params_of_calm (by rw [hv, hu]; simp)
  have uhost : u.host.attention = s.host.attention := by rw [hu]; simp
  have summoned : (u.record i).summoned = (s.record i).summoned := by
    rw [hu, State.dropContext, State.record_modifyRecord]
    refine (State.freeMessages_summoned _ i notes).trans ?_
    rw [State.record_congr (t := (s.withdrawGrant i).freeCellsOf i) (s := s)]
    simp
  have ended := (u.endSummon_tells i .cancelled).before uparams uhost
  rw [summoned] at ended
  have emptied : v.host.attention = (u.endSummon i .cancelled).host.attention := by
    rw [hv, State.emptyRecord_host, State.markLeft_attention, State.dropPin_host]
  rw [freed]
  exact ((ended.after emptied).trans (v.offerReasonOpt_tells i reason) vparams).after (by rw [State.reportAllocatable_host])

theorem State.becomeFree_told_reason (s : State) (i : Fin 48) (notes : Bool) (reason : Reason) :
    s.told (s.becomeFree i notes (some reason)) i reason :=
  State.tells.told (s.becomeFree_tells i notes (some reason)) (later := []) (by simp)

theorem State.becomeFree_told_summon {s : State} {i : Fin 48} (h : (s.record i).summoned = true) (notes : Bool)
    {reason : Option Reason} (hr : ∀ r, reason = some r → (Reason.summonEnded .cancelled).keptBy r) :
    s.told (s.becomeFree i notes reason) i (.summonEnded .cancelled) := by
  have tells := s.becomeFree_tells i notes reason
  rw [h] at tells
  refine State.tells.told (earlier := []) tells fun r hmem => hr r ?_
  simpa using hmem

theorem State.becomeFree_quiet_list {s : State} {i : Fin 48} (h : (s.record i).summoned = false) (notes : Bool) :
    (s.becomeFree i notes none).host.attention = s.host.attention := by
  have tells := s.becomeFree_tells i notes none
  rw [h] at tells
  exact tells

/-! ## The return to FREE, from a state that it does not tell apart (R39) -/

/-- `u` is to record `i`'s return to FREE as `s` is. -/
structure State.freesAlike (s u : State) (i : Fin 48) : Prop where
  carId : (u.record i).carId = (s.record i).carId
  mark : (u.record i).mark = (s.record i).mark
  summoned : (u.record i).summoned = (s.record i).summoned
  messages : (u.record i).messages = (s.record i).messages
  contact : (u.record i).contact = (s.record i).contact
  pinned : u.roster.pinnedCount - (if (u.record i).pinned then 1 else 0) =
    s.roster.pinnedCount - (if (s.record i).pinned then 1 else 0)
  others : ∀ j, j ≠ i → u.record j = s.record j
  cells : u.cells = s.cells
  pool : u.pool = s.pool
  sweep : u.sweep = s.sweep
  slot : u.air.slot = s.air.slot
  work : u.air.work = s.air.work
  summonCount : u.roster.summonCount = s.roster.summonCount
  tagCounter : u.roster.tagCounter = s.roster.tagCounter
  pagePointer : u.roster.pagePointer = s.roster.pagePointer
  passedOver : u.roster.passedOver = s.roster.passedOver
  held : u.roster.held = s.roster.held
  classes : ∀ c, c ≠ .airCheck → c ≠ .airDark → u.classFlags c = s.classFlags c
  params : u.params = s.params
  inbound : u.inbound = s.inbound
  clock : u.clock = s.clock
  resetPending : u.resetPending = s.resetPending
  resetHeld : u.resetHeld = s.resetHeld
  rfReady : u.rfReady = s.rfReady
  pending : u.pending = s.pending

theorem State.recordFreed.alike {s u t : State} {i : Fin 48} (h : u.recordFreed t i) (k : s.freesAlike u i) :
    s.recordFreed t i := by
  have awaits : u.sweepAwaits i = s.sweepAwaits i := State.sweepAwaits_congr k.sweep k.mark
  have others (j : Fin 48) (e : j ≠ i) : (u.record j).hard = (s.record j).hard := by rw [k.others j e]
  have identity : (∃ j, j ≠ i ∧ (u.record j).hard ≠ none) = (∃ j, j ≠ i ∧ (s.record j).hard ≠ none) :=
    propext (exists_congr fun j => and_congr_right fun e => by rw [others j e])
  have plan' := k.classes .planFull (by decide) (by decide)
  have low' := k.classes .poolLow (by decide) (by decide)
  have ident' := k.classes .identity (by decide) (by decide)
  have full' := k.classes .rosterFull (by decide) (by decide)
  have link' := k.classes .linkDown (by decide) (by decide)
  have port' := k.classes .portCheck (by decide) (by decide)
  obtain ⟨own, beside, cells, pool, summons, pins, left, tag, page, passed, ⟨plan, low, ident, full, link, port⟩, rest⟩ := h
  simp only [State.passedOverIn, State.planFreed, State.poolReported, State.causeEnded, State.classReported, identity,
    k.carId, k.mark, k.summoned, k.messages, k.contact, k.pinned, k.cells, k.pool, k.sweep, k.slot, k.work, k.summonCount,
    k.tagCounter, k.pagePointer, k.passedOver, k.held, k.params, k.inbound, k.clock, k.resetPending, k.resetHeld, k.rfReady,
    k.pending, awaits, plan', low', ident', full', link', port'] at *
  exact ⟨own, fun j e => k.others j e ▸ beside j e, cells, pool, summons, pins, left, tag, page, passed,
    ⟨plan, low, ident, full, link, port⟩, rest⟩

theorem State.freed.alike {s u t : State} {i : Fin 48} (h : u.freed t i) (k : s.freesAlike u i) (air : u.air = s.air)
    (conditions : u.conditions = s.conditions) : s.freed t i := by
  obtain ⟨record, place, classes⟩ := h
  refine ⟨record.alike k, by rw [place, air], fun c hc => ?_⟩
  rw [classes c hc, State.classFlags_congr conditions]

end Sys2Proof.Machine

/-! The effects of the commands on a record. -/

namespace Sys2Proof.Machine

/-! ## The effects of the commands on a record (R30 to R32, R35, R40) -/

theorem State.clearSoft_modify (s : State) (i : Fin 48) (f : Record → Record) :
    (s.clearSoft i).modifyRecord i f = s.setRecord i (f { s.record i with soft := none }) := by
  rw [State.clearSoft_eq, State.modifyRecord_eq, State.record_setRecord, State.setRecord_setRecord]

/-- The NOTEs of a list depend on the ports and the parameters alone where the transmitters are served. -/
theorem State.noteEachDropped_served {s u : State} (hs : s.transmittersServed) (hu : u.transmittersServed)
    (ports : u.ports = s.ports) (params : u.params = s.params) (car : Nat) (ms : List Message) :
    (u.noteEachDropped car ms).ports = (s.noteEachDropped car ms).ports := by
  induction ms generalizing s u with
  | nil => exact ports
  | cons m ms ih =>
      obtain ⟨same, hs', hu'⟩ := State.noteFor_served hs hu ports params car m.source m.receipt .dropped
      refine ih hs' hu' same ?_
      rw [State.noteFor_params, State.noteFor_params, params]

/-- NOTEs sent by the return to FREE from a state that it does not tell apart. -/
theorem State.freesAlike.notesDropped {s u : State} {i : Fin 48} (k : s.freesAlike u i) (ports : u.ports = s.ports)
    (fewer : s.fewerContexts u) (reason : Option Reason) : s.notesDropped (u.becomeFree i true reason) i := by
  intro pool served
  have served' : u.transmittersServed := served.of_fewer ports k.params fewer
  have nodup : (u.record i).messages.Nodup := k.messages ▸ (pool.2.1 i).1
  have listed : u.listed (u.record i) = s.listed (s.record i) := by
    rw [State.listed, State.listed, k.messages, k.pool]
  rw [State.becomeFree_ports u i reason served' nodup, listed, k.carId]
  exact State.noteEachDropped_served served served' ports k.params _ _

theorem State.identityCause_eq (s : State) :
    (s.roster.records.toList.any fun r => r.hard.isSome) = decide (∃ j, (s.record j).hard ≠ none) := by
  rw [vector_toList_eq, Bool.eq_iff_iff, List.any_map, List.any_eq_true, decide_eq_true_iff]
  constructor
  · rintro ⟨j, -, h⟩
    exact ⟨j, Option.isSome_iff_ne_none.mp h⟩
  · rintro ⟨j, h⟩
    exact ⟨j, List.mem_finRange j, Option.isSome_iff_ne_none.mpr h⟩

/-- CLEAR_FAULT, with the soft fault that the command has cleared (R33, R35). -/
theorem State.clearFault_cleared (s : State) (i : Fin 48) :
    (s.clearSoft i).clearFault i =
      (s.setRecord i { s.record i with hard := none, mismatchCount := 0, soft := none }).reportCause .identity
        (decide (∃ j, j ≠ i ∧ (s.record j).hard ≠ none)) := by
  rw [State.clearFault, State.clearSoft_modify, State.reportIdentity, State.identityCause_eq]
  congr 2
  refine propext (exists_congr fun j => ?_)
  by_cases e : j = i
  · simp [e]
  · simp [e, State.record_setRecord_ne s _ (Ne.symm e)]

/-- RETIRE, with the soft fault that the command has cleared. -/
theorem State.clearSoft_freesAlike (s : State) (i : Fin 48) : s.freesAlike (s.clearSoft i) i := by
  have own := s.record_clearSoft i
  exact ⟨by rw [own], by rw [own], by rw [own], by rw [own], by rw [own], by rw [own]; rfl,
    fun j e => State.record_modifyRecord_ne s _ (Ne.symm e), rfl, rfl, rfl, rfl, rfl, rfl, rfl, rfl, rfl, rfl, fun _ _ _ => rfl,
    rfl, rfl, rfl, rfl, rfl, rfl, rfl⟩

/-- UNPIN lowers the pinned count first, so that the return to FREE finds nothing to lower (R31). -/
theorem State.dropPin_freesAlike (s : State) (i : Fin 48) : s.freesAlike (s.dropPin i) i := by
  obtain ⟨own, others, tail⟩ := s.dropPin_spec i
  simp only [State.tail, Prod.mk.injEq] at tail
  obtain ⟨tag, page, summon, pin, held, passed⟩ := tail
  have calm := s.dropPin_calm i
  have quiet := s.dropPin_quiet i
  have air := s.dropPin_air i
  exact ⟨by rw [own], by rw [own], by rw [own], by rw [own], by rw [own], by rw [own, pin]; rfl, others, s.dropPin_cells i,
    s.dropPin_pool i, s.dropPin_sweep i, by rw [air], by rw [air], summon, tag, page, passed, held,
    fun c _ _ => State.classFlags_congr (s.dropPin_conditions i) c, State.params_of_calm calm, State.inbound_of_quiet quiet,
    State.clock_of_calm calm, State.resetPending_of_calm calm, State.resetHeld_of_calm calm, State.rfReady_of_quiet quiet,
    State.pending_of_calm calm⟩

theorem State.freesAlike.trans {s u v : State} {i : Fin 48} (h : s.freesAlike u i) (k : u.freesAlike v i) :
    s.freesAlike v i where
  carId := k.carId.trans h.carId
  mark := k.mark.trans h.mark
  summoned := k.summoned.trans h.summoned
  messages := k.messages.trans h.messages
  contact := k.contact.trans h.contact
  pinned := k.pinned.trans h.pinned
  others j e := (k.others j e).trans (h.others j e)
  cells := k.cells.trans h.cells
  pool := k.pool.trans h.pool
  sweep := k.sweep.trans h.sweep
  slot := k.slot.trans h.slot
  work := k.work.trans h.work
  summonCount := k.summonCount.trans h.summonCount
  tagCounter := k.tagCounter.trans h.tagCounter
  pagePointer := k.pagePointer.trans h.pagePointer
  passedOver := k.passedOver.trans h.passedOver
  held := k.held.trans h.held
  classes c hc hd := (k.classes c hc hd).trans (h.classes c hc hd)
  params := k.params.trans h.params
  inbound := k.inbound.trans h.inbound
  clock := k.clock.trans h.clock
  resetPending := k.resetPending.trans h.resetPending
  resetHeld := k.resetHeld.trans h.resetHeld
  rfReady := k.rfReady.trans h.rfReady
  pending := k.pending.trans h.pending

theorem State.freed.respond {s t : State} {i : Fin 48} (h : s.freed t i) (status : Status) (bytes : List Byte) :
    s.freed (t.respond status bytes) i := h

theorem State.notesDropped.respond {s t : State} {i : Fin 48} (h : s.notesDropped t i) (status : Status) (bytes : List Byte) :
    s.notesDropped (t.respond status bytes) i := h

theorem State.told.respond {s t : State} {i : Fin 48} {reason : Reason} (h : s.told t i reason) (status : Status)
    (bytes : List Byte) : s.told (t.respond status bytes) i reason := h

/-- What a command that returns its record to FREE leaves behind (R31, R39, R40). -/
theorem State.freed_by_command {s u : State} {i : Fin 48} (k : s.freesAlike u i) (air : u.air = s.air)
    (conditions : u.conditions = s.conditions) (ports : u.ports = s.ports) (fewer : s.fewerContexts u)
    (attention : u.host.attention = s.host.attention) :
    s.freed ((u.becomeFree i true none).respond .done []) i ∧ s.notesDropped ((u.becomeFree i true none).respond .done []) i ∧
      ((s.record i).summoned = true → s.told ((u.becomeFree i true none).respond .done []) i (.summonEnded .cancelled)) ∧
      ((s.record i).summoned = false → ((u.becomeFree i true none).respond .done []).host.attention = s.host.attention) := by
  have freed := (u.becomeFree_freed i true none).alike k air conditions
  have notes := k.notesDropped ports fewer none
  have told (h : (s.record i).summoned = true) : s.told (u.becomeFree i true none) i (.summonEnded .cancelled) :=
    (State.becomeFree_told_summon (reason := none) (k.summoned.trans h) true (by simp)).of_params k.params
  have quiet (h : (s.record i).summoned = false) : (u.becomeFree i true none).host.attention = s.host.attention :=
    (State.becomeFree_quiet_list (k.summoned.trans h) true).trans attention
  generalize u.becomeFree i true none = t at freed notes told quiet ⊢
  exact ⟨freed.respond .done [], notes.respond .done [], fun h => (told h).respond .done [], quiet⟩

theorem State.clearSoft_fewerContexts (s : State) (i : Fin 48) : s.fewerContexts (s.clearSoft i) := by
  intro j
  by_cases e : i = j
  · subst e
    exact .inl (by rw [State.record_clearSoft])
  · exact .inl (by rw [State.clearSoft, State.record_modifyRecord_ne _ _ e])

theorem State.dropPin_fewerContexts (s : State) (i : Fin 48) : s.fewerContexts (s.dropPin i) := by
  obtain ⟨own, others, -⟩ := s.dropPin_spec i
  intro j
  by_cases e : j = i
  · exact .inl (by rw [e, own])
  · exact .inl (by rw [others j e])

theorem State.checkCommand_held {s : State} {i : Fin 48} (h : (s.record i).contact ≠ .free) {c : HeldCommand}
    (hc : c = .retire ∨ c = .clearFault ∨ c = .unpin) : s.checkCommand i c = none := by
  rcases hc with rfl | rfl | rfl <;> simp [State.checkCommand, h]

/-- A command that is accepted and not held, with the soft fault cleared first. -/
theorem exec_heldCommand_applied {s : State} (h : s.takesRequests = true) {c : HeldCommand} {i : Fin 48}
    (hc : s.checkCommand i c = none) (hx : s.inExchange i = false) :
    exec (c.instr (byteOf i.val)) s = .next (((s.clearSoft i).applyCommand i c).respond .done []) := by
  rw [exec_heldCommand_at h, State.command_applied ((s.checkCommand_clearSoft i c).trans hc) hx]

theorem exec_heldCommand_refused {s : State} (h : s.takesRequests = true) {c : HeldCommand} {i : Fin 48} {status : Status}
    (hc : s.checkCommand i c = some status) :
    exec (c.instr (byteOf i.val)) s = .next ((s.setRecord i { s.record i with soft := none }).refuse status) := by
  rw [exec_heldCommand_at h, State.command_refused ((s.checkCommand_clearSoft i c).trans hc), State.clearSoft_eq]

theorem State.checkCommand_pin {s : State} {i : Fin 48} (h : (s.record i).contact ≠ .free) :
    s.checkCommand i .pin =
      if (s.record i).pinned = false ∧ 8 ≤ s.roster.pinnedCount then some .noRoom else none := by
  by_cases k : (s.record i).pinned = false ∧ 8 ≤ s.roster.pinnedCount
  · simp [State.checkCommand, h, k, Config.pinnedLimit]
  · rw [if_neg k]
    simp only [not_and, Nat.not_le] at k
    rw [State.checkCommand, if_neg (by simpa using h)]
    refine if_neg fun e => ?_
    simp only [Bool.and_eq_true, Bool.not_eq_true', decide_eq_true_eq] at e
    obtain ⟨hp, hn⟩ := e
    exact absurd (k hp) (Nat.not_lt.mpr hn)

theorem State.fewerContexts.trans {s t u : State} (h : s.fewerContexts t) (k : t.fewerContexts u) : s.fewerContexts u := by
  intro i
  rcases k i with e | e
  · rw [e]
    exact h i
  · exact .inr e

theorem State.pinRecord_cleared (s : State) {i : Fin 48} (h : (s.record i).pinned = false) :
    (s.clearSoft i).pinRecord i =
      ({ s with roster := { s.roster with pinnedCount := s.roster.pinnedCount + 1 } } : State).setRecord i
        { s.record i with pinned := true, soft := none } := by
  rw [State.pinRecord, State.record_clearSoft, if_neg (by simp [h])]
  exact State.clearSoft_modify { s with roster := { s.roster with pinnedCount := s.roster.pinnedCount + 1 } } i
    fun r => { r with pinned := true }

theorem State.dropPin_cleared (s : State) {i : Fin 48} (h : (s.record i).pinned = true) :
    (s.clearSoft i).dropPin i =
      ({ s with roster := { s.roster with pinnedCount := s.roster.pinnedCount - 1 } } : State).setRecord i
        { s.record i with pinned := false, soft := none } := by
  rw [State.dropPin, State.record_clearSoft, if_pos h]
  exact State.clearSoft_modify { s with roster := { s.roster with pinnedCount := s.roster.pinnedCount - 1 } } i
    fun r => { r with pinned := false }

theorem State.unpinRecord_other {s : State} {i : Fin 48} (h : (s.record i).pinned = true) (hd : (s.record i).contact ≠ .dormant) :
    s.unpinRecord i = s.dropPin i := by
  rw [State.unpinRecord, if_pos h]
  refine if_neg ?_
  rw [(s.dropPin_spec i).1]
  simpa using hd

theorem State.unpinRecord_dormant {s : State} {i : Fin 48} (h : (s.record i).pinned = true)
    (hd : (s.record i).contact = .dormant) : s.unpinRecord i = (s.dropPin i).becomeFree i true none := by
  rw [State.unpinRecord, if_pos h]
  refine if_pos ?_
  rw [(s.dropPin_spec i).1]
  simpa using hd

/-- Settles O17: each command clears the soft fault, passes its check and changes its record; RETIRE and UNPIN end in
`State.becomeFree`. -/
theorem recordCommandsActAtOnce : Obligations.RecordCommandsActAtOnce := by
  refine ⟨⟨fun s i h hf => ⟨?_, ?_⟩, fun s i h hf hx => ⟨fun hp => ?_, fun hp hn => ?_, fun hp hn => ?_, fun hp => ?_, fun hp hd => ?_,
    fun hp hd => ?_⟩⟩, fun s i h hf hx => ?_, fun s i h hf hx => ?_⟩
  · rw [exec_setKeep_at h, State.keepRecord, State.clearSoft_modify, State.record_clearSoft]
    simp [hf]
  · rw [exec_clearKeep_at h, State.keepRecord, State.clearSoft_modify, State.record_clearSoft]
    simp [hf]
  · have accepted := State.checkCommand_pin hf
    rw [if_neg (by simp [hp])] at accepted
    refine (exec_heldCommand_applied h accepted hx).trans ?_
    simp [State.applyCommand, State.pinRecord, hp, State.clearSoft_eq]
  · have refused := State.checkCommand_pin hf
    rw [if_pos ⟨hp, hn⟩] at refused
    exact exec_heldCommand_refused h refused
  · have accepted := State.checkCommand_pin hf
    rw [if_neg (by omega)] at accepted
    refine (exec_heldCommand_applied h accepted hx).trans ?_
    rw [State.applyCommand, s.pinRecord_cleared hp]
  · refine (exec_heldCommand_applied h (State.checkCommand_held hf (.inr (.inr rfl))) hx).trans ?_
    simp [State.applyCommand, State.unpinRecord, hp, State.clearSoft_eq]
  · refine (exec_heldCommand_applied h (State.checkCommand_held hf (.inr (.inr rfl))) hx).trans ?_
    rw [State.applyCommand, State.unpinRecord_other (by rw [State.record_clearSoft]; exact hp)
      (by rw [State.record_clearSoft]; exact hd), s.dropPin_cleared hp]
  · refine ⟨_, exec_heldCommand_applied h (State.checkCommand_held hf (.inr (.inr rfl))) hx, ?_⟩
    rw [State.applyCommand, State.unpinRecord_dormant (by rw [State.record_clearSoft]; exact hp) (by rw [State.record_clearSoft]; exact hd)]
    obtain ⟨freed, notes, told, quiet⟩ := State.freed_by_command
      ((s.clearSoft_freesAlike i).trans ((s.clearSoft i).dropPin_freesAlike i)) (by simp) (by simp) (by simp) 
      ((s.clearSoft_fewerContexts i).trans ((s.clearSoft i).dropPin_fewerContexts i)) (by simp)
    exact ⟨freed, notes, State.respond_response _ _ _, told, quiet⟩
  · refine ⟨_, exec_heldCommand_applied h (State.checkCommand_held hf (.inr (.inl rfl))) hx, ?_⟩
    rw [State.applyCommand, State.clearFault_cleared]
    exact ⟨rfl, State.reportCause_reported _ _ _, State.onlyClasses_reportCause _ _ _⟩
  · refine ⟨_, exec_heldCommand_applied (c := .retire) h (State.checkCommand_held hf (.inl rfl)) hx, ?_⟩
    rw [State.applyCommand]
    obtain ⟨freed, notes, told, quiet⟩ := State.freed_by_command (s.clearSoft_freesAlike i) rfl rfl rfl
      (s.clearSoft_fewerContexts i) rfl
    exact ⟨freed, notes, State.respond_response _ _ _, told, quiet⟩

end Sys2Proof.Machine

/-! Cells freed, and the release. -/

namespace Sys2Proof.Machine

/-! ## Cells freed, and PLAN_FULL ended by them (R48, R64) -/

/-- `t` is `s` with the cells that a test picks freed, as far as the Turn Plan and the condition classes show. -/
structure State.cellsFreed (s t : State) (picked : Option CellHolding → Bool) : Prop where
  cells : ∀ k : Fin 232, t.cells[k] = if picked s.cells[k] then none else s.cells[k]
  plan : s.planFreed t picked
  classes : s.onlyClasses t [.planFull]

theorem State.cellsFreed_freeCellsWhere (s : State) (test : CellHolding → Bool) :
    s.cellsFreed (s.freeCellsWhere test) (Option.any test) :=
  ⟨fun k => s.freeCellsWhere_getElem test k k.isLt, s.freeCellsWhere_planFreed test, s.freeCellsWhere_onlyClasses test⟩

/-- Work beside the plan and the classes, before and after. -/
theorem State.cellsFreed.congr {s s' t t' : State} {picked : Option CellHolding → Bool} (h : s.cellsFreed t picked)
    (cells : s'.cells = s.cells) (conditions : s'.conditions = s.conditions) (cells' : t'.cells = t.cells)
    (conditions' : t'.conditions = t.conditions) : s'.cellsFreed t' picked := by
  obtain ⟨c, p, o⟩ := h
  have flags (c : ConditionClass) : s'.classFlags c = s.classFlags c := State.classFlags_congr conditions c
  have flags' (c : ConditionClass) : t'.classFlags c = t.classFlags c := State.classFlags_congr conditions' c
  refine ⟨by simpa only [cells, cells'] using c, ?_, fun c hc => by rw [flags, flags', o c hc]⟩
  simp only [State.planFreed, State.causeEnded, flags, flags', cells] at p ⊢
  exact p

theorem State.cellsFreed.trans {s t u : State} {p q : Option CellHolding → Bool} (h : s.cellsFreed t p)
    (k : t.cellsFreed u q) : s.cellsFreed u fun c => p c || q c := by
  obtain ⟨hc, ⟨hend, hkeep⟩, ho⟩ := h
  obtain ⟨kc, ⟨kend, kkeep⟩, ko⟩ := k
  refine ⟨fun n => ?_, ⟨fun e => ?_, fun e => ?_⟩, fun c hn => (ko c hn).trans (ho c hn)⟩
  · rw [kc, hc]
    cases hp : p s.cells[n]
    · simp
    · simp
  · by_cases first : ∃ n : Fin 232, p s.cells[n] = true
    · by_cases second : ∃ n : Fin 232, q t.cells[n] = true
      · rw [kend second, hend first]
      · rw [kkeep second, hend first]
    · have second : ∃ n : Fin 232, q t.cells[n] = true := by
        obtain ⟨n, hn⟩ := e
        have hp : p s.cells[n] = false := eq_false_of_ne_true fun x => first ⟨n, x⟩
        simp only [hp, Bool.false_or] at hn
        exact ⟨n, by rwa [hc, hp]⟩
      rw [kend second, hkeep first]
  · have first : ¬ ∃ n : Fin 232, p s.cells[n] = true := fun ⟨n, hn⟩ => e ⟨n, Bool.or_eq_true_iff.mpr (.inl hn)⟩
    have second : ¬ ∃ n : Fin 232, q t.cells[n] = true := by
      rintro ⟨n, hn⟩
      have hp : p s.cells[n] = false := eq_false_of_ne_true fun x => first ⟨n, x⟩
      rw [hc, hp] at hn
      exact e ⟨n, Bool.or_eq_true_iff.mpr (.inr hn)⟩
    rw [kkeep second, hkeep first]

theorem State.cellsFreed.of_eq {s t : State} {p q : Option CellHolding → Bool} (h : s.cellsFreed t p) (e : p = q) :
    s.cellsFreed t q := e ▸ h

theorem heldBy_eq (i : Fin 48) : (Option.any fun h : CellHolding => h.holder == i) = heldBy i := by
  funext c
  cases c <;> rfl

theorem State.cellsFreed_freeCellsOf (s : State) (i : Fin 48) : s.cellsFreed (s.freeCellsOf i) (heldBy i) :=
  (s.cellsFreed_freeCellsWhere fun h => h.holder == i).of_eq (heldBy_eq i)

/-- The cells of a record in one role. -/
theorem State.cellsFreed_freeRoleOf (s : State) (i : Fin 48) (role : CellRole) :
    s.cellsFreed (s.freeRoleOf i role) fun c => c == some { holder := i, role := role } := by
  refine (s.cellsFreed_freeCellsWhere fun h => h.holder == i && h.role == role).of_eq ?_
  funext c
  cases c with
  | none => rfl
  | some h =>
      obtain ⟨holder, held⟩ := h
      rw [Bool.eq_iff_iff]
      simp

/-! ## A release (R91) -/

/-- A CLAIMING context is dropped and a HANDING one stays. -/
def droppedClaim (h : Option HandoverContext) : Option HandoverContext :=
  h.bind fun c => if c.role = .claiming then none else some c

theorem State.dropClaim_record (s : State) (i j : Fin 48) : (s.dropClaim i).record j =
    if j = i then { s.record i with handover := droppedClaim (s.record i).handover } else s.record j := by
  unfold State.dropClaim droppedClaim
  by_cases e : j = i
  · subst e
    cases hc : (s.record j).handover with
    | none =>
        have same : { s.record j with handover := none } = s.record j := by rw [← hc]
        simpa using same.symm
    | some c =>
        cases hr : c.role with
        | claiming => simp [hr, State.dropContext]
        | handing =>
            have same : { s.record j with handover := some c } = s.record j := by rw [← hc]
            simpa [hr] using same.symm
  · cases (s.record i).handover with
    | none => simp [e]
    | some c =>
        cases hr : c.role with
        | claiming => simp [hr, e, State.dropContext, State.record_modifyRecord_ne _ _ (Ne.symm e)]
        | handing => simp [hr, e]

theorem State.dropClaim_tail (s : State) (i : Fin 48) : (s.dropClaim i).tail = s.tail := by
  unfold State.dropClaim
  (repeat' split) <;> rfl

/-- What a release makes of its record, whatever the cause (R91, R149). -/
def Record.released (r : Record) : Record :=
  { r with contact := .releasing, retune := none, summoned := false, handover := droppedClaim r.handover }

theorem lentOrPending_eq (i : Fin 48) :
    (fun c : Option CellHolding => c == some { holder := i, role := .lent } || c == some { holder := i, role := .pending }) =
      lentOrPendingOf i := rfl

/-- The five effects of a release on everything but the attention list. -/
structure State.releasedAt (s t : State) (i : Fin 48) : Prop where
  own : t.record i = (s.record i).released
  others : ∀ j, j ≠ i → t.record j = s.record j
  freed : s.cellsFreed t (lentOrPendingOf i)
  air : t.air = { s.air with grants := s.air.grants.filter fun j => j != i }
  summonCount : t.roster.summonCount = s.roster.summonCount - (if (s.record i).summoned then 1 else 0)
  tells : s.tells t i (if (s.record i).summoned then [.summonEnded .cancelled] else [])
  host : (s.record i).summoned = false → t.host = s.host
  pool : t.pool = s.pool
  ports : t.ports = s.ports
  inbound : t.inbound = s.inbound
  sweep : t.sweep = s.sweep
  params : t.params = s.params

theorem State.releaseRecord_released (s : State) (i : Fin 48) : s.releasedAt (s.releaseRecord i) i := by
  obtain ⟨u, hu⟩ : ∃ u, u = s.modifyRecord i fun r => { r with contact := .releasing } := ⟨_, rfl⟩
  obtain ⟨v, hv⟩ : ∃ v, v = ((u.freeRoleOf i .lent).cancelRetune i).withdrawGrant i := ⟨_, rfl⟩
  have step : s.releaseRecord i = (v.endSummon i .cancelled).dropClaim i := by
    rw [hv, hu]
    rfl
  have vroster : v.roster = (u.modifyRecord i fun r => { r with retune := none }).roster := by
    rw [hv, State.withdrawGrant_roster, State.cancelRetune]
    simp only [State.modifyRecord, State.setRecord, State.freeRoleOf_roster, State.record]
  have vown : v.record i = { s.record i with contact := .releasing, retune := none } := by
    rw [State.record_congr vroster, State.record_modifyRecord, hu, State.record_modifyRecord]
  have vothers (j : Fin 48) (e : j ≠ i) : v.record j = s.record j := by
    rw [State.record_congr vroster, State.record_modifyRecord_ne _ _ (Ne.symm e), hu, State.record_modifyRecord_ne _ _ (Ne.symm e)]
  have vhost : v.host = s.host := by rw [hv, hu]; simp
  have vquiet : v.quiet = s.quiet := by rw [hv, hu]; simp
  have vparams := State.params_of_calm (State.calm_of_quiet vquiet)
  obtain ⟨own, others, tail⟩ := v.endSummon_spec i .cancelled
  rw [step]
  refine ⟨?_, fun j e => ?_, ?_, ?_, ?_, ?_, fun h => ?_, ?_, ?_, ?_, ?_, ?_⟩
  · rw [State.dropClaim_record, if_pos rfl, own, vown]
    rfl
  · rw [State.dropClaim_record, if_neg e, others j e, vothers j e]
  · have both := (u.cellsFreed_freeRoleOf i .lent).trans ((u.freeRoleOf i .lent).cellsFreed_freeRoleOf i .pending)
    refine (both.of_eq (lentOrPending_eq i)).congr (by rw [hu]; rfl) (by rw [hu]; rfl) ?_ ?_
    · rw [State.dropClaim_cells, State.endSummon_cells, hv]
      rfl
    · rw [State.dropClaim_conditions, State.endSummon_conditions, hv]
      rfl
  · rw [State.dropClaim_air, State.endSummon_air, hv, State.withdrawGrant, State.cancelRetune_air, State.freeRoleOf_air, hu]
    rfl
  · have vtail : v.tail = s.tail := (State.tail_congr vroster).trans (by rw [State.modifyRecord_tail, hu, State.modifyRecord_tail])
    have count := State.dropClaim_tail (v.endSummon i .cancelled) i
    rw [tail, vown] at count
    simp only [State.tail, Prod.mk.injEq] at count vtail
    rw [count.2.2.1, vtail.2.2.1]
  · have told := (v.endSummon_tells i .cancelled).before vparams (congrArg HostPort.attention vhost)
    rw [vown] at told
    exact told.after (by rw [State.dropClaim_host])
  · rw [State.dropClaim_host, State.endSummon, if_neg (by rw [vown]; simp [h]), vhost]
  · rw [hv, hu]; simp
  · rw [hv, hu]; simp
  · exact State.inbound_of_quiet (by rw [State.dropClaim_quiet, State.endSummon_quiet, vquiet])
  · rw [hv, hu]; simp
  · exact State.params_of_calm (by rw [State.dropClaim_calm, State.endSummon_calm, State.calm_of_quiet vquiet])

theorem State.checkCommand_release (s : State) (i : Fin 48) : s.checkCommand i .release =
    if (s.record i).contact = .granted ∨ (s.record i).contact = .present then none else some .badState := by
  simp [State.checkCommand]

/-- Settles O18: the release of `State.releaseRecord_released`, with the soft fault cleared first. -/
theorem releaseOrdersTheCarAway : Obligations.ReleaseOrdersTheCarAway := by
  refine ⟨fun s i h hg hp => ?_, fun s i h hx hc => ?_⟩
  · have refused := s.checkCommand_release i
    rw [if_neg (by simp [hg, hp])] at refused
    exact exec_heldCommand_refused (c := .release) h refused
  · have accepted := s.checkCommand_release i
    rw [if_pos hc] at accepted
    refine ⟨_, exec_heldCommand_applied (c := .release) h accepted hx, ?_⟩
    obtain ⟨own, others, ⟨cells, plan, classes⟩, air, count, tells, host, pool, ports, inbound, sweep, params⟩ :=
      (s.clearSoft i).releaseRecord_released i
    rw [State.applyCommand]
    generalize (s.clearSoft i).releaseRecord i = t at *
    rw [State.record_clearSoft] at own count tells host
    refine ⟨own, fun hs => ?_, host, fun j e => ?_, fun k => ?_, plan, classes, air, count, pool, ports, inbound, sweep, params, rfl⟩
    · rw [if_pos hs] at tells
      exact tells.told (earlier := []) (later := []) (by simp)
    · refine (others j e).trans ?_
      rw [State.clearSoft, State.record_modifyRecord_ne _ _ (Ne.symm e)]
    · refine (cells k).trans ?_
      simp [lentOrPendingOf]

end Sys2Proof.Machine

/-! RETUNE and the commands held in exchange. -/

namespace Sys2Proof.Machine

/-! ## RETUNE and the commands held in exchange (R36, R68) -/

theorem Period.ofCode_high {n : Nat} (h : 3 < n) : Period.ofCode n = none := by
  unfold Period.ofCode
  split
  case h_5 => rfl
  all_goals omega

/-- RETUNE weighed for a period: the record's state, then the room in the plan. -/
theorem State.checkCommand_retune {s : State} {i : Fin 48} {code : Byte} {p : Period} (hp : Period.ofCode code.toNat = some p) :
    s.checkCommand i (.retune code) =
      if (s.record i).contact ≠ .present ∨ (s.record i).retune ≠ none ∨ (s.record i).handover ≠ none ∨ (s.record i).hard ≠ none
      then some .badState else if s.findPlace p = none then some .noRoom else none := by
  simp [State.checkCommand, State.checkRetune, hp, Option.isSome_iff_ne_none, or_assoc]

theorem State.giveTurnCells_frame (s : State) (i : Fin 48) (t : Turn) (role : CellRole) :
    s.giveTurnCells i t role = { s with cells := (s.giveTurnCells i t role).cells } := by
  unfold State.giveTurnCells
  induction t.phases generalizing s with
  | nil => rfl
  | cons f l ih => exact ih (s.giveCell t.slot f { holder := i, role := role })

theorem State.startRetune_at {s : State} {i : Fin 48} {code : Byte} {p : Period} {target : Turn}
    (hp : Period.ofCode code.toNat = some p) (ht : s.findPlace p = some target) :
    s.startRetune i code = s.reserveRetune i target := by
  rw [State.startRetune, hp, Option.bind_some, ht]

theorem State.reserveRetune_cleared (s : State) (i : Fin 48) (t : Turn) :
    (s.clearSoft i).reserveRetune i t =
      { (s.setRecord i { s.record i with retune := some { target := t, tries := 0 }, soft := none }) with
        cells := ((s.clearSoft i).giveTurnCells i t .pending).cells } := by
  rw [State.reserveRetune, State.giveTurnCells_frame]
  exact State.clearSoft_modify { s with cells := ((s.clearSoft i).giveTurnCells i t .pending).cells } i
    fun r => { r with retune := some { target := t, tries := 0 } }

/-- Settles O19: the checks of `State.checkCommand_retune`, and the place found given in the role PENDING. -/
theorem retuneReservesAPlace : Obligations.RetuneReservesAPlace := by
  refine fun s i code h => ⟨fun hc => ?_, fun p hp => ⟨fun hs => ?_, fun hpres hret hhand hhard => ⟨fun hn => ?_,
    fun target hx ht => ?_⟩⟩⟩
  · refine exec_heldCommand_refused (c := .retune code) h ?_
    rw [State.checkCommand, State.checkRetune, Period.ofCode_high hc]
  · have refused := State.checkCommand_retune (s := s) (i := i) hp
    rw [if_pos hs] at refused
    exact exec_heldCommand_refused (c := .retune code) h refused
  · have refused := State.checkCommand_retune (s := s) (i := i) hp
    rw [if_neg (by simp [hpres, hret, hhand, hhard]), if_pos hn] at refused
    exact exec_heldCommand_refused (c := .retune code) h refused
  · have accepted := State.checkCommand_retune (s := s) (i := i) hp
    rw [if_neg (by simp [hpres, hret, hhand, hhard]), if_neg (by simp [ht])] at accepted
    obtain ⟨-, low, high, phase⟩ := State.findPlace_range ht
    have placed : (s.clearSoft i).applyCommand i (.retune code) = (s.clearSoft i).reserveRetune i target :=
      State.startRetune_at hp ht
    refine ⟨_, exec_heldCommand_applied (c := .retune code) h accepted hx, ?_, fun slot f => ?_⟩
    · rw [placed, s.reserveRetune_cleared i target]
      rfl
    · rw [placed]
      exact State.giveTurnCells_cell (s.clearSoft i) i target .pending low high phase slot f

/-- Settles O20: an accepted command of a record in exchange is `State.command_held`. -/
theorem commandsAreHeldInExchange : Obligations.CommandsAreHeldInExchange := by
  intro s i h hx hf hold hh
  have held {c : HeldCommand} (hc : s.checkCommand i c = none) : exec (c.instr (byteOf i.val)) s = .next (hold c) := by
    rw [exec_heldCommand_at h, State.command_held ((s.checkCommand_clearSoft i c).trans hc) hx, hh]
    rfl
  refine ⟨held (State.checkCommand_held hf (.inl rfl)), held (State.checkCommand_held hf (.inr (.inl rfl))),
    held (State.checkCommand_held hf (.inr (.inr rfl))), fun hp => ?_, fun hp hn => ?_, fun hc => ?_,
    fun code p hp hpres hret hhand hhard hplace => ?_⟩
  · have accepted := State.checkCommand_pin hf
    have room : ¬ ((s.record i).pinned = false ∧ 8 ≤ s.roster.pinnedCount) := fun k =>
      hp.elim (fun c => by simp [c] at k) fun c => Nat.not_lt.mpr k.2 c
    rw [if_neg room] at accepted
    exact held (c := .pin) accepted
  · have refused := State.checkCommand_pin hf
    rw [if_pos ⟨hp, hn⟩] at refused
    exact exec_heldCommand_refused (c := .pin) h refused
  · have accepted := s.checkCommand_release i
    rw [if_pos hc] at accepted
    exact held (c := .release) accepted
  · have accepted := State.checkCommand_retune (s := s) (i := i) hp
    rw [if_neg (by simp [hpres, hret, hhand, hhard]), if_neg hplace] at accepted
    exact held (c := .retune code) accepted

end Sys2Proof.Machine

/-! SUMMON. -/

namespace Sys2Proof.Machine

/-! ## SUMMON (R88, R89) -/

/-- SUMMON of a record that holds the car, its soft fault cleared. -/
def State.summonFound (s : State) (i : Fin 48) : State :=
  if (s.record i).contact == .outbound || (s.record i).contact == .releasing then s.refuse .badState
  else if (s.record i).summoned then
    (if (s.record i).contact == .paging then s.enterPaging i else s).respond .done []
  else if (s.record i).contact == .present then (s.offerReason i (.summonEnded .contact)).respond .done []
  else if Config.summonLimit ≤ s.roster.summonCount then s.refuse .noRoom
  else s.summonHeld i

theorem State.summonCar_found {s : State} {car : Nat} {i : Fin 48} (h : s.lookup car = some i) :
    s.summonCar car = (s.setRecord i { s.record i with soft := none }).summonFound i := by
  rw [State.summonCar, h]
  rfl

theorem State.setRecord_modify (s : State) (i : Fin 48) (r : Record) (f : Record → Record) :
    (s.setRecord i r).modifyRecord i f = s.setRecord i (f r) := by
  rw [State.modifyRecord_eq, State.record_setRecord, State.setRecord_setRecord]

theorem State.enterPaging_set (s : State) (i : Fin 48) (r : Record) :
    (s.setRecord i r).enterPaging i = s.setRecord i { r with contact := .paging, pageCount := s.params.pageLimit } :=
  s.setRecord_modify i r fun r => { r with contact := .paging, pageCount := s.params.pageLimit }

/-- One more summons in the roster's count. -/
def State.oneSummonMore (s : State) : State :=
  { s with roster := { s.roster with summonCount := s.roster.summonCount + 1 } }

theorem State.attachSummon_set (s : State) (i : Fin 48) (r : Record) :
    (s.setRecord i r).attachSummon i = s.oneSummonMore.setRecord i { r with summoned := true } :=
  s.oneSummonMore.setRecord_modify i r fun r => { r with summoned := true }

theorem State.summonHeld_set (s : State) (i : Fin 48) (r : Record) :
    (s.setRecord i r).summonHeld i = (s.oneSummonMore.setRecord i
      (if r.contact = .granted then { r with summoned := true }
        else { r with summoned := true, contact := .paging, pageCount := s.params.pageLimit })).respond .done [] := by
  rw [State.summonHeld, State.attachSummon_set, State.record_setRecord]
  by_cases h : r.contact = .granted
  · simp only [h, beq_self_eq_true, if_true]
  · rw [if_neg (by simpa using h), if_neg h]
    exact congrArg (fun t : State => t.respond .done []) (s.oneSummonMore.enterPaging_set i { r with summoned := true })

theorem exec_summon {s : State} (h : s.takesRequests = true) (hi lo : Byte) :
    exec (.summon [hi, lo]) s =
      .next (if isCarId (wordOf hi lo) then s.summonCar (wordOf hi lo) else s.refuse .badValue) :=
  exec_taken (c := .summon [hi, lo]) rfl (by decide) rfl h

/-- Settles O21: the rows of the table of R88 in their order, each one branch of `State.summonFound`. -/
theorem summonFollowsItsTable : Obligations.SummonFollowsItsTable := by
  intro s hi lo car h hcar
  have word : wordOf hi lo = car := hcar.symm
  refine ⟨fun hv => ?_, fun h1 h2 => ⟨fun i r hl hr => ?_, fun hl => ⟨fun hn => ?_, fun i hn ha => ?_⟩⟩⟩
  · have range : isCarId car = false := by
      rw [isCarId, Bool.and_eq_false_iff, decide_eq_false_iff_not, decide_eq_false_iff_not]
      omega
    rw [exec_summon h, word, range]
    rfl
  all_goals
    have range : isCarId car = true := by simp [isCarId, h1, h2]
    rw [exec_summon h, word, range, if_pos rfl]
  · rw [State.summonCar_found hl, ← hr, State.summonFound, State.record_setRecord]
    refine ⟨fun hc => ?_, fun ho hrel hs => ?_, fun hc hs => ?_, fun hc hs => ⟨fun hn => ?_, fun hn => ?_⟩⟩
    · rw [if_pos (by simpa using hc)]
    · rw [if_neg (by simp [ho, hrel]), if_pos hs]
      by_cases hp : r.contact = .paging
      · simp [hp, State.enterPaging_set]
      · simp [hp]
    · simp [hc, hs]
    all_goals
      have other : ¬ (r.contact == .outbound || r.contact == .releasing) = true := by
        rcases hc with e | e | e <;> simp [e]
      have present : ¬ (r.contact == .present) = true := by
        rcases hc with e | e | e <;> simp [e]
      rw [if_neg other, if_neg (by simp [hs]), if_neg present]
    · exact congrArg _ (if_pos hn)
    · have room : ¬ Config.summonLimit ≤ (s.setRecord i r).roster.summonCount := Nat.not_le.mpr hn
      rw [if_neg room, State.summonHeld_set]
      rfl
  · rw [State.summonCar, hl]
    rcases hn with hn | hn
    · exact congrArg _ (if_pos hn)
    · simp only [State.summonNew, hn, ite_self]
  · have room : ¬ Config.summonLimit ≤ s.roster.summonCount := Nat.not_le.mpr hn
    rw [State.summonCar, hl]
    simp only [room, if_false, State.summonNew, ha, State.enterPaging_set, State.attachSummon_set]
    rfl

end Sys2Proof.Machine

/-! POST. -/

namespace Sys2Proof.Machine

/-! ## Messages placed (R104 to R106) -/

theorem State.freeBuffer_isSome_iff (s : State) : s.freeBuffer.isSome = true ↔ ∃ b : Fin 64, s.pool[b] = none := by
  simp [State.freeBuffer, List.find?_isSome]

/-- A free buffer taken is one free buffer fewer. -/
theorem State.freeBuffers_take {s t : State} {b : Fin 64} {m : Message} (hb : s.pool[b] = none)
    (ht : t.pool = s.pool.set b (some m)) : t.freeBuffers = s.freeBuffers - 1 := by
  rw [State.freeBuffers, ht, Vector.toList_set, List.countP_set (by simp)]
  simp [State.freeBuffers, show s.pool[b.val] = none from hb]

theorem State.hasRoom_free {s : State} {i : Fin 48} (h : s.hasRoom i = true) : ∃ b, s.freeBuffer = some b :=
  Option.ne_none_iff_exists'.mp (State.hasRoom_iff.mp h).2

theorem State.hasRoom_of_free {s : State} {i : Fin 48} (h : (s.record i).messages.length < s.params.recordLimit)
    (hb : ∃ b : Fin 64, s.pool[b] = none) : s.hasRoom i = true :=
  State.hasRoom_iff.mpr ⟨h, Option.isSome_iff_ne_none.mp (s.freeBuffer_isSome_iff.mpr hb)⟩

theorem State.not_hasRoom {s : State} {i : Fin 48}
    (h : s.params.recordLimit ≤ (s.record i).messages.length ∨ ∀ b : Fin 64, s.pool[b] ≠ none) : s.hasRoom i = false := by
  refine eq_false_of_ne_true fun e => ?_
  obtain ⟨room, free⟩ := State.hasRoom_iff.mp e
  obtain ⟨b, hb⟩ := s.freeBuffer_isSome_iff.mp (Option.isSome_iff_ne_none.mpr free)
  exact h.elim (Nat.not_le.mpr room) fun k => k b hb

/-- `t` is `s` with a posted message at the end of its target's list, in a buffer that was free. -/
structure State.posted (s t : State) (m : Message) (b : Fin 64) : Prop where
  free : s.pool[b] = none
  pool : t.pool = s.pool.set b (some m)
  rest : t = { (s.setRecord m.target { s.record m.target with messages := (s.record m.target).messages ++ [b] }) with
               pool := t.pool, conditions := t.conditions }
  reported : s.classReported t .poolLow (decide (s.freeBuffers - 1 < s.params.poolLow))
  classes : s.onlyClasses t [.poolLow]

theorem State.placeMessage_posted {s : State} {m : Message} (h : s.hasRoom m.target = true) (hm : m.placement = .posted) :
    ∃ b, s.posted (s.placeMessage m) m b := by
  obtain ⟨b, hb⟩ := State.hasRoom_free h
  have free := State.freeBuffer_free hb
  obtain ⟨u, hu⟩ : ∃ u, u = ({ (s.setRecord m.target { s.record m.target with messages := (s.record m.target).messages ++ [b] }) with
    pool := s.pool.set b (some m) } : State) := ⟨_, rfl⟩
  have placed : s.placeMessage m = u.reportPool := by
    rw [State.placeMessage, hb, hm, hu]
    rfl
  have buffers : u.freeBuffers = s.freeBuffers - 1 := State.freeBuffers_take free (by rw [hu])
  have reported := u.reportCause_reported .poolLow (decide (u.freeBuffers < u.params.poolLow))
  rw [buffers] at reported
  refine ⟨b, free, ?_, ?_, ?_, ?_⟩
  · rw [placed, State.reportPool_pool, hu]
  · rw [placed, hu]
    rfl
  · rw [placed, State.reportPool, buffers]
    rw [hu] at reported ⊢
    exact reported
  · rw [placed, State.reportPool, hu]
    exact State.onlyClasses_reportCause _ .poolLow _

theorem Urgency.ofCode_high {n : Nat} (h : 1 < n) : Urgency.ofCode n = none := by
  unfold Urgency.ofCode
  split
  case h_3 => rfl
  all_goals omega

theorem exec_post_at {s : State} (h : s.takesRequests = true) {n : Byte} {body : List Byte} (hn : body.length = n.toNat)
    (i : Fin 48) (u : Byte) :
    exec (.post (byteOf i.val :: u :: n :: body)) s =
      .next ((s.setRecord i { s.record i with soft := none }).postTo i u body) := by
  rw [exec_post h hn, recordIndex_byteOf]
  rfl

theorem ContactState.acceptsPosts_iff (c : ContactState) :
    c.acceptsPosts = true ↔ c = .granted ∨ c = .present ∨ c = .paging ∨ c = .dormant := by
  cases c <;> simp [ContactState.acceptsPosts]

/-- Settles O22: the checks of `State.postTo` in their order, and the placement of `State.placeMessage_posted`. -/
theorem postFollowsItsTable : Obligations.PostFollowsItsTable := by
  intro s i u n body h hn
  rw [exec_post_at h hn]
  obtain ⟨s', hs'⟩ : ∃ s', s' = s.setRecord i { s.record i with soft := none } := ⟨_, rfl⟩
  have own : s'.record i = { s.record i with soft := none } := by rw [hs', State.record_setRecord]
  rw [← hs']
  refine ⟨fun hv => ?_, fun urgency hu h1 h2 => ?_⟩
  · rcases Nat.lt_or_ge 1 u.toNat with hu | hu
    · rw [State.postTo, Urgency.ofCode_high hu]
    · have bad : isBody body = false := by
        rw [isBody, Bool.and_eq_false_iff, decide_eq_false_iff_not, decide_eq_false_iff_not, Config.bodyLimit]
        omega
      rw [State.postTo, bad]
      cases Urgency.ofCode u.toNat <;> rfl
  · have good : isBody body = true := by simp [isBody, h1, h2, Config.bodyLimit]
    have post : s'.postTo i u body =
        if !(s.record i).contact.acceptsPosts then s'.refuse .badState
        else if !s'.hasRoom i then s'.refuse .noRoom
        else (s'.placeMessage { target := i, urgency := urgency, source := .host, receipt := false, attempts := 0,
                                body := body, placement := .posted }).respond .done
          [byteOf ((s'.placeMessage { target := i, urgency := urgency, source := .host, receipt := false, attempts := 0,
                                      body := body, placement := .posted }).record i).messages.length] := by
      rw [State.postTo, hu, good, own]
      rfl
    rw [post]
    refine ⟨fun hc => ?_, fun hc => ⟨fun hr => ?_, fun hr hb => ?_⟩⟩
    · have refused : (s.record i).contact.acceptsPosts = false := by
        rcases hc with e | e | e <;> rw [e] <;> rfl
      rw [refused]
      rfl
    all_goals
      rw [((s.record i).contact.acceptsPosts_iff).mpr hc]
    · have full : s'.hasRoom i = false := State.not_hasRoom (by rw [own, hs']; exact hr)
      rw [full]
      rfl
    · have room : s'.hasRoom i = true := State.hasRoom_of_free (by rw [own, hs']; exact hr) (by rw [hs']; exact hb)
      rw [room]
      obtain ⟨b, free, pool, rest, reported, classes⟩ := State.placeMessage_posted (s := s')
        (m := { target := i, urgency := urgency, source := .host, receipt := false, attempts := 0, body := body,
                placement := .posted }) room rfl
      generalize s'.placeMessage _ = t at *
      have listed : (t.record i).messages = (s.record i).messages ++ [b] := by
        have list := congrArg Record.messages (State.record_setRecord s' i
          { s'.record i with messages := (s'.record i).messages ++ [b] })
        rw [rest]
        exact list.trans (by rw [own])
      refine ⟨_, b, rfl, by rw [hs'] at free; exact free, by rw [hs'] at pool; exact pool, ?_, by rw [hs'] at reported; exact reported,
        by rw [hs'] at classes; exact classes⟩
      rw [listed, List.length_append, List.length_singleton]
      rw [own, hs', State.setRecord_setRecord] at rest
      exact congrArg (fun w : State => w.respond .done [byteOf ((s.record i).messages.length + 1)]) rest

end Sys2Proof.Machine

/-! SWEEP_START. -/

namespace Sys2Proof.Machine

/-! ## Sweeps (R156 to R164) -/

theorem State.endIfAccounted_empty {s : State} (h : s.sweepInProgress = true) (hm : s.markedList = []) :
    s.endIfAccounted = s.endSweep .allAccounted := by
  rw [State.endIfAccounted, h, hm]
  rfl

theorem State.endIfAccounted_marked {s : State} (hm : s.markedList ≠ []) : s.endIfAccounted = s := by
  rw [State.endIfAccounted]
  exact if_neg (by simp [hm])

theorem startMark_eq (first last i : Nat) (c : ContactState) :
    startMark first last i c = if first ≤ i ∧ i ≤ last ∧ c ≠ .free ∧ c ≠ .outbound then .marked else .none := by
  cases c <;> simp [startMark, ContactState.swept]

theorem State.markedList_of_roster {s t : State} (h : t.roster = s.roster) : t.markedList = s.markedList := by
  simp only [State.markedList, State.record_congr h]

theorem State.sweepBegun_frame (s : State) (first last deadline : Nat) (closeEntry : Bool) :
    let u := s.sweepBegun first last deadline closeEntry
    u.sweep = { Sweep.reset with state := .running, first := first, last := last, deadline := deadline,
                                 closeEntry := closeEntry, marked := u.markedList.length } ∧
      u.host.sweepEnded = false ∧
      u = { s with roster := { s.roster with records := u.roster.records }, sweep := u.sweep,
                   host := { s.host with sweepEnded := u.host.sweepEnded } } := by
  refine ⟨?_, rfl, ?_⟩
  · have same : (s.sweepBegun first last deadline closeEntry).markedList = (s.markRange first last).markedList :=
      State.markedList_of_roster rfl
    rw [same, State.sweepBegun]
  · simp only [State.sweepBegun, State.markRange]

theorem exec_sweepStart {s : State} (h : s.takesRequests = true) (first last deadline close : Byte) :
    exec (.sweepStart [first, last, deadline, close]) s = .next
      (if !sweepInRange first.toNat last.toNat deadline.toNat close.toNat then s.refuse .badValue
       else if s.sweepInProgress then s.refuse .busy
       else (s.startSweep first.toNat last.toNat deadline.toNat (close.toNat == 1)).respond .done []) :=
  exec_taken (c := .sweepStart [first, last, deadline, close]) rfl (by decide) rfl h

theorem sweepInRange_iff {first last deadline close : Nat} : sweepInRange first last deadline close = true ↔
    first ≤ last ∧ last ≤ 47 ∧ 1 ≤ deadline ∧ deadline ≤ 64 ∧ close ≤ 1 := by
  simp [sweepInRange, and_assoc]

/-- Settles O24: the marks are those of `startMark`, and an empty sweep ends through `State.endIfAccounted`. -/
theorem sweepStartMarksTheRange : Obligations.SweepStartMarksTheRange := by
  intro s first last deadline close h
  rw [exec_sweepStart h]
  refine ⟨fun hv => ?_, fun hv => ⟨fun hs => ?_, fun hs => ?_⟩⟩
  · rw [eq_false_of_ne_true (mt sweepInRange_iff.mp hv)]
    rfl
  all_goals rw [sweepInRange_iff.mpr hv]
  · have busy : s.sweepInProgress = true := by
      rcases hs with e | e <;> simp [State.sweepInProgress, e]
    rw [busy]
    rfl
  · have ready : s.sweepInProgress = false := by
      rcases hs with e | e <;> simp [State.sweepInProgress, e]
    rw [ready]
    obtain ⟨u, hu⟩ : ∃ u, u = s.sweepBegun first.toNat last.toNat deadline.toNat (close.toNat == 1) := ⟨_, rfl⟩
    have started : s.startSweep first.toNat last.toNat deadline.toNat (close.toNat == 1) = u.endIfAccounted := by
      rw [hu, State.startSweep_eq]
    obtain ⟨sweep, ended, rest⟩ := s.sweepBegun_frame first.toNat last.toNat deadline.toNat (close.toNat == 1)
    rw [← hu] at sweep ended rest
    have marks (i : Fin 48) : u.record i =
        { s.record i with
          mark := if first.toNat ≤ i.val ∧ i.val ≤ last.toNat ∧ (s.record i).contact ≠ .free
              ∧ (s.record i).contact ≠ .outbound then .marked else .none } := by
      rw [hu, State.sweepBegun_record, startMark_eq]
    have running : u.sweepInProgress = true := by simp [State.sweepInProgress, sweep]
    have count : u.sweep.marked = u.markedList.length := by rw [sweep]
    have number : u.markedList.length = (allRecords.filter fun i => (u.record i).mark == .marked).length := List.length_map _
    rw [started]
    by_cases empty : u.markedList = []
    · rw [State.endIfAccounted_empty running empty]
      have none : u.sweep.marked = 0 := by rw [count, empty]; rfl
      refine ⟨(u.endSweep .allAccounted).respond .done [], rfl, marks, congrArg Sweep.first sweep, congrArg Sweep.last sweep,
        congrArg Sweep.answered sweep, congrArg Sweep.left sweep, congrArg Sweep.entered sweep, congrArg Sweep.used sweep, rfl,
        count.trans number, fun _ => ⟨rfl, rfl, ?_⟩, fun k => absurd none k, ?_⟩
      · rw [State.respond_sweep, State.endSweep, empty, sweep, empty]
        rfl
      · exact congrArg (fun w : State => ({ w with
          sweep := (u.endSweep .allAccounted).sweep, host := { w.host with sweepEnded := true } } : State).respond .done []) rest
    · rw [State.endIfAccounted_marked empty]
      have some : u.sweep.marked ≠ 0 := by
        rw [count]
        exact fun k => empty (List.length_eq_zero_iff.mp k)
      refine ⟨u.respond .done [], rfl, marks, congrArg Sweep.first sweep, congrArg Sweep.last sweep,
        congrArg Sweep.answered sweep, congrArg Sweep.left sweep, congrArg Sweep.entered sweep, congrArg Sweep.used sweep,
        congrArg Sweep.haltPending sweep, count.trans number, fun k => absurd k some, fun _ => ⟨congrArg Sweep.state sweep,
          congrArg Sweep.deadline sweep, congrArg Sweep.closeEntry sweep, ended, congrArg Sweep.result sweep⟩, ?_⟩
      exact congrArg (fun w : State => w.respond .done []) rest

end Sys2Proof.Machine

/-! The start of slot 0. -/

namespace Sys2Proof.Machine

/-! ## The start of a slot (R4, R6, R13, R15) -/

/-- The air of a slot just begun at LEAD and sampled, its down frame not yet chosen. -/
theorem State.sampleReady_sampled {s u : State} (ready : Bool) (work : u.air.work = some .lead) (up : u.air.up = none)
    (dark : u.air.darkCount = s.air.darkCount) (params : u.params = s.params) (conditions : u.conditions = s.conditions) :
    s.slotSampled (u.sampleReady ready) ready := by
  have count : (u.sampleReady ready).air.darkCount =
      if ready then 0 else if s.air.darkCount < 255 then s.air.darkCount + 1 else s.air.darkCount := by
    rw [← dark]
    rfl
  obtain ⟨w, hw⟩ : ∃ w : State, w = { u with
    rfReady := ready,
    air := { u.air with light := if ready then .ready else .darkFromStart,
                        darkCount := if ready then 0 else satAdd 255 u.air.darkCount } } := ⟨_, rfl⟩
  have sampled : u.sampleReady ready = w.reportCause .airDark (decide (w.params.darkLimit ≤ w.air.darkCount)) := by
    rw [hw]
    rfl
  have flags (c : ConditionClass) : w.classFlags c = s.classFlags c := State.classFlags_congr (by rw [hw]; exact conditions) c
  have reported := w.reportCause_reported .airDark (decide (w.params.darkLimit ≤ w.air.darkCount))
  have classes := w.onlyClasses_reportCause .airDark (decide (w.params.darkLimit ≤ w.air.darkCount))
  rw [← sampled] at reported classes
  have limit : w.params.darkLimit = s.params.darkLimit := by rw [hw, ← params]
  have here : w.air.darkCount = (u.sampleReady ready).air.darkCount := by rw [hw]; rfl
  refine ⟨work, up, rfl, rfl, count, ?_, ?_⟩
  · simp only [State.classReported, flags, limit, here] at reported
    exact reported
  · exact fun c hc => (classes c hc).trans (flags c)

theorem State.slotSampled.congr {s t t' : State} {ready : Bool} (h : s.slotSampled t ready) (work : t'.air.work = t.air.work)
    (up : t'.air.up = t.air.up) (light : t'.air.light = t.air.light) (dark : t'.air.darkCount = t.air.darkCount)
    (rf : t'.rfReady = t.rfReady) (conditions : t'.conditions = t.conditions) : s.slotSampled t' ready := by
  simp only [State.slotSampled, State.classReported, State.onlyClasses, State.classFlags_congr conditions, work, up, light, dark,
    rf]
  exact h

/-! ## The cycle start (R4, R8, R17, R62, R83, R161) -/

/-- The cycle of a sweep is counted by the Sweep Unit alone. -/
theorem State.countSweepCycle_beside {s u : State} (sweep : u.sweep = s.sweep) (host : u.host = s.host)
    (roster : u.roster = s.roster) :
    u.countSweepCycle = { u with sweep := s.countSweepCycle.sweep, host := s.countSweepCycle.host } := by
  have marked : u.markedList = s.markedList := State.markedList_of_roster roster
  unfold State.countSweepCycle
  rw [sweep]
  by_cases running : (s.sweep.state == .running) = true
  · rw [if_pos running, if_pos running]
    by_cases more : s.sweep.used < s.sweep.deadline
    · rw [if_pos more, if_pos more, ← host]
    · rw [if_neg more, if_neg more, State.endSweep, State.endSweep, marked, sweep, host]
  · rw [if_neg running, if_neg running, ← sweep, ← host]

theorem CellHolding.aged_eq (h : CellHolding) : h.aged = if h.role = .waiting then { h with role := .turn } else h := by
  obtain ⟨holder, role⟩ := h
  cases role <;> rfl

theorem State.decideEntry_iff (s : State) : s.decideEntry = true ↔ s.params.entryEnable = true ∧
    (∀ c, (s.classFlags c).active = true → s.params.actionOf c ≠ .closeEntry) ∧
    ¬ (s.sweep.state = .running ∧ s.sweep.closeEntry = true) := by
  simp [State.decideEntry, State.entryClosedByCondition, State.entryClosedBySweep, ConditionClass.mem_all, and_assoc, imp_iff_not_or]

/-- The order from the index above one on, wrapping to it. -/
theorem rotationFrom_eq : ∀ i : Fin 48, rotationFrom i = (List.finRange 48).map fun n => i + 1 + n := by
  decide

/-- The state in which a slot begins: at LEAD, with nothing in the air. -/
def Air.atLead (a : Air) (slot : Fin 32) : Air :=
  { a with slot := some slot, work := some .lead, down := none, up := none, exchange := none }

theorem State.startCycle_eq (s : State) :
    (s.beginSlot 0).startCycle = { s with
      air := { s.air.atLead 0 with cycle := s.air.cycle + 1 }, cells := s.cells.map fun c => c.map CellHolding.aged,
      sweep := s.countSweepCycle.sweep, host := s.countSweepCycle.host } := by
  have beside := State.countSweepCycle_beside (s := s)
    (u := ({ s.beginSlot 0 with air := { s.air.atLead 0 with cycle := s.air.cycle + 1 } } : State).ageCells) rfl rfl rfl
  exact beside

theorem State.pageList_eq (s : State) :
    s.pageList = ((((List.finRange 48).map fun n => s.roster.pagePointer + 1 + n).filter fun i =>
      (s.record i).contact == .paging && decide (0 < (s.record i).pageCount)).take 4).map
        fun i => { record := i, carId := (s.record i).carId } := by
  rw [State.pageList, rotationFrom_eq]

/-- Slot 0 begun from a state at the start of a cycle: the sample, the decision and the BEACON. -/
theorem State.startSlot_zero (s : State) (ready : Bool) :
    s.startSlot 0 ready =
      (let p := ((s.beginSlot 0).startCycle.sampleReady ready).prepareBeacon
       { p with air := { p.air with down := if ready then p.air.beacon.map .beacon else p.air.down } }) := by
  cases ready <;> rfl

theorem State.startSlot_zero_begun (s : State) (ready : Bool) :
    ∃ b, s.cycleBegun (s.startSlot 0 ready) ready b ∧ (s.startSlot 0 ready).pool = s.pool ∧
      (s.startSlot 0 ready).ports = s.ports ∧ (s.startSlot 0 ready).inbound = s.inbound ∧
      (s.startSlot 0 ready).params = s.params ∧ (s.startSlot 0 ready).air.state = s.air.state := by
  obtain ⟨c, hc⟩ : ∃ c, c = (s.beginSlot 0).startCycle := ⟨_, rfl⟩
  obtain ⟨v, hv⟩ : ∃ v, v = c.sampleReady ready := ⟨_, rfl⟩
  obtain ⟨w, hw⟩ : ∃ w : State, w = { v with
    air := { v.air with entryOpen := v.decideEntry }, roster := { v.roster with passedOver := [] } } := ⟨_, rfl⟩
  obtain ⟨b, hb⟩ : ∃ b, b = w.buildBeacon := ⟨_, rfl⟩
  have started : s.startSlot 0 ready = { w with
      air := { w.air with beacon := some b, down := if ready then some (.beacon b) else v.air.down } } := by
    rw [State.startSlot_zero, ← hc, ← hv, hb, hw]
    rfl
  have air : c.air = { s.air.atLead 0 with cycle := s.air.cycle + 1 } := by rw [hc, State.startCycle_eq]
  have cells : c.cells = s.cells.map fun x => x.map CellHolding.aged := by rw [hc, State.startCycle_eq]
  have sweep : c.sweep = s.countSweepCycle.sweep := by rw [hc, State.startCycle_eq]
  have host : c.host = s.countSweepCycle.host := by rw [hc, State.startCycle_eq]
  have roster : c.roster = s.roster := by rw [hc, State.startCycle_eq]
  have rest : c.params = s.params ∧ c.conditions = s.conditions ∧ c.pool = s.pool ∧ c.ports = s.ports ∧ c.inbound = s.inbound := by
    rw [hc, State.startCycle_eq]
    exact ⟨rfl, rfl, rfl, rfl, rfl⟩
  obtain ⟨params, conditions, pool, ports, inbound⟩ := rest
  have sampled : s.slotSampled v ready := by
    rw [hv]
    exact State.sampleReady_sampled ready (by rw [air]; rfl) (by rw [air]; rfl) (by rw [air]; rfl) params conditions
  have vframe : v.cells = c.cells ∧ v.sweep = c.sweep ∧ v.host = c.host ∧ v.roster = c.roster ∧ v.params = c.params ∧
      v.pool = c.pool ∧ v.ports = c.ports ∧ v.inbound = c.inbound ∧
      v.air = { c.air with light := v.air.light, darkCount := v.air.darkCount } := by
    rw [hv]
    exact ⟨rfl, rfl, rfl, rfl, rfl, rfl, rfl, rfl, rfl⟩
  obtain ⟨vcells, vsweep, vhost, vroster, vparams, vpool, vports, vinbound, vair⟩ := vframe
  have wroster : w.roster = { s.roster with passedOver := [] } := by rw [hw, ← roster, ← vroster]
  have wsweep : w.sweep = s.countSweepCycle.sweep := by rw [hw]; exact vsweep.trans sweep
  have wcycle : w.air.cycle = s.air.cycle + 1 := by rw [hw]; exact (congrArg Air.cycle (vair.trans (by rw [air]))).trans rfl
  have wparams : w.params = s.params := by rw [hw]; exact vparams.trans params
  have records (i : Fin 48) : w.record i = s.record i := by rw [State.record, State.record, wroster]
  have wgrants : w.air.grants = s.air.grants := by
    rw [hw]
    exact (congrArg Air.grants vair).trans (by rw [air]; rfl)
  have decision := v.decideEntry_iff
  rw [vparams.trans params, vsweep] at decision
  have silent : v.air.down = none := (congrArg Air.down vair).trans (by rw [air]; rfl)
  have beaconGrant : w.beaconGrant = s.beaconGrant := by
    funext i
    simp only [State.beaconGrant, records]
  have pages : b.pages = ((((List.finRange 48).map fun n => s.roster.pagePointer + 1 + n).filter fun i =>
        (s.record i).contact == .paging && decide (0 < (s.record i).pageCount)).take 4).map
          (fun i => { record := i, carId := (s.record i).carId }) := by
    rw [hb]
    refine w.pageList_eq.trans ?_
    simp only [records, wroster]
  rw [started]
  refine ⟨b, ⟨?_, wcycle, ?_, ?_, fun k => ?_, wsweep, ?_, ?_, rfl, ?_, ?_, ?_, ?_, ?_, ?_, ?_, pages, wroster, wgrants, ?_⟩,
    ?_, ?_, ?_, wparams, ?_⟩
  · rw [hw]
    exact (congrArg Air.slot vair).trans (by rw [air]; rfl)
  · rw [hw]
    exact (congrArg Air.exchange vair).trans (by rw [air]; rfl)
  · rw [hw]
    exact sampled
  · have at_k : w.cells[k] = s.cells[k].map CellHolding.aged := by
      rw [hw]
      refine (congrArg (fun x : Cells => x[k]) (vcells.trans cells)).trans ?_
      exact Vector.getElem_map ..
    rw [funext CellHolding.aged_eq] at at_k
    exact at_k
  · rw [hw]
    exact vhost.trans host
  · rw [hw]
    rw [← vsweep] at decision
    exact decision
  · rw [silent]
  · rw [hb]
    exact congrArg Params.station wparams
  · rw [hb]
    exact wcycle
  · rw [hb]
    rfl
  · rw [hb]
    simp [State.buildBeacon, State.sweepInProgress]
  · rw [hb, State.buildBeacon, wgrants, beaconGrant]
  · rw [pages, List.length_map]
    exact List.length_take_le _ _
  · rw [hw]
    exact (congrArg Air.garbledRun vair).trans (by rw [air]; rfl)
  · rw [hw]
    exact vpool.trans pool
  · rw [hw]
    exact vports.trans ports
  · rw [hw]
    exact vinbound.trans inbound
  · rw [hw]
    exact (congrArg Air.state vair).trans (by rw [air]; rfl)

/-- Settles O28: slot 31 that has ended is followed by slot 0. -/
theorem slotZeroBuildsTheBeacon : Obligations.SlotZeroBuildsTheBeacon := by
  intro s ready hr hs hw
  obtain ⟨b, begun, pool, ports, inbound, params, -⟩ := s.startSlot_zero_begun ready
  refine ⟨s.startSlot 0 ready, b, ?_, begun, pool, ports, inbound, params⟩
  rw [exec_released rfl (by simp) (by simp) hr]
  simp only [effect, State.slotStart, hs, hw]
  rfl

theorem State.cycleBegun.of_air {s t : State} {ready : Bool} {b : Beacon} {a : AirState}
    (h : ({ s with air := { s.air with state := a } } : State).cycleBegun t ready b) : s.cycleBegun t ready b := by
  have counted := State.countSweepCycle_beside (s := s) (u := { s with air := { s.air with state := a } }) rfl rfl rfl
  rw [State.cycleBegun, counted] at h
  exact h

/-- Settles O26: an accepted OPEN_AIR starts slot 0 through `State.startSlot_zero_begun`. -/
theorem openingAndClosingTheAir : Obligations.OpeningAndClosingTheAir := by
  intro s ready h
  have opening : exec (.openAir [] ready) s = .next (s.openAir ready) := exec_taken (c := .openAir [] ready) rfl (by decide) rfl h
  have closing : exec (.closeAir []) s = .next s.closeAir := exec_taken (c := .closeAir []) rfl (by decide) rfl h
  rw [opening, closing]
  refine ⟨fun hc hn => ?_, fun hc hn => ?_, fun hc => ?_, fun hc => ?_, fun hc => ?_⟩
  · simp [State.openAir, hc, hn]
  · obtain ⟨b, begun, pool, ports, inbound, params, state⟩ :=
      ({ s with air := { s.air with state := .opened } } : State).startSlot_zero_begun ready
    have opened : s.openAir ready =
        (({ s with air := { s.air with state := .opened } } : State).startSlot 0 ready).respond .done [] := by
      simp [State.openAir, hc, hn]
    rw [opened]
    generalize ({ s with air := { s.air with state := .opened } } : State).startSlot 0 ready = t at *
    exact ⟨t.respond .done [], b, rfl, state, begun.of_air, pool, ports, inbound, params, rfl⟩
  · rcases hc with e | e <;> simp [State.openAir, e]
  · simp [State.closeAir, hc]
  · cases e : s.air.state with
    | closed => simp [State.closeAir, e]
    | opened => exact absurd e hc
    | closing => simp [State.closeAir, e]

end Sys2Proof.Machine

/-! The start of the other slots. -/

namespace Sys2Proof.Machine

/-! ## The down frame of a slot (R7, R9, R10, R108) -/

theorem State.startForPoll_frame (s : State) (i : Fin 48) :
    s.startForPoll i = { s with roster := (s.startForPoll i).roster } := by
  unfold State.startForPoll State.startMessage
  (repeat' split) <;> rfl

/-- The choice of a down frame changes the frame, the exchange and, by a message started, the roster. -/
theorem State.chooseDown_frame (s : State) (slot : Nat) :
    s.chooseDown slot = { s with
      roster := (s.chooseDown slot).roster,
      air := { s.air with down := (s.chooseDown slot).air.down, exchange := (s.chooseDown slot).air.exchange } } := by
  have poll (h : CellHolding) : s.beginPoll h = { s with
      roster := (s.beginPoll h).roster,
      air := { s.air with down := (s.beginPoll h).air.down, exchange := (s.beginPoll h).air.exchange } } := by
    rw [State.beginPoll, s.startForPoll_frame]
  unfold State.chooseDown
  (repeat' split)
  · rfl
  · rfl
  · rfl
  · exact poll _
  · rfl

/-- The start of a slot that is not slot 0. -/
theorem State.startSlot_later (s : State) {slot : Fin 32} (h : slot.val ≠ 0) (ready : Bool) :
    s.startSlot slot ready =
      if ready then ((s.beginSlot slot).sampleReady ready).chooseDown slot.val else (s.beginSlot slot).sampleReady ready := by
  simp only [State.startSlot, h, if_false]

theorem exec_slotStart {s : State} {k : Fin 32} (hr : s.resetHeld = false) (hs : s.air.slot = some k) (hw : s.air.work = none)
    (ready : Bool) : exec (.slotStart ready) s = .next (s.startSlot (k + 1) ready) := by
  rw [exec_released rfl (by simp) (by simp) hr]
  simp only [effect, State.slotStart, hs, hw]
  rfl

theorem Fin.succ_val_of_ne {k : Fin 32} (h : k ≠ 31) : (k + 1).val = k.val + 1 := by
  have : k.val ≠ 31 := fun e => h (Fin.ext e)
  omega

/-- A slot that is not slot 0, begun: the sample, and what the slot before it leaves. -/
theorem State.startSlot_later_begun (s : State) {slot : Fin 32} (h : slot.val ≠ 0) (ready : Bool) :
    let t := s.startSlot slot ready
    t.air.slot = some slot ∧ s.slotSampled t ready ∧ t.air.state = s.air.state ∧
      (ready = false → t.air.down = none ∧ t.air.exchange = none ∧ t.roster = s.roster) ∧
      t.air.cycle = s.air.cycle ∧ t.cells = s.cells ∧ t.sweep = s.sweep ∧ t.air.entryOpen = s.air.entryOpen ∧
      t.pool = s.pool ∧ t.ports = s.ports ∧ t.inbound = s.inbound ∧ t.params = s.params ∧ t.response = s.response := by
  obtain ⟨v, hv⟩ : ∃ v, v = (s.beginSlot slot).sampleReady ready := ⟨_, rfl⟩
  have sampled : s.slotSampled v ready := by
    rw [hv]
    exact State.sampleReady_sampled ready rfl rfl rfl rfl rfl
  intro t
  cases ready with
  | false =>
      have started : t = v := by rw [hv]; exact s.startSlot_later h false
      rw [started, hv] at *
      exact ⟨rfl, sampled, rfl, fun _ => ⟨rfl, rfl, rfl⟩, rfl, rfl, rfl, rfl, rfl, rfl, rfl, rfl, rfl⟩
  | true =>
      have started : t = v.chooseDown slot.val := by rw [hv]; exact s.startSlot_later h true
      have frame := v.chooseDown_frame slot.val
      rw [← started] at frame
      generalize t.roster = r at frame
      generalize t.air.down = d at frame
      generalize t.air.exchange = x at frame
      rw [frame, hv] at *
      exact ⟨rfl, sampled, rfl, nofun, rfl, rfl, rfl, rfl, rfl, rfl, rfl, rfl, rfl⟩

/-- Settles O27: slot 0 by `State.startSlot_zero_begun`, every other slot by `State.startSlot_later_begun`. -/
theorem slotStartSamplesReady : Obligations.SlotStartSamplesReady := by
  refine ⟨fun s k ready hr hs hw => ⟨_, exec_slotStart hr hs hw ready, ?_⟩, fun s k hr hs hw hk => ⟨_, exec_slotStart hr hs hw true, ?_⟩⟩
  · by_cases e : k = 31
    · subst e
      obtain ⟨b, ⟨slot, cycle, exchange, sampled, -, -, -, -, -, down, -, -, -, -, -, -, -, roster, -⟩, pool, ports, inbound, params,
        state⟩ := s.startSlot_zero_begun ready
      have response := State.response_of_calm (s.startSlot_calm 0 ready)
      refine ⟨slot, sampled, state, fun dark => ⟨?_, exchange, roster⟩, cycle, fun ne => absurd rfl ne, pool, ports, inbound, params,
        response⟩
      subst dark
      exact down
    · have later := s.startSlot_later_begun (slot := k + 1) (by rw [Fin.succ_val_of_ne e]; omega) ready
      obtain ⟨slot, sampled, state, dark, cycle, cells, sweep, entry, rest⟩ := later
      exact ⟨slot, sampled, state, by rw [if_neg e]; exact dark, by rw [if_neg e]; exact cycle, fun _ => ⟨cells, sweep, entry⟩, rest⟩
  · have next : (k + 1).val = k.val + 1 := Fin.succ_val_of_ne (by rintro rfl; exact absurd hk (by decide))
    rw [State.startSlot_later _ (by omega), if_pos rfl, State.chooseDown, if_neg (by omega), if_pos (by omega), next]
    have kept : ((s.beginSlot (k + 1)).sampleReady true).air.entryOpen = s.air.entryOpen := rfl
    rw [kept]
    cases s.air.entryOpen with
    | false => exact ⟨rfl, rfl, rfl⟩
    | true => exact ⟨rfl, rfl, rfl⟩

end Sys2Proof.Machine

/-! The POLL of a turn slot. -/

namespace Sys2Proof.Machine

/-! ## The message that a POLL starts (R105, R108, R109) -/

theorem State.record_of_roster {s t : State} (h : t.roster = s.roster) (i : Fin 48) : t.record i = s.record i := by
  unfold State.record
  rw [h]

/-- The start of a message reads the roster, the pool and the delivery parameters alone. -/
theorem State.startForPoll_congr {s t : State} (roster : t.roster = s.roster) (pool : t.pool = s.pool)
    (params : t.params = s.params) (i : Fin 48) : (t.startForPoll i).roster = (s.startForPoll i).roster := by
  have records : t.record i = s.record i := State.record_of_roster roster i
  have urgency : t.urgencyOf = s.urgencyOf := by
    funext b
    unfold State.urgencyOf
    rw [pool]
  have pick : t.pickMessage (s.record i) = s.pickMessage (s.record i) := by
    unfold State.pickMessage State.startable
    rw [params, urgency]
  unfold State.startForPoll
  rw [records, pick]
  split
  · exact roster
  · split
    · simp only [State.startMessage, State.modifyRecord, State.setRecord, records, urgency, roster]
    · exact roster

theorem State.startForPoll_record_ne (s : State) {i j : Fin 48} (h : j ≠ i) : (s.startForPoll i).record j = s.record j := by
  unfold State.startForPoll
  split
  · rfl
  · split
    · exact s.record_modifyRecord_ne _ h.symm
    · rfl

/-- A record whose message starts differs in the message in flight and the lane last served. -/
theorem State.startForPoll_record (s : State) (i : Fin 48) : (s.startForPoll i).record i =
    { s.record i with inFlight := ((s.startForPoll i).record i).inFlight, lastLane := ((s.startForPoll i).record i).lastLane } := by
  unfold State.startForPoll
  split
  · rfl
  · split
    · rw [State.startMessage, State.record_modifyRecord]
    · rfl

theorem State.startForPoll_releasing {s : State} {i : Fin 48} (h : (s.record i).contact = .releasing) : s.startForPoll i = s := by
  unfold State.startForPoll
  rw [if_pos (by simp [h])]

theorem State.startForPoll_inFlight {s : State} {i : Fin 48} {b : Fin 64} (h : (s.record i).inFlight = some b) :
    s.startForPoll i = s := by
  unfold State.startForPoll
  rw [if_pos (by simp [h])]

/-- A record that is polled without RELEASE and has no message in flight starts the one that is picked. -/
theorem State.startForPoll_pick {s : State} {i : Fin 48} (contact : (s.record i).contact ≠ .releasing)
    (idle : (s.record i).inFlight = none) :
    s.startForPoll i = match s.pickMessage (s.record i) with
      | some b => s.startMessage i b
      | none => s := by
  unfold State.startForPoll
  rewrite [if_neg (by simp [contact, idle])]
  rfl

theorem firstLane_eq (mode : ServeMode) (last : Urgency) :
    firstLane mode last = if mode = .rotating ∧ last = .urgent then .routine else .urgent := by
  cases mode <;> cases last <;> rfl

theorem otherLane_eq {first other : Urgency} (h : first ≠ other) : otherLane first = other := by
  revert h
  cases first <;> cases other <;> simp [otherLane]

/-- The oldest listed message of an enabled lane. -/
theorem State.startable_eq_some (s : State) (r : Record) (lane : Urgency) (b : Fin 64) :
    s.startable r lane = some b ↔ s.params.laneOn lane = true ∧
      ∃ older newer, r.messages = older ++ b :: newer ∧ s.urgencyOf b = some lane ∧ ∀ x ∈ older, s.urgencyOf x ≠ some lane := by
  unfold State.startable
  cases s.params.laneOn lane with
  | false => simp
  | true => simp [List.find?_eq_some_iff_append]; grind

theorem State.startable_eq_none (s : State) (r : Record) (lane : Urgency) :
    s.startable r lane = none ↔ s.params.laneOn lane = false ∨ ∀ x ∈ r.messages, s.urgencyOf x ≠ some lane := by
  unfold State.startable
  cases s.params.laneOn lane with
  | false => simp
  | true => simp [List.find?_eq_none]

/-- A message picked in a lane is started in that lane. -/
theorem State.startMessage_lane {s : State} {i : Fin 48} {lane : Urgency} {b : Fin 64}
    (h : s.startable (s.record i) lane = some b) :
    s.startMessage i b = s.setRecord i { s.record i with inFlight := some b, lastLane := lane } := by
  obtain ⟨-, -, -, -, urgency, -⟩ := (s.startable_eq_some _ _ _).1 h
  rw [State.startMessage, State.modifyRecord, urgency]
  rfl

/-! ## The POLL of a turn slot (R7, R10, R22) -/

theorem State.pollMessage_releasing {s : State} {i : Fin 48} (h : (s.record i).contact = .releasing) : s.pollMessage i = none := by
  unfold State.pollMessage
  rw [if_pos (by simp [h])]

theorem State.pollMessage_inFlight {s : State} {i : Fin 48} (h : (s.record i).contact ≠ .releasing) :
    s.pollMessage i =
      (s.record i).inFlight.bind fun b => (s.pool[b]).map fun m => { urgency := m.urgency, body := m.body } := by
  unfold State.pollMessage
  rw [if_neg (by simp [h])]

theorem State.pollMessage_congr {s t : State} (roster : t.roster = s.roster) (pool : t.pool = s.pool) (i : Fin 48) :
    t.pollMessage i = s.pollMessage i := by
  unfold State.pollMessage
  rw [State.record_of_roster roster, pool]

theorem State.polledHolder_of_cell {s : State} {slot : Nat} {h : CellHolding} (cell : s.cell slot s.phase = some h)
    (role : h.role = .turn ∨ h.role = .lent) (polled : (s.record h.holder).polled = true) : s.polledHolder slot = some h := by
  have ready : ((h.role == .turn || h.role == .lent) && (s.record h.holder).polled) = true := by
    simp [role, polled]
  simp only [State.polledHolder, cell, Option.bind_some, ready, if_true]

theorem State.polledHolder_none {s : State} {slot : Nat}
    (h : ∀ c, s.cell slot s.phase = some c → (c.role = .waiting ∨ c.role = .pending) ∨ (s.record c.holder).hard ≠ none) :
    s.polledHolder slot = none := by
  cases cell : s.cell slot s.phase with
  | none => simp only [State.polledHolder, cell, Option.bind_none]
  | some c =>
      have unready : ¬ ((c.role == .turn || c.role == .lent) && (s.record c.holder).polled) = true := by
        simp only [Bool.and_eq_true, Bool.or_eq_true, beq_iff_eq]
        rintro ⟨role, polled⟩
        obtain waits | fault := h c cell
        · rcases waits with e | e <;> simp [e] at role
        · obtain ⟨_, e⟩ := Option.ne_none_iff_exists'.1 fault
          simp [Record.polled, e] at polled
      simp only [State.polledHolder, cell, Option.bind_some]
      exact if_neg unready

/-- The down frame of a turn slot is its holder's POLL, or none. -/
theorem State.chooseDown_turn (s : State) {slot : Nat} (h : 3 ≤ slot) :
    s.chooseDown slot = match s.polledHolder slot with
      | some c => s.beginPoll c
      | none => s := by
  unfold State.chooseDown
  rewrite [if_neg (by omega), if_neg (by omega)]
  rfl

/-- A turn slot whose holder is not polled sends nothing. -/
theorem State.startSlot_unpolled {s : State} {slot : Fin 32} (turn : 3 ≤ slot.val) (h : s.polledHolder slot.val = none) :
    s.startSlot slot true = (s.beginSlot slot).sampleReady true := by
  have holder : ((s.beginSlot slot).sampleReady true).polledHolder slot.val = none := h
  rw [State.startSlot_later s (by omega), if_pos rfl, State.chooseDown_turn _ turn, holder]

/-- A turn slot whose holder is polled sends the POLL. -/
theorem State.startSlot_polled {s : State} {slot : Fin 32} {c : CellHolding} (turn : 3 ≤ slot.val)
    (h : s.polledHolder slot.val = some c) :
    s.startSlot slot true = ((s.beginSlot slot).sampleReady true).beginPoll c := by
  have holder : ((s.beginSlot slot).sampleReady true).polledHolder slot.val = some c := h
  rw [State.startSlot_later s (by omega), if_pos rfl, State.chooseDown_turn _ turn, holder]

/-- What a poll says of its record, read from the state in which the slot starts (R10). -/
theorem State.buildPoll_says {s t : State} {i : Fin 48} {role : CellRole} (roster : t.roster = (s.startForPoll i).roster)
    (sweep : t.sweep = s.sweep) (pool : t.pool = s.pool) :
    t.buildPoll i role =
      { carId := (s.record i).carId, tag := (s.record i).tag.getD 0, release := (s.record i).contact == .releasing,
        scan := (s.record i).fading, sweep := s.sweep.state == .running && (s.record i).mark == .marked,
        extension := role == .lent, retune := (s.record i).retune.map RetuneContext.target,
        downBit := (s.record i).downBit, inboundAck := (s.record i).upBit,
        message := (s.startForPoll i).pollMessage i } := by
  have frame := s.startForPoll_frame i
  have message : t.pollMessage i = (s.startForPoll i).pollMessage i :=
    State.pollMessage_congr roster (by rw [pool, frame]) i
  have started : t.record i = _ := (State.record_of_roster roster i).trans (s.startForPoll_record i)
  simp only [State.buildPoll, started, sweep, message]

/-- The message in a POLL is the one in flight once the message is started. -/
theorem State.startForPoll_message (s : State) (i : Fin 48) (b : Fin 64) (m : Message)
    (contact : (s.record i).contact ≠ .releasing) (inFlight : ((s.startForPoll i).record i).inFlight = some b)
    (held : s.pool[b] = some m) :
    (s.startForPoll i).pollMessage i = some { urgency := m.urgency, body := m.body } := by
  have kept : ((s.startForPoll i).record i).contact = (s.record i).contact := by rw [s.startForPoll_record i]
  have pool : (s.startForPoll i).pool = s.pool := by rw [s.startForPoll_frame i]
  rw [State.pollMessage_inFlight (kept ▸ contact), inFlight, Option.bind_some, pool, held]
  rfl

theorem State.startForPoll_noMessage (s : State) (i : Fin 48) (inFlight : ((s.startForPoll i).record i).inFlight = none) :
    (s.startForPoll i).pollMessage i = none := by
  unfold State.pollMessage
  split
  · rfl
  · rw [inFlight]
    rfl

/-- What a record that is polled without RELEASE starts, lane by lane (R108, R109). -/
theorem State.startForPoll_starts (s : State) (i : Fin 48) (contact : (s.record i).contact ≠ .releasing) :
    (∀ b, (s.record i).inFlight = some b → s.startForPoll i = s) ∧
     ((s.record i).inFlight = none →
       (∀ b first, first = (if s.params.deliveryMode = .rotating ∧ (s.record i).lastLane = .urgent then Urgency.routine
             else Urgency.urgent) →
         s.startable (s.record i) first = some b →
           s.startForPoll i = s.setRecord i { s.record i with inFlight := some b, lastLane := first }) ∧
       (∀ b first other, first ≠ other →
         first = (if s.params.deliveryMode = .rotating ∧ (s.record i).lastLane = .urgent then Urgency.routine
           else Urgency.urgent) →
         s.startable (s.record i) first = none → s.startable (s.record i) other = some b →
           s.startForPoll i = s.setRecord i { s.record i with inFlight := some b, lastLane := other }) ∧
       ((∀ lane, s.startable (s.record i) lane = none) → s.startForPoll i = s)) := by
  refine ⟨fun b h => State.startForPoll_inFlight h, fun idle => ⟨?_, ?_, ?_⟩⟩
  · intro b first lane h
    rw [← firstLane_eq] at lane
    have pick : s.pickMessage (s.record i) = some b := by
      simp only [State.pickMessage, ← lane, h, Option.some_or]
    rw [State.startForPoll_pick contact idle, pick]
    exact State.startMessage_lane h
  · intro b first other ne lane none_ h
    rw [← firstLane_eq] at lane
    have pick : s.pickMessage (s.record i) = some b := by
      simp only [State.pickMessage, ← lane, none_, Option.none_or, otherLane_eq ne, h]
    rw [State.startForPoll_pick contact idle, pick]
    exact State.startMessage_lane h
  · intro none_
    have pick : s.pickMessage (s.record i) = none := by
      simp only [State.pickMessage, none_, Option.none_or]
    rw [State.startForPoll_pick contact idle, pick]

/-- Settles O29: the slot that starts is a turn slot, so it sends its holder's POLL or nothing. -/
theorem turnSlotsPollTheirHolder : Obligations.TurnSlotsPollTheirHolder := by
  refine ⟨?_, fun s i contact => ?_⟩
  · intro s k c hr hs hw low high cell
    have next : (k + 1).val = k.val + 1 := Fin.succ_val_of_ne (by rintro rfl; exact absurd high (by decide))
    have turn : 3 ≤ (k + 1).val := by omega
    have held : s.cell (k + 1).val s.phase = c := by rw [next]; exact cell
    refine ⟨fun unpolled => ⟨_, exec_slotStart hr hs hw true, ?_⟩, fun h some_ role sound contact => ?_⟩
    · rw [State.startSlot_unpolled turn (State.polledHolder_none fun h e => unpolled h (held.symm.trans e))]
      exact ⟨rfl, rfl, rfl⟩
    · have polled : (s.record h.holder).polled = true := by
        rcases contact with e | e | e <;> simp [Record.polled, ContactState.polled, e, sound]
      have step := State.startSlot_polled turn (State.polledHolder_of_cell (held.trans some_) role polled)
      obtain ⟨v, hv⟩ : ∃ v, v = (s.beginSlot (k + 1)).sampleReady true := ⟨_, rfl⟩
      have roster : (v.startForPoll h.holder).roster = (s.startForPoll h.holder).roster :=
        State.startForPoll_congr (by rw [hv]; rfl) (by rw [hv]; rfl) (by rw [hv]; rfl) h.holder
      have frame := v.startForPoll_frame h.holder
      have carries := State.buildPoll_says (t := v.startForPoll h.holder) (role := h.role) roster (by rw [frame, hv]; rfl)
        (by rw [frame, hv]; rfl)
      refine ⟨_, _, exec_slotStart hr hs hw true, by rw [step, ← hv]; rfl, by rw [step, ← hv]; rfl, ?_⟩
      have started (j : Fin 48) : (s.startSlot (k + 1) true).record j = (s.startForPoll h.holder).record j := by
        rw [step, ← hv]
        exact State.record_of_roster roster j
      simp only [started, carries]
      refine ⟨trivial, fun g e => by rw [e]; rfl, by simp, trivial, by simp, by simp, trivial, trivial, trivial,
        fun j ne => s.startForPoll_record_ne ne, trivial, trivial, fun release => ?_, fun release none_ => ?_, fun release b m some_ pool => ?_⟩
      · have releasing : (s.record h.holder).contact = .releasing := by simpa using release
        rw [State.startForPoll_releasing releasing]
        exact ⟨State.pollMessage_releasing releasing, rfl⟩
      · exact s.startForPoll_noMessage h.holder none_
      · exact s.startForPoll_message h.holder b m (by simpa using release) some_ pool
  · obtain ⟨kept, starts⟩ := s.startForPoll_starts i contact
    exact ⟨kept, starts, fun lane b => s.startable_eq_some _ lane b, fun lane => s.startable_eq_none _ lane, rfl, rfl⟩

end Sys2Proof.Machine

/-! Up frames, falls of RF_READY, and the end of slot 0. -/

namespace Sys2Proof.Machine

/-! ## Up frames and falls of RF_READY (R12, R14) -/

theorem exec_upFrameReceive {s : State} (hr : s.resetHeld = false) (bytes : List Byte) (level : Fin 64) :
    exec (.upFrameReceive bytes level) s = .next (s.receiveUp bytes level.val) :=
  exec_released rfl (by simp) (by simp) hr

theorem exec_rfReadyFall {s : State} (hr : s.resetHeld = false) (during : SlotPhase) :
    exec (.rfReadyFall during) s = .next (s.readyFalls during) :=
  exec_released rfl (by simp) (by simp) hr

theorem State.receiveUp_closed {s : State} (h : s.windowOpen = false) (bytes : List Byte) (level : Nat) :
    s.receiveUp bytes level = s := by
  unfold State.receiveUp
  rw [h]
  rfl

theorem laterPhase_mem (a b : SlotPhase) : laterPhase a b = a ∨ laterPhase a b = b := by
  unfold laterPhase
  split
  · exact Or.inr rfl
  · exact Or.inl rfl

/-- The later of two phases is LEAD when both are. -/
theorem laterPhase_ne_lead {a b : SlotPhase} (h : a ≠ .lead ∨ b ≠ .lead) : laterPhase a b ≠ .lead := by
  revert h
  cases a <;> cases b <;> decide

/-- A fall of RF_READY in a slot in progress. -/
theorem State.readyFalls_working {s : State} {w : SlotPhase} (hw : s.air.work = some w) (during : SlotPhase) :
    s.readyFalls during = { s with
      rfReady := false,
      air := { s.air with
        work := some (laterPhase w during), up := none,
        light := match s.air.light with
          | .ready => .darkAfterFact (s.air.down.isSome && laterPhase w during != .lead)
          | l => l } } := by
  unfold State.readyFalls
  rewrite [hw]
  rfl

/-- Settles O30: an up frame by the tests of `State.windowOpen`, a fall by the light of the slot. -/
theorem upFramesAndFallsOfReady : Obligations.UpFramesAndFallsOfReady := by
  refine ⟨fun s bytes level hr => ?_, fun s during hr => ?_⟩
  · rw [exec_upFrameReceive hr]
    refine ⟨fun k w slot work light kind up => ?_, fun closed => ?_, fun k slot one two exchange => ?_⟩
    · have open_ : s.windowOpen = true := by
        simp only [State.windowOpen, slot, work, light]
        simpa [Option.isSome_iff_ne_none, or_assoc] using kind
      simp only [State.receiveUp, open_, up, Option.isNone_none, Bool.and_self, if_true]
    · have shut : (s.windowOpen && s.air.up.isNone) = false := by
        rw [Bool.and_eq_false_iff]
        obtain up | dark | idle | noSlot := closed
        · exact Or.inr (by rw [Option.isNone_eq_false_iff]; exact Option.isSome_iff_ne_none.2 up)
        · exact Or.inl (by simp [State.windowOpen, dark])
        · exact Or.inl (by simp [State.windowOpen, idle])
        · exact Or.inl (by simp [State.windowOpen, noSlot])
      simp only [State.receiveUp, shut, Bool.false_eq_true, if_false]
    · rw [State.receiveUp_closed (by simp [State.windowOpen, slot, one, two, exchange])]
  · rw [exec_rfReadyFall hr]
    refine ⟨fun idle => by simp only [State.readyFalls, idle], fun w hw => ⟨_, laterPhase w during, rfl, ?_⟩⟩
    rw [State.readyFalls_working hw]
    refine ⟨rfl, laterPhase_mem w during, fun ready => ⟨?_, fun later => ?_⟩, fun dark => ?_⟩
    · rintro ⟨rfl, rfl⟩
      simp [ready, laterPhase]
    · simp [ready, laterPhase_ne_lead later]
    · cases light : s.air.light with
      | ready => exact absurd light dark
      | darkFromStart => rfl
      | darkAfterFact b => rfl

/-! ## What every slot end does (R15, R163) -/

/-- The dark count set, and AIR_DARK reported. -/
theorem State.setDarkCount_reported (s : State) (n : Nat) :
    s.classReported (s.setDarkCount n) .airDark (decide (s.params.darkLimit ≤ n)) ∧ s.onlyClasses (s.setDarkCount n) [.airDark] := by
  obtain ⟨w, hw⟩ : ∃ w : State, w = { s with air := { s.air with darkCount := n } } := ⟨_, rfl⟩
  have set : s.setDarkCount n = w.reportCause .airDark (decide (s.params.darkLimit ≤ n)) := by
    rw [hw]
    rfl
  have flags (c : ConditionClass) : w.classFlags c = s.classFlags c := State.classFlags_congr (by rw [hw]) c
  have reported := w.reportCause_reported .airDark (decide (s.params.darkLimit ≤ n))
  have classes := w.onlyClasses_reportCause .airDark (decide (s.params.darkLimit ≤ n))
  rw [← set] at reported classes
  refine ⟨?_, fun c hc => (classes c hc).trans (flags c)⟩
  simp only [State.classReported, flags] at reported
  exact reported

/-- A slot made dark after the fact is counted, and nothing else. -/
theorem State.countDarkEnd_frame (s : State) : s.countDarkEnd = { s with
    air := { s.air with darkCount := s.countDarkEnd.air.darkCount }, conditions := s.countDarkEnd.conditions } := by
  unfold State.countDarkEnd
  cases s.air.light <;> rfl

theorem State.countDarkEnd_counted (s : State) : s.darkCounted s.countDarkEnd ∧ s.onlyClasses s.countDarkEnd [.airDark] := by
  unfold State.darkCounted State.countDarkEnd
  cases s.air.light with
  | darkAfterFact b =>
      obtain ⟨reported, classes⟩ := s.setDarkCount_reported (satAdd 255 s.air.darkCount)
      exact ⟨⟨rfl, reported⟩, classes⟩
  | ready => exact ⟨⟨rfl, rfl⟩, fun _ _ => rfl⟩
  | darkFromStart => exact ⟨⟨rfl, rfl⟩, fun _ _ => rfl⟩

theorem State.darkCounted.congr {s t u : State} (h : s.darkCounted t) (count : u.air.darkCount = t.air.darkCount)
    (flags : u.classFlags .airDark = t.classFlags .airDark) : s.darkCounted u := by
  unfold State.darkCounted at h ⊢
  rw [count]
  unfold State.classReported at h ⊢
  rw [flags]
  exact h

theorem State.applyHalt_frame (s : State) : s.applyHalt = { s with sweep := s.applyHalt.sweep } := by
  unfold State.applyHalt
  split <;> rfl

theorem exec_slotEnd {s : State} {k : Fin 32} {w : SlotPhase} (hr : s.resetHeld = false) (hp : s.resetPending = false)
    (hs : s.air.slot = some k) (hw : s.air.work = some w) : exec .slotEnd s = .next (s.finishSlot k.val) := by
  rw [exec_released rfl (by simp) (by simp) hr]
  simp only [effect, State.slotEnd, hs, hw, hp]
  rfl

/-- The end of a slot that is not slot 31. -/
theorem State.finishSlot_early (s : State) {k : Nat} (h : k ≠ 31) :
    s.finishSlot k = (s.countDarkEnd.endNotice k).applyHalt.clearSlot := by
  unfold State.finishSlot
  rw [if_neg h]

/-! ## The BEACON handed back (R8, R84) -/

theorem State.usePage_frame (s : State) (p : BeaconPage) : s.usePage p = { s with roster := (s.usePage p).roster } := by
  unfold State.usePage
  split <;> rfl

theorem State.usePage_fold_frame (pages : List BeaconPage) (s : State) :
    pages.foldl State.usePage s = { s with roster := (pages.foldl State.usePage s).roster } := by
  induction pages generalizing s with
  | nil => rfl
  | cons p pages ih =>
      rw [List.foldl_cons, ih, s.usePage_frame p]

theorem State.usePage_pointer (s : State) (p : BeaconPage) : (s.usePage p).roster.pagePointer = s.roster.pagePointer := by
  unfold State.usePage
  split <;> rfl

theorem State.usePages_frame (s : State) (pages : List BeaconPage) :
    s.usePages pages = { s with roster := (s.usePages pages).roster } := by
  have fold := State.usePage_fold_frame pages s
  unfold State.usePages
  generalize pages.foldl State.usePage s = t at fold
  generalize t.roster = r at fold
  subst fold
  cases pages.getLast? <;> rfl

theorem State.usePages_record (s : State) (pages : List BeaconPage) (i : Fin 48) :
    (s.usePages pages).record i = (pages.foldl State.usePage s).record i := by
  unfold State.usePages
  cases pages.getLast? <;> rfl

theorem State.usePages_pointer_last {s : State} {pages : List BeaconPage} {p : BeaconPage} (h : pages.getLast? = some p) :
    (s.usePages pages).roster.pagePointer = p.record := by
  simp only [State.usePages, h]

/-- The pages of a BEACON handed back: used when the slot stayed ready, else left. -/
def State.beaconBack (s : State) : State :=
  match s.air.light, s.air.beacon with
  | .ready, some b => s.usePages b.pages
  | _, _ => s

theorem State.endBeacon_eq (s : State) :
    s.endBeacon = { s.beaconBack with air := { s.beaconBack.air with grants := [] } } := by
  unfold State.endBeacon State.beaconBack
  rfl

theorem State.beaconBack_frame (s : State) : s.beaconBack = { s with roster := s.beaconBack.roster } := by
  unfold State.beaconBack
  split
  · exact s.usePages_frame _
  · rfl

theorem State.beaconBack_dark {s : State} (h : s.air.light ≠ .ready) : s.beaconBack = s := by
  unfold State.beaconBack
  split
  next ready _ => exact absurd ready h
  next => rfl

theorem State.beaconBack_ready {s : State} {b : Beacon} (light : s.air.light = .ready) (beacon : s.air.beacon = some b) :
    s.beaconBack = s.usePages b.pages := by
  simp only [State.beaconBack, light, beacon]

/-- Settles O31: slot 0 ends with its BEACON handed back after the dark count. -/
theorem theBeaconIsHandedBack : Obligations.TheBeaconIsHandedBack := by
  intro s w hr hp hs hw
  refine ⟨_, exec_slotEnd hr hp hs hw, ?_⟩
  have dark := s.countDarkEnd_frame
  obtain ⟨counted, classes⟩ := s.countDarkEnd_counted
  have step : s.finishSlot (0 : Fin 32).val = s.countDarkEnd.endBeacon.applyHalt.clearSlot := s.finishSlot_early (by decide)
  rw [step, State.applyHalt_frame, State.endBeacon_eq]
  have back := s.countDarkEnd.beaconBack_frame
  have rosterDark : s.air.light ≠ .ready → s.countDarkEnd.beaconBack.roster = s.roster := fun h => by
    rw [State.beaconBack_dark (by rw [dark]; exact h), dark]
  have ready (b : Beacon) (light : s.air.light = .ready) (beacon : s.air.beacon = some b) :
      s.countDarkEnd.beaconBack = s.usePages b.pages := by
    have same : s.countDarkEnd = s := by simp only [State.countDarkEnd, light]
    rw [same, State.beaconBack_ready light beacon]
  generalize s.countDarkEnd.beaconBack = v at back rosterDark ready ⊢
  generalize s.countDarkEnd = u at dark counted classes back ⊢
  obtain ⟨roster, hroster⟩ : ∃ r, r = v.roster := ⟨_, rfl⟩
  rw [← hroster] at back rosterDark
  generalize u.air.darkCount = n at dark
  generalize u.conditions = cs at dark
  subst dark back
  refine ⟨rfl, rfl, rfl, hs, rosterDark, ?_, counted.congr rfl rfl, classes, rfl, rfl, rfl, rfl, rfl⟩
  intro b light beacon distinct
  have used : roster = (s.usePages b.pages).roster := congrArg State.roster (ready b light beacon)
  subst used
  refine ⟨fun i => ?_, fun p last => State.usePages_pointer_last last, fun empty => by rw [empty]; rfl⟩
  exact (s.usePages_record b.pages i).trans (State.usePage_fold_record b.pages s distinct i)

end Sys2Proof.Machine

/-! The transmitter, and the frames that arrive. -/

namespace Sys2Proof.Machine

/-! ## The arbiter's choice (R123, R133, R134) -/

theorem State.arbitrate_ready {s : State} {p : Port} (use : s.params.inUse p = true) (idle : (s.port p).sending = none)
    (due : (s.port p).helloDue = false) : s.arbitrate p = s.chooseSource p := by
  simp only [State.arbitrate, use, idle, due, Option.isNone_none, Bool.and_self, if_true, Bool.false_eq_true, if_false]

theorem State.serveTraffic_head {s : State} {p : Port} {f : BackboneFrame} {rest : List BackboneFrame}
    (h : (s.port p).traffic = f :: rest) :
    s.serveTraffic p = s.setPort p { s.port p with sending := some f, traffic := rest, lastServed := .traffic } := by
  simp only [State.serveTraffic, h]
  rfl

theorem State.serveHandover_of_context {s : State} {p : Port} {i : Fin 48} {c : HandoverContext}
    (h : (s.record i).handover = some c) :
    s.serveHandover p i = (s.setRecord i { s.record i with handover := some { c with due := false } }).setPort p
      { s.port p with sending := some (s.handoverFrame (s.record i) c), rotation := i, lastServed := .handover } := by
  simp only [State.serveHandover, h]
  cases p <;> rfl

/-- A frame that waits in the traffic queue begins where no handover frame is due, or where it is the queue's turn. -/
theorem State.chooseSource_traffic {s : State} {p : Port} {f : BackboneFrame} {rest : List BackboneFrame}
    (traffic : (s.port p).traffic = f :: rest)
    (turn : s.handoverWaiting p = none ∨ (s.params.arbiterMode = .rotating ∧ (s.port p).lastServed = .handover)) :
    s.chooseSource p = s.setPort p { s.port p with sending := some f, traffic := rest, lastServed := .traffic } := by
  rw [← State.serveTraffic_head traffic, State.chooseSource]
  obtain nothing | ⟨mode, last⟩ := turn
  · rw [nothing]
  · cases s.handoverWaiting p with
    | none => rfl
    | some i => simp only [traffic, mode, last]

/-- A handover frame that is due begins where no frame waits in the traffic queue, or where it goes first. -/
theorem State.chooseSource_handover {s : State} {p : Port} {i : Fin 48} (waiting : s.handoverWaiting p = some i)
    (turn : (s.port p).traffic = [] ∨ s.params.arbiterMode = .fixed ∨ (s.port p).lastServed = .traffic) :
    s.chooseSource p = s.serveHandover p i := by
  rw [State.chooseSource, waiting]
  cases traffic : (s.port p).traffic with
  | nil => rfl
  | cons f rest =>
      obtain empty | mode | last := turn
      · rw [traffic] at empty
        exact absurd empty (by simp)
      · simp only [mode]
      · cases mode : s.params.arbiterMode with
        | fixed => rfl
        | rotating => simp only [last]

theorem State.dueThrough_iff (s : State) (p : Port) (i : Fin 48) :
    s.dueThrough p i = true ↔ ∃ c, (s.record i).handover = some c ∧ c.due = true ∧
      portToward s.params.station c.peer = some p := by
  unfold State.dueThrough
  cases (s.record i).handover with
  | none => simp
  | some c => simp

theorem find_allRecords_iff (test : Fin 48 → Bool) (i : Fin 48) :
    allRecords.find? test = some i ↔ test i = true ∧ ∀ j, j < i → test j = false := by
  constructor
  · exact fun h => ⟨List.find?_some h, fun j hj => find_allRecords_first h hj⟩
  · rintro ⟨holds, before⟩
    cases found : allRecords.find? test with
    | none =>
        have fails := List.find?_eq_none.mp found i (mem_allRecords i)
        exact absurd holds fails
    | some k =>
        have here := List.find?_some found
        rcases lt_trichotomy k i with lt | eq | gt
        · rw [before k lt] at here
          exact absurd here (by decide)
        · rw [eq]
        · rw [find_allRecords_first found gt] at holds
          exact absurd holds (by decide)

/-- The handover source serves the first record with a due frame after the rotation. -/
theorem State.handoverWaiting_some_iff (s : State) (p : Port) (i : Fin 48) :
    s.handoverWaiting p = some i ↔ ∃ n : Fin 48, i = (s.port p).rotation + 1 + n ∧ s.dueThrough p i = true ∧
      ∀ m : Fin 48, m < n → s.dueThrough p ((s.port p).rotation + 1 + m) = false := by
  rw [State.handoverWaiting, rotationFrom_eq, List.find?_map, Option.map_eq_some_iff]
  constructor
  · rintro ⟨n, first, rfl⟩
    obtain ⟨due, before⟩ := (find_allRecords_iff _ n).1 first
    exact ⟨n, rfl, due, fun m hm => by simpa using before m hm⟩
  · rintro ⟨n, rfl, due, before⟩
    exact ⟨n, (find_allRecords_iff _ n).2 ⟨due, fun m hm => by simpa using before m hm⟩, rfl⟩

theorem exec_helloTimerExpiry {s : State} (hr : s.resetHeld = false) (p : Port) :
    exec (.helloTimerExpiry p) s = .next (s.helloDue p) :=
  exec_released rfl (by simp) (by simp) hr

theorem exec_transmitComplete {s : State} (hr : s.resetHeld = false) (p : Port) :
    exec (.transmitComplete p) s = .next (s.transmitted p) :=
  exec_released rfl (by simp) (by simp) hr

/-- A HELLO due while the station number is 0 is discarded, and the arbiter chooses among the rest. -/
theorem State.arbitrate_discard {s : State} {p : Port} (use : s.params.inUse p = true) (idle : (s.port p).sending = none)
    (due : (s.port p).helloDue = true) (station : s.params.station = 0) :
    s.arbitrate p = (s.setPort p { s.port p with helloDue := false }).arbitrate p := by
  have next : (s.setPort p { s.port p with helloDue := false }).arbitrate p =
      (s.setPort p { s.port p with helloDue := false }).chooseSource p :=
    State.arbitrate_ready (by rw [State.setPort_params, use]) (by rw [State.port_setPort, idle]) (by rw [State.port_setPort])
  rewrite [next, State.arbitrate, if_pos (by simp [use, idle]), if_pos due, if_pos (by simp [station])]
  rfl

theorem State.helloDue_unused {s : State} {p : Port} (h : s.params.inUse p = false) : s.helloDue p = s := by
  simp only [State.helloDue, h, Bool.false_eq_true, if_false]

theorem State.helloDue_used {s : State} {p : Port} (h : s.params.inUse p = true) :
    s.helloDue p = (s.setPort p { s.port p with helloTimer := 0, helloDue := true }).arbitrate p := by
  simp only [State.helloDue, h, if_true]
  rfl

/-- Settles O45: the arbiter by its cases, then the two events that call it. -/
theorem theTransmitterIsServed : Obligations.TheTransmitterIsServed := by
  refine ⟨fun s p => ⟨?_, ?_, ?_, ?_, ?_, ?_, ?_⟩, fun s p hr => ?_⟩
  · rintro (unused | busy)
    · exact State.arbitrate_idle_not (by simp [unused])
    · exact State.arbitrate_idle_not (by simp [busy])
  · refine fun use idle => ⟨fun due station => State.arbitrate_hello use idle due station, fun due => ?_⟩
    rw [State.arbitrate_ready use idle due]
    refine ⟨fun f rest traffic turn => State.chooseSource_traffic traffic turn, fun i c waiting context turn => ?_,
      fun nothing empty => State.chooseSource_nothing empty ((s.handoverWaiting_none_iff p).1 nothing)⟩
    rw [State.chooseSource_handover waiting turn, State.serveHandover_of_context context]
  · exact fun use idle due station => State.arbitrate_discard use idle due station
  · intro i waiting
    obtain ⟨-, -, due, -⟩ := (s.handoverWaiting_some_iff p i).1 waiting
    exact due
  · exact s.dueThrough_iff p
  · exact s.handoverWaiting_some_iff p
  · exact s.handoverWaiting_none_iff p
  · rw [exec_helloTimerExpiry hr, exec_transmitComplete hr]
    refine ⟨fun unused => by rw [State.helloDue_unused unused], fun use => ?_, fun use idle station => ?_, fun idle => ?_, fun busy => ?_⟩
    · rw [State.helloDue_used use]
      refine ⟨fun busy => ?_, fun idle station => ?_⟩
      · rw [State.arbitrate_idle_not (by simp [busy])]
      · rw [State.arbitrate_hello (by rw [State.setPort_params, use]) (by rw [State.port_setPort, idle]) (by rw [State.port_setPort])
          (by rw [State.setPort_params]; exact station), State.port_setPort, State.setPort_setPort, State.helloFrame,
          State.originate, State.setPort_params]
    · rw [State.helloDue_used use, State.arbitrate_discard (by rw [State.setPort_params, use]) (by rw [State.port_setPort, idle])
        (by rw [State.port_setPort]) (by rw [State.setPort_params, station]), State.port_setPort, State.setPort_setPort]
    · simp only [State.transmitted, idle, Option.isSome_none, Bool.false_eq_true, if_false]
    · simp only [State.transmitted, Option.isSome_iff_ne_none.2 busy, if_true]
      rfl

/-! ## Arriving frames (R124, R125) -/

theorem exec_backboneFrameReceive {s : State} (hr : s.resetHeld = false) (p : Port) (bytes : List Byte) :
    exec (.backboneFrameReceive p bytes) s = .next (s.receiveFrame p bytes) :=
  exec_released rfl (by simp) (by simp) hr

theorem State.linkDownElsewhere.congr {s t u : State} {p : Port} (h : s.linkDownElsewhere t p)
    (conditions : u.conditions = t.conditions) : s.linkDownElsewhere u p := by
  simp only [State.linkDownElsewhere, State.onlyClasses, State.classReported, State.classFlags_congr conditions]
  exact h

/-- What a frame taken in moves: its port and LINK_DOWN. -/
theorem State.admitFrame_frame (s : State) (p : Port) (f : BackboneFrame) :
    s.admitFrame p f = { s with ports := (s.admitFrame p f).ports, conditions := (s.admitFrame p f).conditions } := by
  cases p <;> rfl

theorem State.admitFrame_port_ne (s : State) {p q : Port} (f : BackboneFrame) (h : q ≠ p) :
    (s.admitFrame p f).port q = s.port q := by
  unfold State.admitFrame State.hearNeighbour
  rw [State.port_modifyPort_ne _ _ h.symm]
  exact State.port_modifyPort_ne _ _ h.symm

/-- The port of a frame taken in: its neighbour is heard, and the frame is learned from or queued. -/
theorem State.admitFrame_port (s : State) (p : Port) (f : BackboneFrame) :
    (s.admitFrame p f).port p =
      match f.payload with
      | .hello station => { s.port p with silence := 0, neighbour := .up, neighbourNumber := some station }
      | _ => { s.port p with silence := 0, neighbour := .up }.enqueue f := by
  have heard : (s.hearNeighbour p).port p = { s.port p with silence := 0, neighbour := .up } := s.port_modifyPort p _
  unfold State.admitFrame
  rewrite [State.port_modifyPort, heard]
  cases f.payload <;> rfl

theorem State.admitFrame_queued {s : State} {p : Port} {f : BackboneFrame} (h : ∀ n, f.payload ≠ .hello n) :
    (s.admitFrame p f).port p = { s.port p with silence := 0, neighbour := .up }.enqueue f := by
  rw [State.admitFrame_port]
  split
  next n e => exact absurd e (h n)
  next => rfl

theorem State.admitFrame_linkDown (s : State) (p : Port) (f : BackboneFrame) : s.linkDownElsewhere (s.admitFrame p f) p := by
  obtain ⟨u, hu⟩ : ∃ u, u = s.modifyPort p fun q => { q with silence := 0, neighbour := .up } := ⟨_, rfl⟩
  have reported : s.linkDownElsewhere u.reportLinkDown p := by
    refine State.reportLinkDown_elsewhere (by rw [hu, State.modifyPort_conditions]) ?_ fun q e => ⟨?_, ?_⟩
    · rw [hu, State.port_modifyPort]
      exact nofun
    · rw [hu, State.port_modifyPort_ne _ _ e.symm]
    · rw [hu, State.modifyPort_params]
  refine reported.congr ?_
  rw [hu]
  exact State.modifyPort_conditions _ _ _

/-- Settles O42: an arriving frame is counted as bad, or taken in by `State.admitFrame`. -/
theorem arrivingFramesAreTakenIn : Obligations.ArrivingFramesAreTakenIn := by
  intro s p bytes hr
  rw [exec_backboneFrameReceive hr]
  refine ⟨fun unused => ?_, fun use => ⟨fun bad => ?_, fun f good => ⟨s.admitFrame p f, ?_, s.admitFrame_frame p f,
    fun q e => s.admitFrame_port_ne f e, fun n hello => ?_, fun queued room => ?_, fun queued full => ?_, s.admitFrame_linkDown p f⟩⟩⟩
  · simp only [State.receiveFrame, unused, Bool.false_eq_true, if_false]
  · simp only [State.receiveFrame, use, bad, if_true]
    rfl
  · simp only [State.receiveFrame, use, good, if_true]
  · rw [State.admitFrame_port, hello]
  · rw [State.admitFrame_queued queued]
    exact if_pos room
  · rw [State.admitFrame_queued queued]
    exact if_neg (Nat.not_lt.2 full)

/-! ## Frames routed by their destination (R127, R128, R129) -/

theorem exec_receiveQueueTake {s : State} (hr : s.resetHeld = false) (p : Port) :
    exec (.receiveQueueTake p) s = .next (s.takeReceived p) :=
  exec_released rfl (by simp) (by simp) hr

theorem State.takeReceived_empty {s : State} {p : Port} (h : (s.port p).receive = []) : s.takeReceived p = s := by
  simp only [State.takeReceived, h]

theorem State.takeReceived_head {s : State} {p : Port} {f : BackboneFrame} {rest : List BackboneFrame}
    (h : (s.port p).receive = f :: rest) : s.takeReceived p = (s.setPort p { s.port p with receive := rest }).route p f := by
  simp only [State.takeReceived, h]
  rfl

theorem portToward_eq {own dest : Nat} (h : dest ≠ own) :
    portToward own dest =
      some (if dest = 255 then Port.outbye else if own < dest then Port.inbye else Port.outbye) := by
  simp only [portToward, Config.gateway, beq_iff_eq]
  split_ifs with gateway above below
  · rfl
  · rfl
  · rfl
  · omega

/-- A frame for another station is passed on through the port that leads there. -/
theorem State.route_onward {s : State} {p q : Port} {f : BackboneFrame} (station : s.params.station ≠ 0) (some_ : f.dest ≠ 0)
    (other : f.dest ≠ s.params.station)
    (hq : q = (if f.dest = 255 then Port.outbye else if s.params.station < f.dest then Port.inbye else Port.outbye)) :
    s.route p f = s.forward p q f := by
  simp only [State.route, beq_iff_eq, station, if_false, Bool.or_eq_true, some_, other, or_self, portToward_eq other, ← hq]

theorem State.route_here {s : State} {p : Port} {f : BackboneFrame} (station : s.params.station ≠ 0)
    (here : f.dest = 0 ∨ f.dest = s.params.station) : s.route p f = s.handleHere p f := by
  simp only [State.route, beq_iff_eq, station, if_false, Bool.or_eq_true, here, if_true]

theorem State.offerTraffic_refused {s : State} {p : Port} (f : BackboneFrame)
    (h : s.params.inUse p = false ∨ 6 ≤ (s.port p).traffic.length) : s.offerTraffic p f = s.countTrafficFull p := by
  have full : ¬ (s.params.inUse p && decide ((s.port p).traffic.length < Config.trafficDepth)) = true := by
    rw [Bool.and_eq_true]
    rintro ⟨use, room⟩
    obtain unused | full := h
    · rw [unused] at use
      exact absurd use (by decide)
    · exact Nat.not_lt.2 full (of_decide_eq_true room)
  unfold State.offerTraffic
  rw [if_neg full]

theorem State.offerTraffic_taken {s : State} {p : Port} (f : BackboneFrame) (use : s.params.inUse p = true)
    (room : (s.port p).traffic.length < 6) :
    s.offerTraffic p f = (s.setPort p { s.port p with traffic := (s.port p).traffic ++ [f] }).arbitrate p := by
  unfold State.offerTraffic
  rw [if_pos (by simp [use, Config.trafficDepth, room])]
  rfl

/-- Settles O43: the head of the receive queue is taken and `State.route` sends it by its destination. -/
theorem framesAreRoutedByDestination : Obligations.FramesAreRoutedByDestination := by
  intro s p hr
  rw [exec_receiveQueueTake hr]
  refine ⟨fun empty => by rw [State.takeReceived_empty empty], ?_⟩
  rintro f rest s' head taken
  rw [State.takeReceived_head head, ← taken]
  have params : s'.params = s.params := by rw [taken, State.setPort_params]
  have drops : (s'.port p).hopDrops = (s.port p).hopDrops := by rw [taken, State.port_setPort]
  have fulls (q : Port) : (s'.port q).trafficFull = (s.port q).trafficFull := by
    rw [taken]
    cases p <;> cases q <;> rfl
  refine ⟨fun station => ?_, ?_, fun station here kind => ?_⟩
  · simp only [State.route, params, station, beq_self_eq_true, if_true]
  · intro q station some_ other hq
    rw [State.route_onward (q := q) (by rw [params]; exact station) some_ (by rw [params]; exact other) (by rw [params]; exact hq)]
    refine ⟨fun last => ?_, fun more refused => ?_, fun more use room => ?_, fun more use room busy => ?_⟩
    · rw [State.forward, if_pos last, ← drops]
      rfl
    · rw [State.forward, if_neg (by omega), State.offerTraffic_refused _ (by rw [params]; exact refused), ← fulls]
      rfl
    · rw [State.forward, if_neg (by omega), State.offerTraffic_taken _ (by rw [params]; exact use) room]
    · rw [State.forward, if_neg (by omega), State.offerTraffic_taken _ (by rw [params]; exact use) room,
        State.arbitrate_idle_not (by rw [State.port_setPort]; exact fun h => busy h.2)]
  · rw [State.route_here (by rw [params]; exact station) (Or.inr (here.trans (by rw [params])))]
    obtain ⟨car, q, rep, c, l, pr, e⟩ | ⟨car, n, o, rep, e⟩ | ⟨car, rep, body, e⟩ := kind
    · simp only [State.handleHere, e]
    · simp only [State.handleHere, e]
    · simp only [State.handleHere, e]

/-! ## Silence (R125, R150) -/

theorem exec_silenceTimeout {s : State} (hr : s.resetHeld = false) (p : Port) :
    exec (.silenceTimeout p) s = .next (s.silenceEnds p) :=
  exec_released rfl (by simp) (by simp) hr

/-- Settles O46: the silence of a port whose neighbour was not DOWN reports LINK_DOWN and ends the contexts routed there. -/
theorem silenceLosesThePort : Obligations.SilenceLosesThePort := by
  intro s p hr
  rw [exec_silenceTimeout hr]
  refine ⟨fun unused => ?_, fun use down => ?_, fun use heard => ?_⟩
  · simp only [State.silenceEnds, unused, Bool.false_eq_true, if_false]
  · simp only [State.silenceEnds, use, down, if_true, beq_self_eq_true]
    rfl
  · obtain ⟨u, hu⟩ : ∃ u, u = s.setPort p { s.port p with silence := 1000, neighbour := .down } := ⟨_, rfl⟩
    obtain ⟨v, hv⟩ : ∃ v, v = u.reportLinkDown := ⟨_, rfl⟩
    have roster : v.roster = s.roster := by rw [hv, State.reportLinkDown_roster, hu, State.setPort_roster]
    have params : v.params = s.params := by rw [hv, State.reportLinkDown_params, hu, State.setPort_params]
    have ports : v.ports = u.ports := by rw [hv, State.reportLinkDown_ports]
    have own : u.port p = { s.port p with silence := 1000, neighbour := .down } := by rw [hu, State.port_setPort]
    have others (q : Port) (e : q ≠ p) : u.port q = s.port q := by rw [hu, State.port_setPort_ne _ _ e.symm]
    have conditions : u.conditions = s.conditions := by rw [hu, State.setPort_conditions]
    have down : u.linkDown = true := by
      rw [State.linkDown_iff]
      exact ⟨p, by rw [hu, State.setPort_params, use], by rw [own]⟩
    have step : s.silenceEnds p = v.losePort p := by
      rw [hv, hu]
      simp only [State.silenceEnds, use, heard, beq_iff_eq, if_true, if_false]
      rfl
    have reported := u.reportCause_reported .linkDown true
    have classes := u.onlyClasses_reportCause .linkDown true
    have report : v = u.reportCause .linkDown true := by rw [hv, State.reportLinkDown, down]
    rw [← report] at reported classes
    simp only [State.classReported, State.classFlags_congr conditions] at reported
    have routed : v.routedThrough p = s.routedThrough p := by
      funext i
      simp only [State.routedThrough, State.record_congr roster, params]
    have ended := v.loseContexts_contextsEnded (v.routedThrough p)
    rw [← State.losePort_eq, routed] at ended
    have flags (c : ConditionClass) : (v.losePort p).classFlags c = v.classFlags c :=
      State.classFlags_congr (v.losePort_conditions p) c
    refine ⟨_, by rw [step], ?_, fun q e => ?_, ?_, ?_, ended.of_begin roster (by rw [params]) (by rw [params]), ?_, ?_, ?_, ?_⟩
    · rw [State.port_congr (v.losePort_ports p), State.port_congr ports, own]
    · rw [State.port_congr (v.losePort_ports p), State.port_congr ports, others q e]
    · simp only [State.classReported, flags]
      exact reported
    · exact fun c hc => (flags c).trans ((classes c hc).trans (State.classFlags_congr conditions c))
    · rw [State.losePort_cells, hv, State.reportLinkDown_cells, hu, State.setPort_cells]
    · rw [State.losePort_pool, hv, State.reportLinkDown_pool, hu, State.setPort_pool]
    · rw [State.inbound_of_quiet (v.losePort_quiet p), hv, State.reportLinkDown_inbound, hu, State.setPort_inbound]
    · rw [State.params_of_calm (v.losePort_calm p), params]

end Sys2Proof.Machine

/-! The expiries of handover contexts. -/

namespace Sys2Proof.Machine

/-! ## A context whose frame is made due (R133, R138) -/

/-- Record `i` has context `c` in `t`, its frame due or begun, and all else is as in `s` but for frames begun. -/
structure State.madeDue (s t : State) (i : Fin 48) (c : HandoverContext) (due : Bool) : Prop where
  own : t.record i = { s.record i with handover := some { c with due := due } }
  begun : s.dueOrBegun t i c.peer due (s.handoverFrame (s.record i) c)
  others : ∀ j, j ≠ i → (s.record j).sameButSent (t.record j)
  air : t.air = s.air
  cells : t.cells = s.cells
  pool : t.pool = s.pool
  sweep : t.sweep = s.sweep
  host : t.host = s.host
  conditions : t.conditions = s.conditions
  quiet : t.quiet = s.quiet
  tail : t.tail = s.tail

/-- The frame of a context says nothing of whether it is due, nor of the deadline. -/
theorem State.handoverFrame_due (s : State) (r : Record) (c : HandoverContext) (due : Bool) :
    s.handoverFrame { r with handover := some { c with due := due } } { c with due := due } = s.handoverFrame r c := by
  obtain ⟨role, peer, tries, deadline, pending, level⟩ := c
  cases role <;> rfl

theorem State.setDue_madeDue (s : State) (i : Fin 48) (c : HandoverContext) :
    ∃ due, s.madeDue ((s.setRecord i { s.record i with handover := some { c with due := true } }).arbitrateToward c.peer) i c due := by
  obtain ⟨u, hu⟩ : ∃ u, u = s.setRecord i { s.record i with handover := some { c with due := true } } := ⟨_, rfl⟩
  have own : u.record i = { s.record i with handover := some { c with due := true } } := by rw [hu, State.record_setRecord]
  have others (j : Fin 48) (e : j ≠ i) : u.record j = s.record j := by rw [hu, State.record_setRecord_ne _ _ e.symm]
  obtain ⟨due, record, begun⟩ := u.arbitrateToward_due (i := i) (c := { c with due := true }) (by rw [own]) rfl
  have frame : u.handoverFrame (u.record i) { c with due := true } = s.handoverFrame (s.record i) c := by
    rw [own, hu]
    exact s.handoverFrame_due (s.record i) c true
  rw [frame] at begun
  refine ⟨due, ?_⟩
  rw [← hu]
  refine { own := ?_, begun := ?_, others := fun j e => ?_, air := ?_, cells := ?_, pool := ?_, sweep := ?_, host := ?_,
           conditions := ?_, quiet := ?_, tail := ?_ }
  · rw [record, own]
  · exact begun.of_before (by rw [hu, State.setRecord_params]) (fun p => State.port_congr (by rw [hu, State.setRecord_ports]) p)
      fun j e => congrArg _ (others j e)
  · rw [← others j e]
    exact u.arbitrateToward_recordsSent c.peer j
  · rw [State.arbitrateToward_air, hu, State.setRecord_air]
  · rw [State.arbitrateToward_cells, hu, State.setRecord_cells]
  · rw [State.arbitrateToward_pool, hu, State.setRecord_pool]
  · rw [State.arbitrateToward_sweep, hu, State.setRecord_sweep]
  · rw [State.arbitrateToward_host, hu, State.setRecord_host]
  · rw [State.arbitrateToward_conditions, hu, State.setRecord_conditions]
  · rw [State.arbitrateToward_quiet, hu]
    rfl
  · rw [State.arbitrateToward_tail, hu, State.setRecord_tail]

/-! ## The expiries (R141, R144) -/

theorem exec_claimExpiry {s : State} {i : Fin 48} (hr : s.resetHeld = false) :
    exec (.claimExpiry i) s = .next (match (s.record i).handover with
      | some c => if c.role == .claiming then (s.reachDeadline c).expireClaim i c else s
      | none => s) :=
  exec_released rfl (by simp) (by simp) hr

theorem exec_handingExpiry {s : State} {i : Fin 48} (hr : s.resetHeld = false) :
    exec (.handingExpiry i) s = .next (match (s.record i).handover with
      | some c => if c.role == .handing then (s.reachDeadline c).expireHanding i c else s
      | none => s) :=
  exec_released rfl (by simp) (by simp) hr

/-- The next try of a context: its frame is due, with a fresh deadline. -/
theorem State.nextTry_madeDue (s : State) (i : Fin 48) (c : HandoverContext) :
    ∃ due, s.madeDue (s.nextTry i c) i { c with tries := c.tries + 1, deadline := s.deadlineNow } due :=
  s.setDue_madeDue i { c with tries := c.tries + 1, deadline := s.deadlineNow }

/-- A context's next try, from the state before its deadline was reached. -/
theorem State.nextTry_reached (s : State) (i : Fin 48) (c : HandoverContext) :
    ∃ t due, (s.reachDeadline c).nextTry i c = t ∧ t.clock = max s.clock c.deadline ∧
      t.record i = { s.record i with
        handover := some { c with
          tries := c.tries + 1, due := due, deadline := max s.clock c.deadline + s.params.handoverTimeout } } ∧
      s.dueOrBegun t i c.peer due (s.handoverFrame (s.record i)
        { c with tries := c.tries + 1, deadline := max s.clock c.deadline + s.params.handoverTimeout }) ∧
      (∀ j, j ≠ i → (s.record j).sameButSent (t.record j)) ∧ t.cells = s.cells ∧ t.pool = s.pool ∧ s.onlyClasses t [] := by
  obtain ⟨due, made⟩ := (s.reachDeadline c).nextTry_madeDue i c
  refine ⟨_, due, rfl, ?_, made.own, made.begun.of_before rfl (fun _ => rfl) fun _ _ => rfl, made.others, made.cells, made.pool,
    State.onlyClasses_of_conditions made.conditions⟩
  exact State.clock_of_calm (State.calm_of_quiet made.quiet)

/-- Settles O49: the two expiries by the role of the context and the tries it has left. -/
theorem expiriesRunTheContexts : Obligations.ExpiriesRunTheContexts := by
  refine ⟨fun s i c hr context => ?_, fun s i hr none_ => ?_⟩
  · rw [exec_claimExpiry hr, exec_handingExpiry hr, context]
    obtain ⟨u, hu⟩ : ∃ u, u = s.reachDeadline c := ⟨_, rfl⟩
    have same (j : Fin 48) : u.record j = s.record j := by rw [hu]; rfl
    refine ⟨fun role => by simp only [role]; rfl, fun role => by simp only [role]; rfl, fun role more => ?_, fun role spent => ?_,
      fun role more => ?_, fun role spent out => ?_⟩
    · obtain ⟨t, due, step, clock, own, begun, rest⟩ := s.nextTry_reached i c
      refine ⟨t, due, ?_, clock, own, ?_, rest⟩
      · simp only [role, beq_self_eq_true, if_true, State.expireClaim, more, step]
      · simp only [State.handoverFrame, role] at begun
        exact begun
    · refine ⟨u.lapseClaim i, ?_, ?_, ?_, fun j e => ?_, ?_, ?_, ?_, ?_⟩
      · simp only [role, beq_self_eq_true, if_true, State.expireClaim, Nat.not_lt.2 spent, if_false, hu]
      · rw [State.lapseClaim_record, if_pos rfl, same]
      · have told : u.told (u.loseContext i) i .softFault := State.loseContext_told (s := u) (c := c) (by rw [same, context]) role
        have lapse : u.loseContext i = u.lapseClaim i := by simp only [State.loseContext, same, context, role]
        rw [lapse] at told
        exact told.of_params (by rw [hu]; rfl)
      · rw [State.lapseClaim_record, if_neg e, same]
      · rw [State.lapseClaim_ports, hu]
        rfl
      · rw [State.lapseClaim_cells, hu]
        rfl
      · rw [State.lapseClaim_pool, hu]
        rfl
      · exact State.onlyClasses_of_conditions (by rw [State.lapseClaim_conditions, hu]; rfl)
    · obtain ⟨t, due, step, clock, own, begun, rest⟩ := s.nextTry_reached i c
      refine ⟨t, due, ?_, own, ?_, rest⟩
      · simp only [role, beq_self_eq_true, if_true, State.expireHanding, more, step]
      · simp only [State.handoverFrame, role] at begun
        exact begun
    · refine ⟨u.fallToPaging i c.peer, ?_, ?_, fun j e => ?_, ?_, ?_, ?_, ?_⟩
      · simp only [role, beq_self_eq_true, if_true, State.expireHanding, Nat.not_lt.2 spent, if_false, hu]
      · rw [State.fallToPaging_record, if_pos rfl, same, if_pos out, hu]
        rfl
      · rw [State.fallToPaging_record, if_neg e, same]
      · rw [State.fallToPaging_host, hu]
        rfl
      · rw [State.fallToPaging_ports, hu]
        rfl
      · rw [State.fallToPaging_pool, hu]
        rfl
      · exact State.onlyClasses_of_conditions (by rw [State.fallToPaging_conditions, hu]; rfl)
  · rw [exec_claimExpiry hr, exec_handingExpiry hr, none_]
    exact ⟨rfl, rfl⟩

end Sys2Proof.Machine

/-! Claims decided and accepted. -/

namespace Sys2Proof.Machine

/-! ## The decision of a claim (R142) -/

theorem State.decideClaim_unheld {s : State} {car : Nat} (h : s.lookup car = none) (claimant level : Nat) :
    s.decideClaim claimant car level = .refused .notHeld := by
  simp only [State.decideClaim, h]

/-- A claim for a record held is decided by the record alone. -/
theorem State.decideClaim_held {s : State} {car : Nat} {i : Fin 48} (h : s.lookup car = some i) (claimant level : Nat) :
    s.decideClaim claimant car level =
      if (s.record i).hard.isSome || (s.record i).contact == .releasing then .refused .busy
      else match (s.record i).handover with
        | some c => match c.role with
          | .claiming => .refused .busy
          | .handing => if c.peer == claimant then .again i else .refused .busy
        | none =>
            if (s.record i).keep then .refused .kept
            else if (s.record i).contests s.params.contestMargin level then .refused .contested else .accepted i := by
  unfold State.decideClaim
  rewrite [h]
  rfl

theorem State.decideClaim_cases (s : State) (claimant car level : Nat) {i : Fin 48} (h : s.lookup car = some i) :
    ((s.record i).hard ≠ none ∨ (s.record i).contact = .releasing → s.decideClaim claimant car level = .refused .busy) ∧
    ((s.record i).hard = none → (s.record i).contact ≠ .releasing →
      (∀ x, (s.record i).handover = some x → x.role = .claiming ∨ x.peer ≠ claimant →
        s.decideClaim claimant car level = .refused .busy) ∧
      (∀ x, (s.record i).handover = some x → x.role = .handing → x.peer = claimant →
        s.decideClaim claimant car level = .again i) ∧
      ((s.record i).handover = none →
        s.decideClaim claimant car level =
          if (s.record i).keep then .refused .kept
          else if (s.record i).contests s.params.contestMargin level then .refused .contested else .accepted i)) := by
  rw [State.decideClaim_held h]
  refine ⟨fun bad => ?_, fun sound contact => ?_⟩
  · rw [if_pos]
    simpa [Option.isSome_iff_ne_none] using bad
  · rw [if_neg (by simp [sound, contact])]
    refine ⟨fun x context other => ?_, fun x context role peer => ?_, fun none_ => ?_⟩
    · simp only [context]
      cases role : x.role with
      | claiming => rfl
      | handing =>
          obtain claims | ne := other
          · rw [role] at claims
            exact absurd claims (by decide)
          · simp only [beq_iff_eq, ne, if_false]
    · simp only [context, role, peer, beq_self_eq_true, if_true]
    · simp only [none_]

/-! ## Handover frames for this station (R36, R128) -/

/-- What a port changed leaves of the state. -/
theorem State.setPort_frame (s : State) (p : Port) (q : PortState) :
    s.setPort p q = { s with ports := (s.setPort p q).ports } := by
  cases p <;> rfl

/-- A handover frame is taken at once unless its car's record is in exchange. -/
theorem State.handoverArrival_free {s : State} {p : Port} {f : BackboneFrame} {car : Nat}
    (h : ∀ i, s.lookup car = some i → s.inExchange i = false) : s.handoverArrival p f car = s.takeHandoverFrame p f := by
  have free : s.holdsFrame car = false := by
    unfold State.holdsFrame
    cases found : s.lookup car with
    | none => rfl
    | some i => exact h i found
  unfold State.handoverArrival
  rw [free]
  rfl

theorem State.handleHere_handover {s : State} {p : Port} {f : BackboneFrame} {car : Nat} (h : f.payload.handoverCar = some car) :
    s.handleHere p f = s.handoverArrival p f car := by
  unfold State.handleHere
  cases payload : f.payload with
  | claim | transfer | taken | refused =>
      rw [payload] at h
      rw [← Option.some.inj h]
  | hello | locate | located | relay | note | uplink =>
      rw [payload] at h
      exact absurd h (by simp [Payload.handoverCar])

/-- A handover frame for this station, taken from the head of a receive queue. -/
theorem exec_handoverFrame {s : State} {p : Port} {f : BackboneFrame} {rest : List BackboneFrame} {ports : Ports} {car : Nat}
    (hr : s.resetHeld = false) (station : s.params.station ≠ 0) (head : (s.port p).receive = f :: rest)
    (taken : ({ s with ports := ports } : State) = s.setPort p { s.port p with receive := rest })
    (here : f.dest = 0 ∨ f.dest = s.params.station) (names : f.payload.handoverCar = some car)
    (free : ∀ i, s.lookup car = some i → s.inExchange i = false) :
    exec (.receiveQueueTake p) s = .next (({ s with ports := ports } : State).takeHandoverFrame p f) := by
  rw [State.receiveQueueTake_here hr station head taken here]
  have arrival : ({ s with ports := ports } : State).handoverArrival p f car = _ := State.handoverArrival_free free
  rw [← arrival, State.handleHere_handover names]

theorem State.sendToward_port {s : State} {dest : Nat} {p : Port} (h : portToward s.params.station dest = some p)
    (payload : Payload) : s.sendToward dest payload = s.offerTraffic p (s.originate dest payload) := by
  simp only [State.sendToward, h]

theorem State.sendToward_nowhere {s : State} {dest : Nat} (h : portToward s.params.station dest = none) (payload : Payload) :
    s.sendToward dest payload = s := by
  simp only [State.sendToward, h]

/-! ## A claim accepted (R143) -/

theorem State.dueOrBegun.after {s t u : State} {i : Fin 48} {peer : Nat} {due : Bool} {f : BackboneFrame}
    (h : s.dueOrBegun t i peer due f) (ports : u.ports = t.ports) : s.dueOrBegun u i peer due f := by
  simp only [State.dueOrBegun, State.port_congr ports]
  exact h

theorem State.giveUpTurn_record (s : State) (i j : Fin 48) :
    (s.giveUpTurn i).record j = if j = i then { s.record i with turn := none, retune := none } else s.record j := by
  rw [State.giveUpTurn, State.record_modifyRecord_eq]
  simp only [State.record_congr (State.freeCellsOf_roster s i), eq_comm]

/-- A claim accepted, on everything but the list of records passed over. -/
structure State.claimAccepted (s t : State) (i : Fin 48) (claimant : Nat) (due : Bool) : Prop where
  own : t.record i =
    { s.record i with
      contact := .outbound, turn := none, retune := none, pageCount := 0, lastHanding := none, summoned := false,
      mark := if s.sweepAwaits i then .left else (s.record i).mark,
      handover := some { role := .handing, peer := claimant, tries := 1,
                         deadline := s.clock + s.params.handoverTimeout, due := due, claimLevel := none } }
  begun : s.dueOrBegun t i claimant due (s.originate claimant
    (.transfer (s.record i).carId ((s.record i).cls.getD 0) ((s.listed (s.record i)).map Message.toTransfer)))
  told : (s.record i).summoned = true → s.told t i (.summonEnded .handed)
  summonCount : t.roster.summonCount = s.roster.summonCount - (if (s.record i).summoned then 1 else 0)
  left : t.sweep.left = s.sweep.left + (if s.sweepAwaits i then 1 else 0)
  others : ∀ j, j ≠ i → (s.record j).sameButSent (t.record j)
  freed : s.cellsFreed t (heldBy i)
  air : t.air = { s.air with grants := s.air.grants.filter fun j => j != i }
  pool : t.pool = s.pool

theorem State.acceptClaim_accepted (s : State) (i : Fin 48) (claimant : Nat) :
    ∃ due, s.claimAccepted (s.acceptClaim i claimant) i claimant due := by
  obtain ⟨v, hv⟩ : ∃ v, v = (s.withdrawGrant i).giveUpTurn i := ⟨_, rfl⟩
  obtain ⟨w, hw⟩ : ∃ w, w = (v.passOver i).modifyRecord i fun r =>
    { r with contact := .outbound, pageCount := 0, lastHanding := none } := ⟨_, rfl⟩
  obtain ⟨x, hx⟩ : ∃ x, x = w.openContext i .handing claimant none := ⟨_, rfl⟩
  obtain ⟨y, hy⟩ : ∃ y, y = x.endSummon i .handed := ⟨_, rfl⟩
  have step : s.acceptClaim i claimant = y.markLeft i := by
    rw [hy, hx, hw, hv]
    rfl
  have vquiet : v.quiet = s.quiet := by rw [hv, State.giveUpTurn_quiet, State.withdrawGrant_quiet]
  have wquiet : w.quiet = s.quiet := by rw [hw]; exact vquiet
  have params : w.params = s.params := State.params_of_calm (State.calm_of_quiet wquiet)
  have clock : w.clock = s.clock := State.clock_of_calm (State.calm_of_quiet wquiet)
  have wpool : w.pool = s.pool := by
    rw [hw, State.modifyRecord_pool, State.passOver_pool, hv, State.giveUpTurn_pool, State.withdrawGrant_pool]
  have wports : w.ports = s.ports := by
    rw [hw, State.modifyRecord_ports, State.passOver_ports, hv, State.giveUpTurn_ports, State.withdrawGrant_ports]
  have wsweep : w.sweep = s.sweep := by
    rw [hw, State.modifyRecord_sweep, State.passOver_sweep, hv, State.giveUpTurn_sweep, State.withdrawGrant_sweep]
  have whost : w.host = s.host := by
    rw [hw, State.modifyRecord_host, State.passOver_host, hv, State.giveUpTurn_host, State.withdrawGrant_host]
  have wair : w.air = { s.air with grants := s.air.grants.filter fun j => j != i } := by
    rw [hw, State.modifyRecord_air, State.passOver_air, hv, State.giveUpTurn_air]
    rfl
  have vrecord (j : Fin 48) : v.record j = if j = i then { s.record i with turn := none, retune := none } else s.record j := by
    rw [hv, State.giveUpTurn_record]
    rfl
  have wown : w.record i =
      { s.record i with turn := none, retune := none, contact := .outbound, pageCount := 0, lastHanding := none } := by
    rw [hw, State.record_modifyRecord, State.record_passOver, vrecord, if_pos rfl]
  have wothers (j : Fin 48) (e : j ≠ i) : w.record j = s.record j := by
    rw [hw, State.record_modifyRecord_ne _ _ e.symm, State.record_passOver, vrecord, if_neg e]
  have freed : s.cellsFreed w (heldBy i) := by
    refine (State.cellsFreed_freeCellsOf (s.withdrawGrant i) i).congr rfl rfl ?_ ?_
    · rw [hw, hv]
      rfl
    · rw [hw, hv]
      rfl
  obtain ⟨due, made⟩ := w.setDue_madeDue i
    { role := .handing, peer := claimant, tries := 1, deadline := w.deadlineNow, due := true, claimLevel := none }
  have opened : (w.setRecord i { w.record i with
      handover := some { role := .handing, peer := claimant, tries := 1, deadline := w.deadlineNow, due := true,
                         claimLevel := none } }).arbitrateToward claimant = x := by
    rw [hx]
    rfl
  rw [opened] at made
  obtain ⟨yown, yothers, ytail⟩ := x.endSummon_spec i .handed
  rw [← hy] at yown yothers ytail
  obtain ⟨zown, zothers, ztail, zleft⟩ := y.markLeft_spec i
  have ysweep : y.sweep = s.sweep := by rw [hy, State.endSummon_sweep, made.sweep, wsweep]
  have yrecord : y.record i =
      { s.record i with
        turn := none, retune := none, contact := .outbound, pageCount := 0, lastHanding := none, summoned := false,
        handover := some { role := .handing, peer := claimant, tries := 1,
                           deadline := s.clock + s.params.handoverTimeout, due := due, claimLevel := none } } := by
    rw [yown, made.own, wown, State.deadlineNow, clock, params]
  have awaits : y.sweepAwaits i = s.sweepAwaits i := State.sweepAwaits_congr ysweep (by rw [yrecord])
  have summoned : (x.record i).summoned = (s.record i).summoned := by rw [made.own, wown]
  have conditions : (y.markLeft i).conditions = w.conditions := by
    rw [State.markLeft_conditions, hy, State.endSummon_conditions, made.conditions]
  rw [step]
  refine ⟨due, { own := ?_, begun := ?_, told := fun h => ?_, summonCount := ?_, left := ?_, others := fun j e => ?_,
                 freed := freed.congr rfl rfl ?_ conditions, air := ?_, pool := ?_ }⟩
  · rw [zown, awaits, yrecord]
  · have begun := made.begun.of_before params (fun p => State.port_congr wports p) fun j e => congrArg _ (wothers j e)
    simp only [State.handoverFrame, State.originate, State.listed, wown, params, wpool] at begun
    exact begun.after (by rw [State.markLeft_ports, hy, State.endSummon_ports])
  · have tells := x.endSummon_tells i .handed
    rw [summoned, h, if_pos rfl, ← hy] at tells
    have before : s.tells y i [.summonEnded .handed] :=
      tells.before (by rw [State.params_of_calm (State.calm_of_quiet made.quiet), params]) (by rw [made.host, whost])
    exact State.tells.told (earlier := []) (later := []) (before.after (y.markLeft_attention i)) (by simp)
  · have count : (y.markLeft i).roster.summonCount = y.roster.summonCount := congrArg (fun t => t.2.2.1) ztail
    have ended : y.roster.summonCount = x.roster.summonCount - (if (x.record i).summoned then 1 else 0) :=
      congrArg (fun t => t.2.2.1) ytail
    have opened : x.roster.summonCount = w.roster.summonCount := congrArg (fun t => t.2.2.1) made.tail
    have before : w.roster.summonCount = s.roster.summonCount := by
      rw [hw, hv]
      show ((s.withdrawGrant i).freeCellsOf i).roster.summonCount = s.roster.summonCount
      rw [State.freeCellsOf_roster]
      rfl
    rw [count, ended, opened, before, summoned]
  · rw [zleft, awaits, ysweep]
  · rw [zothers j e, yothers j e, ← wothers j e]
    exact made.others j e
  · rw [State.markLeft_cells, hy, State.endSummon_cells, made.cells]
  · rw [State.markLeft_air, hy, State.endSummon_air, made.air, wair]
  · rw [State.markLeft_pool, hy, State.endSummon_pool, made.pool, wpool]

theorem State.takeClaim_refused {s : State} {claimant car level : Nat} {reason : RefusedReason}
    (h : s.decideClaim claimant car level = .refused reason) :
    s.takeClaim claimant car level = s.sendToward claimant (.refused car reason) := by
  simp only [State.takeClaim, h]

theorem State.takeClaim_again {s : State} {claimant car level : Nat} {i : Fin 48} {c : HandoverContext}
    (h : s.decideClaim claimant car level = .again i) (context : (s.record i).handover = some c) :
    s.takeClaim claimant car level =
      (s.setRecord i { s.record i with handover := some { c with due := true } }).arbitrateToward c.peer := by
  simp only [State.takeClaim, h, State.makeDue, context]
  rfl

theorem State.takeClaim_accepted {s : State} {claimant car level : Nat} {i : Fin 48}
    (h : s.decideClaim claimant car level = .accepted i) : s.takeClaim claimant car level = s.acceptClaim i claimant := by
  simp only [State.takeClaim, h]

/-- Settles O48: the decision row by row, and what each answer to the claim does. -/
theorem claimsAreDecidedAndAccepted : Obligations.ClaimsAreDecidedAndAccepted := by
  refine ⟨fun s c car level => ⟨fun unheld => State.decideClaim_unheld unheld c level, fun i found => ?_⟩, ?_⟩
  · obtain ⟨bad, good⟩ := s.decideClaim_cases c car level found
    refine ⟨bad, fun sound contact => ?_⟩
    obtain ⟨busy, again, last⟩ := good sound contact
    refine ⟨busy, again, fun none_ => ?_⟩
    rw [last none_]
    have contested : (s.record i).contests s.params.contestMargin level = true ↔
        (s.record i).contact = .present ∧ (s.record i).fading = false ∧ (s.record i).missCount = 0 ∧
          level ≤ (s.record i).level + s.params.contestMargin := by
      simp [Record.contests, and_assoc]
    refine ⟨fun keep => by rw [if_pos keep], fun free => ⟨fun contests => ?_, fun yields => ?_⟩⟩
    · rw [if_neg (by simp [free]), if_pos (contested.2 contests)]
    · rw [if_neg (by simp [free]), if_neg fun h => yields (contested.1 h)]
  · intro s s' p f rest car tag level try_ hr station head taken here payload free
    obtain ⟨ports, hports⟩ : ∃ ports, ports = s'.ports := ⟨_, rfl⟩
    have frame : s' = { s with ports := ports } := by rw [hports, taken, ← State.setPort_frame]
    rw [frame] at taken ⊢
    rw [exec_handoverFrame hr station head taken here (by rw [payload]; rfl) free]
    obtain ⟨u, hu⟩ : ∃ u : State, u = { s with ports := ports } := ⟨_, rfl⟩
    have decision : u.decideClaim f.source car level = s.decideClaim f.source car level := by rw [hu]; rfl
    have take : u.takeHandoverFrame p f = u.takeClaim f.source car level := by
      unfold State.takeHandoverFrame
      rw [payload]
    rw [← hu, take]
    refine ⟨fun reason refused => ?_, fun i c again context => ?_, fun i accepted => ?_⟩
    · rw [State.takeClaim_refused (decision.trans refused)]
      refine ⟨fun q toward => ?_, fun nowhere => ?_⟩
      · rw [State.sendToward_port (by rw [hu]; exact toward), hu]
        rfl
      · rw [State.sendToward_nowhere (by rw [hu]; exact nowhere)]
    · obtain ⟨due, made⟩ := u.setDue_madeDue i c
      rw [State.takeClaim_again (decision.trans again) (by rw [hu]; exact context)]
      generalize (u.setRecord i { u.record i with handover := some { c with due := true } }).arbitrateToward c.peer = t at made ⊢
      subst hu
      exact ⟨t, due, rfl, made.own, made.begun, made.others, made.cells, made.pool, made.air,
        State.clock_of_calm (State.calm_of_quiet made.quiet), State.params_of_calm (State.calm_of_quiet made.quiet)⟩
    · obtain ⟨due, made⟩ := u.acceptClaim_accepted i f.source
      have passed := u.acceptClaim_passedOver i f.source
      have quiet := u.acceptClaim_quiet i f.source
      rw [State.takeClaim_accepted (decision.trans accepted)]
      generalize u.acceptClaim i f.source = t at made passed quiet ⊢
      subst hu
      exact ⟨t, due, rfl, made.own, made.begun, made.told, passed, made.summonCount, made.left, made.others, made.freed.cells,
        made.freed.plan, made.freed.classes, made.air, made.pool, State.inbound_of_quiet quiet,
        State.params_of_calm (State.calm_of_quiet quiet)⟩

end Sys2Proof.Machine

/-! The messages of a TRANSFER placed. -/

namespace Sys2Proof.Machine

/-! ## The messages of a TRANSFER placed (R146 step 1) -/

theorem State.classReported.trans {s t u : State} {c : ConditionClass} {a b : Bool} (h : s.classReported t c a)
    (k : t.classReported u c b) : s.classReported u c b := by
  obtain ⟨-, forced, latched, rises⟩ := h
  obtain ⟨cause, forced', latched', rises'⟩ := k
  refine ⟨cause, forced'.trans forced, fun e => latched' (latched e), fun active before => ?_⟩
  cases between : (t.classFlags c).active with
  | false => exact rises' active between
  | true => exact latched' (rises between before)

/-- A list with handles put after its transferred messages. -/
def State.listWith (s : State) (list placed : List (Fin 64)) : List (Fin 64) :=
  list.takeWhile s.isTransferred ++ placed ++ list.dropWhile s.isTransferred

/-- One message more after the transferred messages: the next goes after it. -/
theorem State.listWith_cons {s u : State} {list placed : List (Fin 64)} {b : Fin 64} (fresh : b ∉ list)
    (here : u.isTransferred b = true) (same : ∀ c, c ≠ b → u.isTransferred c = s.isTransferred c) :
    u.listWith (s.listWith list [b]) placed = s.listWith list (b :: placed) := by
  have agree (c : Fin 64) (hc : c ∈ list) : u.isTransferred c = s.isTransferred c := same c fun e => fresh (e ▸ hc)
  have front : ∀ c ∈ list.takeWhile s.isTransferred ++ [b], u.isTransferred c = true := by
    intro c hc
    rcases List.mem_append.mp hc with hc | hc
    · rw [agree c ((List.takeWhile_prefix _).subset hc)]
      exact List.mem_takeWhile_imp hc
    · rw [List.mem_singleton.mp hc, here]
  have back : ∀ c rest, list.dropWhile s.isTransferred = c :: rest → u.isTransferred c = false := by
    intro c rest e
    have mem : c ∈ list := (List.dropWhile_suffix s.isTransferred).subset (e ▸ List.mem_cons_self ..)
    have fails := List.head?_dropWhile_not s.isTransferred list
    rw [e] at fails
    rw [agree c mem]
    simpa using fails
  unfold State.listWith
  rw [List.takeWhile_append_of_pos front, List.dropWhile_append_of_pos front]
  cases e : list.dropWhile s.isTransferred with
  | nil => simp
  | cons c rest => simp [back c rest e]

/-- What the placement of messages for record `i` leaves: one handle for each, in buffers that were free. -/
structure State.transferPlaced (s v : State) (i : Fin 48) (ms : List TransferMessage) (placed : List (Fin 64)) : Prop where
  length : placed.length = ms.length
  nodup : placed.Nodup
  free : ∀ b ∈ placed, s.pool[b] = none
  own : v.record i = { s.record i with messages := s.listWith (s.record i).messages placed }
  others : ∀ j, j ≠ i → v.record j = s.record j
  beside : ∀ b : Fin 64, b ∉ placed → v.pool[b] = s.pool[b]
  filled : ∀ (k : Nat) (b : Fin 64) (m : TransferMessage), placed[k]? = some b → ms[k]? = some m → v.pool[b] = some (m.placed i)
  frame : v = { s with roster := v.roster, pool := v.pool, conditions := v.conditions }
  buffers : v.freeBuffers = s.freeBuffers - placed.length
  reported : s.poolReported v (placed ≠ [])
  classes : s.onlyClasses v [.poolLow]

theorem State.transferPlaced.nothing (s : State) (i : Fin 48) : s.transferPlaced s i [] [] where
  length := rfl
  nodup := List.nodup_nil
  free := by simp
  own := by simp [State.listWith]
  others := fun _ _ => rfl
  beside := fun _ _ => rfl
  filled := by simp
  frame := rfl
  buffers := rfl
  reported := ⟨fun h => absurd rfl h, fun _ => rfl⟩
  classes := fun _ _ => rfl

/-- One message placed. -/
theorem State.placeMessage_transferred {s : State} {i : Fin 48} (room : s.hasRoom i = true) (m : TransferMessage) :
    ∃ b, s.transferPlaced (s.placeMessage (m.placed i)) i [m] [b] := by
  obtain ⟨b, hb⟩ := State.hasRoom_free room
  have free := State.freeBuffer_free hb
  obtain ⟨u, hu⟩ : ∃ u, u = ({ (s.setRecord i { s.record i with messages := s.listWith (s.record i).messages [b] }) with
    pool := s.pool.set b (some (m.placed i)) } : State) := ⟨_, rfl⟩
  have placed : s.placeMessage (m.placed i) = u.reportPool := by
    have list : s.insertHandle (s.record i).messages b .transferred = s.listWith (s.record i).messages [b] := by
      simp [State.insertHandle, State.listWith]
    rw [hu, ← list]
    simp only [State.placeMessage, hb]
    rfl
  have buffers : u.freeBuffers = s.freeBuffers - 1 := State.freeBuffers_take free (by rw [hu])
  have reported := u.reportCause_reported .poolLow (decide (u.freeBuffers < u.params.poolLow))
  have pool (c : Fin 64) : u.reportPool.pool[c] = if c = b then some (m.placed i) else s.pool[c] := by
    rw [State.reportPool_pool, hu]
    by_cases e : c = b
    · subst e
      simp
    · have ne : b.val ≠ c.val := fun x => e (Fin.ext x.symm)
      simp [e, ne]
  rw [placed]
  refine ⟨b, rfl, List.nodup_singleton b, ?_, ?_, ?_, ?_, ?_, ?_, ?_, ⟨fun _ => ?_, fun h => absurd (by simp) h⟩, ?_⟩
  · intro c hc
    rw [List.mem_singleton.mp hc, free]
  · rw [State.record_congr (State.reportPool_roster u), hu]
    exact State.record_setRecord s i _
  · intro j e
    rw [State.record_congr (State.reportPool_roster u), hu]
    exact State.record_setRecord_ne s _ e.symm
  · intro c hc
    rw [pool, if_neg fun e => hc (by rw [e]; exact List.mem_singleton_self b)]
  · intro k c n hk hn
    obtain ⟨rfl, rfl⟩ : k = 0 ∧ c = b := by
      cases k with
      | zero => exact ⟨rfl, by simpa using hk.symm⟩
      | succ k => simp at hk
    rw [pool, if_pos rfl, show m = n by simpa using hn]
  · rw [hu]
    rfl
  · exact buffers
  · rw [hu] at reported ⊢
    exact reported
  · rw [hu]
    exact State.onlyClasses_reportCause _ .poolLow _

theorem State.isTransferred_congr {s t : State} {b : Fin 64} (h : t.pool[b] = s.pool[b]) : t.isTransferred b = s.isTransferred b := by
  unfold State.isTransferred
  rw [h]

/-- Messages placed after one that was placed. -/
theorem State.transferPlaced.cons {s u v : State} {i : Fin 48} {m : TransferMessage} {ms : List TransferMessage} {b : Fin 64}
    {placed : List (Fin 64)} (h : s.transferPlaced u i [m] [b]) (k : u.transferPlaced v i ms placed)
    (listed : ∀ c ∈ (s.record i).messages, s.pool[c] ≠ none) : s.transferPlaced v i (m :: ms) (b :: placed) := by
  have here : u.pool[b] = some (m.placed i) := h.filled 0 b m rfl rfl
  have fresh : b ∉ placed := fun hb => by
    have free := k.free b hb
    rw [here] at free
    exact absurd free (by simp)
  have free : s.pool[b] = none := h.free b (List.mem_singleton_self b)
  have apart (c : Fin 64) (e : c ≠ b) : u.pool[c] = s.pool[c] := h.beside c (by simpa using e)
  have params : u.params = s.params := by rw [h.frame]
  refine { length := ?_, nodup := List.nodup_cons.2 ⟨fresh, k.nodup⟩, free := fun c hc => ?_, own := ?_, others := fun j e => ?_,
           beside := fun c hc => ?_, filled := fun n c x hn hx => ?_, frame := ?_, buffers := ?_, reported := ?_, classes := ?_ }
  · rw [List.length_cons, List.length_cons, k.length]
  · rcases List.mem_cons.mp hc with rfl | hc
    · exact free
    · rw [← apart c fun e => fresh (e ▸ hc)]
      exact k.free c hc
  · have notListed : b ∉ (s.record i).messages := fun hb => listed b hb free
    have transferred : u.isTransferred b = true := by
      unfold State.isTransferred
      rw [here]
      rfl
    have list := State.listWith_cons (placed := placed) notListed transferred fun c e => State.isTransferred_congr (apart c e)
    rw [k.own, h.own]
    simp only [list]
  · rw [k.others j e, h.others j e]
  · obtain ⟨ne, hc⟩ := not_or.mp fun h => hc (List.mem_cons.mpr h)
    rw [k.beside c hc, apart c ne]
  · cases n with
    | zero =>
        obtain rfl : b = c := by simpa using hn
        obtain rfl : m = x := by simpa using hx
        rw [k.beside b fresh, here]
    | succ n => exact k.filled n c x (by simpa using hn) (by simpa using hx)
  · have first := h.frame
    have second := k.frame
    generalize u.roster = r at first
    generalize u.pool = p at first
    generalize u.conditions = c at first
    rw [first] at second
    exact second
  · rw [k.buffers, h.buffers]
    simp only [List.length_cons, List.length_nil]
    omega
  · obtain ⟨moved, -⟩ := h.reported
    obtain ⟨moved', kept'⟩ := k.reported
    refine ⟨fun _ => ?_, fun e => absurd (by simp) e⟩
    have one := moved (by simp)
    by_cases more : placed = []
    · have flags := kept' (by simpa using more)
      have count : v.freeBuffers = u.freeBuffers := by rw [k.buffers, more]; rfl
      unfold State.classReported at one ⊢
      rw [flags, count]
      exact one
    · have two := moved' more
      rw [params] at two
      exact one.trans two
  · exact fun c hc => (k.classes c hc).trans (h.classes c hc)

theorem State.hasRoom_buffers {s : State} {i : Fin 48} :
    s.hasRoom i = true ↔ (s.record i).messages.length < s.params.recordLimit ∧ 0 < s.freeBuffers := by
  rw [State.hasRoom_iff, ← Option.isSome_iff_ne_none, s.freeBuffer_isSome_iff, s.freeBuffers_eq, List.countP_pos_iff]
  simp

/-- The messages of a TRANSFER that fit are placed, in their order, and the rest are dropped. -/
theorem State.placeMessages_placed {i : Fin 48} (ms : List TransferMessage) : ∀ (s : State) (k n : Nat),
    (∀ c ∈ (s.record i).messages, s.pool[c] ≠ none) →
    n = Nat.min ms.length (Nat.min (s.params.recordLimit - (s.record i).messages.length) s.freeBuffers) →
    ∃ v placed, s.placeMessages i k ms = (v, k + n, ms.drop n) ∧ placed.length = n ∧ s.transferPlaced v i (ms.take n) placed := by
  induction ms with
  | nil =>
      intro s k n _ hn
      obtain rfl : n = 0 := by rw [hn]; exact Nat.zero_min _
      exact ⟨s, [], rfl, rfl, State.transferPlaced.nothing s i⟩
  | cons m ms ih =>
      intro s k n listed hn
      by_cases room : s.hasRoom i = true
      · obtain ⟨b, one⟩ := State.placeMessage_transferred room m
        obtain ⟨space, buffers⟩ := State.hasRoom_buffers.1 room
        obtain ⟨u, hu⟩ : ∃ u, u = s.placeMessage (m.placed i) := ⟨_, rfl⟩
        rw [← hu] at one
        have params : u.params = s.params := by rw [one.frame]
        have length : (u.record i).messages.length = (s.record i).messages.length + 1 := by
          have parts := congrArg List.length (List.takeWhile_append_dropWhile (p := s.isTransferred) (l := (s.record i).messages))
          rw [List.length_append] at parts
          rw [one.own]
          simp only [State.listWith, List.length_append, List.length_singleton]
          omega
        have count : u.freeBuffers = s.freeBuffers - 1 := one.buffers
        have listed' : ∀ c ∈ (u.record i).messages, u.pool[c] ≠ none := by
          intro c hc
          by_cases e : c = b
          · rw [e, one.filled 0 b m rfl rfl]
            simp
          · rw [one.beside c (by simpa using e)]
            rw [one.own] at hc
            simp only [State.listWith, List.mem_append, List.mem_singleton, e, or_false] at hc
            exact listed c (hc.elim (fun h => (List.takeWhile_prefix _).subset h) fun h => (List.dropWhile_suffix _).subset h)
        obtain ⟨p, rfl⟩ : ∃ p, n = p + 1 := by
          refine ⟨n - 1, ?_⟩
          simp only [List.length_cons, Nat.min_def] at hn
          split_ifs at hn <;> omega
        obtain ⟨v, placed, run, size, rest⟩ := ih u (k + 1) p listed' (by
          rw [params, length, count]
          simp only [List.length_cons, Nat.min_def] at hn ⊢
          split_ifs at hn ⊢ <;> omega)
        refine ⟨v, b :: placed, ?_, by rw [List.length_cons, size], ?_⟩
        · rw [State.placeMessages, if_pos room, ← hu, run]
          simp only [List.drop_succ_cons, Prod.mk.injEq, true_and, and_true]
          omega
        · rw [List.take_succ_cons]
          exact one.cons rest listed
      · have full : n = 0 := by
          have shut : ¬ ((s.record i).messages.length < s.params.recordLimit ∧ 0 < s.freeBuffers) :=
            fun h => room (State.hasRoom_buffers.2 h)
          simp only [List.length_cons, Nat.min_def] at hn
          split_ifs at hn <;> omega
        subst full
        refine ⟨s, [], ?_, rfl, State.transferPlaced.nothing s i⟩
        rw [State.placeMessages, if_neg room]
        rfl

end Sys2Proof.Machine

/-! TRANSFER, TAKEN and REFUSED. -/

namespace Sys2Proof.Machine

/-! ## A TRANSFER taken (R146, R147, R160) -/

/-- The NOTEs of dropped messages, in their order. -/
def State.noteDropped (s : State) (car : Nat) (dropped : List TransferMessage) : State :=
  dropped.foldl (fun s m => s.noteFor car m.source m.receipt .dropped) s

theorem State.noteDropped_recordsSent (car : Nat) (dropped : List TransferMessage) :
    ∀ s : State, s.recordsSent (s.noteDropped car dropped) := by
  induction dropped with
  | nil => exact fun s => State.recordsSent.refl s
  | cons m dropped ih =>
      intro s
      exact (s.noteFor_recordsSent car m.source m.receipt .dropped).trans (ih _)

/-- What the NOTEs of dropped messages leave alone. -/
theorem State.noteDropped_kept (s : State) (car : Nat) (dropped : List TransferMessage) :
    let t := s.noteDropped car dropped
    t.pool = s.pool ∧ t.host = s.host ∧ t.cells = s.cells ∧ t.conditions = s.conditions ∧ t.sweep = s.sweep ∧ t.quiet = s.quiet :=
  ⟨foldl_keep State.pool _ (fun _ _ => State.noteFor_pool ..) _ _, foldl_keep State.host _ (fun _ _ => State.noteFor_host ..) _ _,
   foldl_keep State.cells _ (fun _ _ => State.noteFor_cells ..) _ _,
   foldl_keep State.conditions _ (fun _ _ => State.noteFor_conditions ..) _ _,
   foldl_keep State.sweep _ (fun _ _ => State.noteFor_sweep ..) _ _, foldl_keep State.quiet _ (fun _ _ => State.noteFor_quiet ..) _ _⟩

/-- A record's placement closed: what was dropped is noted, and the claim is over (R146). -/
def State.closeTransfer (v : State) (i : Fin 48) (sender car cls : Nat) (dropped : List TransferMessage) : State :=
  (((v.dropTransferred i car dropped).modifyRecord i
    fun r => { r with cls := some cls, origin := some sender, handover := none }).offerReason i .handedIn).countPlaced i

theorem State.placeTransfer_eq {s v : State} {i : Fin 48} {sender car cls n : Nat} {ms : List TransferMessage}
    (h : s.placeMessages i 0 ms = (v, n, ms.drop n)) :
    s.placeTransfer i sender car cls ms = (v.closeTransfer i sender car cls (ms.drop n)).sendToward sender (.taken car n) := by
  unfold State.placeTransfer
  rw [h]
  rfl

/-- A placement closed, on all that it touches. -/
structure State.transferClosed (v u : State) (i : Fin 48) (sender car cls : Nat) (dropped : List TransferMessage) : Prop where
  own : u.record i =
    { v.record i with
      cls := some cls, origin := some sender, handover := none,
      soft := if dropped ≠ [] then some .partialTransfer else (v.record i).soft }
  others : ∀ j, j ≠ i → (v.record j).sameButSent (u.record j)
  ports : u.ports = (v.noteDropped car dropped).ports
  soft : dropped ≠ [] → v.told u i .softFault
  handed : v.told u i .handedIn
  pool : u.pool = v.pool
  cells : u.cells = v.cells
  conditions : u.conditions = v.conditions
  quiet : u.quiet = v.quiet
  sweep : u.sweep =
    if v.sweep.state = .running ∧ (v.record i).mark = .none then
      { v.sweep with entered := if v.sweep.entered < 255 then v.sweep.entered + 1 else v.sweep.entered }
    else v.sweep

theorem State.dropTransferred_eq (v : State) (i : Fin 48) (car : Nat) (dropped : List TransferMessage) :
    v.dropTransferred i car dropped =
      if dropped ≠ [] then (v.noteDropped car dropped).setSoft i .partialTransfer else v.noteDropped car dropped := by
  cases dropped with
  | nil => rfl
  | cons m dropped =>
      rw [if_pos (by simp)]
      rfl

theorem State.countPlaced_sweep (s : State) (i : Fin 48) : (s.countPlaced i).sweep =
    if s.sweep.state = .running ∧ (s.record i).mark = .none then
      { s.sweep with entered := if s.sweep.entered < 255 then s.sweep.entered + 1 else s.sweep.entered }
    else s.sweep := by
  unfold State.countPlaced State.countEntered
  by_cases mark : (s.record i).mark = .none
  · by_cases running : s.sweep.state = .running
    · simp only [mark, running, beq_self_eq_true, if_true, and_self]
      rfl
    · simp [mark, running]
  · simp [mark]

theorem State.countPlaced_frame (s : State) (i : Fin 48) : s.countPlaced i = { s with sweep := (s.countPlaced i).sweep } := by
  unfold State.countPlaced State.countEntered
  (repeat' split) <;> rfl

theorem State.closeTransfer_closed (v : State) (i : Fin 48) (sender car cls : Nat) (dropped : List TransferMessage) :
    v.transferClosed (v.closeTransfer i sender car cls dropped) i sender car cls dropped := by
  obtain ⟨n, hn⟩ : ∃ n, n = v.noteDropped car dropped := ⟨_, rfl⟩
  have sent := v.noteDropped_recordsSent car dropped
  obtain ⟨npool, nhost, ncells, nconditions, nsweep, nquiet⟩ := v.noteDropped_kept car dropped
  rw [← hn] at sent npool nhost ncells nconditions nsweep nquiet
  obtain ⟨d, hd⟩ : ∃ d, d = v.dropTransferred i car dropped := ⟨_, rfl⟩
  have deq : d = if dropped ≠ [] then n.setSoft i .partialTransfer else n := by rw [hd, hn, State.dropTransferred_eq]
  have drecord (j : Fin 48) : d.record j =
      if j = i then { n.record i with soft := if dropped ≠ [] then some .partialTransfer else (n.record i).soft } else n.record j := by
    rw [deq]
    by_cases some_ : dropped = []
    · by_cases e : j = i <;> simp [some_, e]
    · simp [some_, State.setSoft_record]
  have dtells : n.tells d i (if dropped ≠ [] then [.softFault] else []) := by
    rw [deq]
    by_cases some_ : dropped = []
    · simp only [some_, ne_eq, not_true, if_false]
      exact State.tells_nothing i rfl
    · simp only [some_, ne_eq, not_false_eq_true, if_true]
      exact n.setSoft_tells i .partialTransfer
  have dkept : d = { n with roster := d.roster, host := d.host } := by
    rw [deq]
    split
    · unfold State.setSoft State.offerReason
      split <;> rfl
    · rfl
  obtain ⟨m, hm⟩ : ∃ m, m = d.modifyRecord i fun r => { r with cls := some cls, origin := some sender, handover := none } := ⟨_, rfl⟩
  obtain ⟨w, hw⟩ : ∃ w, w = m.offerReason i .handedIn := ⟨_, rfl⟩
  have step : v.closeTransfer i sender car cls dropped = w.countPlaced i := by rw [hw, hm, hd]; rfl
  have wkept : w = { n with roster := w.roster, host := w.host } := by
    have offered : w = { m with host := w.host } := by
      rw [hw]
      unfold State.offerReason
      split <;> rfl
    rw [hm] at offered
    generalize w.host = h at offered ⊢
    rw [offered, dkept]
    rfl
  have wroster : w.roster = m.roster := by rw [hw, State.offerReason_roster]
  have wown : w.record i =
      { n.record i with
        cls := some cls, origin := some sender, handover := none,
        soft := if dropped ≠ [] then some .partialTransfer else (n.record i).soft } := by
    rw [State.record_congr wroster, hm, State.record_modifyRecord, drecord, if_pos rfl]
  have wothers (j : Fin 48) (e : j ≠ i) : w.record j = n.record j := by
    rw [State.record_congr wroster, hm, State.record_modifyRecord_ne _ _ e.symm, drecord, if_neg e]
  have tells : v.tells w i ((if dropped ≠ [] then [.softFault] else []) ++ [.handedIn]) := by
    have params : d.params = n.params := by rw [dkept]
    have first : v.tells d i _ := dtells.before (State.params_of_calm (State.calm_of_quiet nquiet)) (by rw [nhost])
    have second : d.tells w i [.handedIn] := by
      rw [hw]
      exact (m.tells_offerReason i .handedIn).before (by rw [hm]; rfl) (by rw [hm]; rfl)
    exact first.trans second (params.trans (State.params_of_calm (State.calm_of_quiet nquiet)))
  have base : { n.record i with
      cls := some cls, origin := some sender, handover := none,
      soft := if dropped ≠ [] then some .partialTransfer else (n.record i).soft } =
      { v.record i with
        cls := some cls, origin := some sender, handover := none,
        soft := if dropped ≠ [] then some .partialTransfer else (v.record i).soft } := by
    obtain e | ⟨c, -, e⟩ := sent i
    · rw [e]
    · rw [e]
  have mark : (w.record i).mark = (v.record i).mark := by rw [wown, base]
  have sweep := w.countPlaced_sweep i
  have wsweep : w.sweep = v.sweep := by rw [wkept, nsweep]
  rw [mark, wsweep] at sweep
  have frame := w.countPlaced_frame i
  rw [step]
  generalize w.countPlaced i = u at sweep frame ⊢
  have roster : u.roster = w.roster := by rw [frame]
  have host : u.host = w.host := by rw [frame]
  refine { own := ?_, others := fun j e => ?_, ports := ?_, soft := fun some_ => ?_, handed := ?_, pool := ?_, cells := ?_,
           conditions := ?_, quiet := ?_, sweep := sweep }
  · rw [State.record_congr roster, wown, base]
  · rw [State.record_congr roster, wothers j e]
    exact sent j
  · rw [frame, wkept, hn]
  · rw [if_pos some_] at tells
    exact State.tells.told (earlier := []) (later := [.handedIn]) (tells.after (by rw [host]))
      fun other h => .inr (by rw [List.mem_singleton.mp h]; decide)
  · exact State.tells.told (later := []) (tells.after (by rw [host])) (by simp)
  · rw [frame, wkept, npool]
  · rw [frame, wkept, ncells]
  · rw [frame, wkept, nconditions]
  · rw [frame, wkept]
    exact nquiet

theorem Record.claimsFrom_iff (r : Record) (station : Nat) :
    r.claimsFrom station = true ↔ ∃ c, r.handover = some c ∧ c.role = .claiming ∧ c.peer = station := by
  unfold Record.claimsFrom
  cases r.handover with
  | none => simp
  | some c => simp

theorem Record.handingTo_iff (r : Record) (station : Nat) :
    r.handingTo station = true ↔ r.contact = .outbound ∧ ∃ c, r.handover = some c ∧ c.role = .handing ∧ c.peer = station := by
  unfold Record.handingTo
  cases r.handover with
  | none => simp
  | some c => simp

/-- The cases of R146 and R147. -/
theorem State.takeTransfer_claimed {s : State} {p : Port} {sender car cls : Nat} {ms : List TransferMessage} {i : Fin 48}
    (found : s.lookup car = some i) (claims : (s.record i).claimsFrom sender = true) :
    s.takeTransfer p sender car cls ms = s.placeTransfer i sender car cls ms := by
  simp only [State.takeTransfer, found, claims, if_true]

theorem State.takeTransfer_again {s : State} {p : Port} {sender car cls : Nat} {ms : List TransferMessage} {i : Fin 48}
    (found : s.lookup car = some i) (none_ : (s.record i).handover = none) (origin : (s.record i).origin = some sender) :
    s.takeTransfer p sender car cls ms = s.sendToward sender (.taken car 0) := by
  have free : (s.record i).claimsFrom sender = false := by
    unfold Record.claimsFrom
    rw [none_]
  simp only [State.takeTransfer, found, free, Bool.false_eq_true, if_false, origin, none_, beq_self_eq_true, Option.isNone_none,
    Bool.and_self, if_true]

theorem State.takeTransfer_unclaimed {s : State} {p : Port} {sender car cls : Nat} {ms : List TransferMessage}
    (h : s.lookup car = none ∨ ∃ i, s.lookup car = some i ∧
      ((∃ c, (s.record i).handover = some c ∧ (c.role = .handing ∨ c.peer ≠ sender)) ∨
        ((s.record i).handover = none ∧ (s.record i).origin ≠ some sender))) :
    s.takeTransfer p sender car cls ms = s.countCheckError p := by
  obtain unheld | ⟨i, found, other⟩ := h
  · simp only [State.takeTransfer, unheld]
  · obtain ⟨c, context, other⟩ | ⟨none_, origin⟩ := other
    · have free : (s.record i).claimsFrom sender = false := by
        rw [← Bool.not_eq_true, Record.claimsFrom_iff]
        rintro ⟨d, hd, role, peer⟩
        obtain rfl : c = d := Option.some.inj (context.symm.trans hd)
        obtain handing | ne := other
        · rw [role] at handing
          exact absurd handing (by decide)
        · exact ne peer
      simp [State.takeTransfer, found, free, context]
    · have free : (s.record i).claimsFrom sender = false := by
        unfold Record.claimsFrom
        rw [none_]
      simp [State.takeTransfer, found, free, origin]

/-- A handover frame for this station, from the state with its queue shortened, in which all but the ports is as before. -/
theorem exec_handoverFrame_from {s s' : State} {p : Port} {f : BackboneFrame} {rest : List BackboneFrame} {car : Nat}
    (hr : s.resetHeld = false) (station : s.params.station ≠ 0) (head : (s.port p).receive = f :: rest)
    (taken : s' = s.setPort p { s.port p with receive := rest }) (here : f.dest = 0 ∨ f.dest = s.params.station)
    (names : f.payload.handoverCar = some car) (free : ∀ i, s.lookup car = some i → s.inExchange i = false) :
    s' = { s with ports := s'.ports } ∧ exec (.receiveQueueTake p) s = .next (s'.takeHandoverFrame p f) := by
  have frame : s' = { s with ports := s'.ports } := by rw [taken, ← State.setPort_frame]
  have run := exec_handoverFrame (ports := s'.ports) hr station head (frame.symm.trans taken) here names free
  rw [← frame] at run
  exact ⟨frame, run⟩

theorem State.takeHandoverFrame_transfer {s : State} {p : Port} {f : BackboneFrame} {car cls : Nat} {ms : List TransferMessage}
    (h : f.payload = .transfer car cls ms) : s.takeHandoverFrame p f = s.takeTransfer p f.source car cls ms := by
  unfold State.takeHandoverFrame
  rw [h]

theorem State.takeHandoverFrame_taken {s : State} {p : Port} {f : BackboneFrame} {car n : Nat} (h : f.payload = .taken car n) :
    s.takeHandoverFrame p f = s.takeTaken f.source car := by
  unfold State.takeHandoverFrame
  rw [h]

theorem State.takeHandoverFrame_refused {s : State} {p : Port} {f : BackboneFrame} {car : Nat} {reason : RefusedReason}
    (h : f.payload = .refused car reason) : s.takeHandoverFrame p f = s.takeRefused f.source car reason := by
  unfold State.takeHandoverFrame
  rw [h]

/-- The placement of a TRANSFER at its claimant, in the terms of the statement. -/
theorem State.placeTransfer_places {s s' : State} {q : Port} {f : BackboneFrame} {car cls n : Nat} {ms : List TransferMessage}
    {i : Fin 48} (frame : s' = { s with ports := s'.ports }) (toward : portToward s.params.station f.source = some q)
    (consistent : s.poolConsistent)
    (hn : n = Nat.min ms.length (Nat.min (s.params.recordLimit - (s.record i).messages.length) s.freeBuffers)) :
    ∃ (t u v : State) (placed : List (Fin 64)), s'.placeTransfer i f.source car cls ms = t ∧ placed.length = n ∧
      placed.Nodup ∧ (∀ b ∈ placed, s.pool[b] = none) ∧
      v.record i =
        { s.record i with messages :=
            (s.record i).messages.takeWhile s.isTransferred ++ placed
              ++ (s.record i).messages.dropWhile s.isTransferred } ∧
      (∀ b : Fin 64, b ∉ placed → v.pool[b] = s.pool[b]) ∧
      (∀ (k : Nat) (b : Fin 64) (m : TransferMessage), placed[k]? = some b → ms[k]? = some m →
        v.pool[b] = some { target := i, urgency := m.urgency, source := m.source, receipt := m.receipt,
                           attempts := m.attempts, body := m.body, placement := .transferred }) ∧
      (∀ j, j ≠ i → v.record j = s.record j) ∧ v.ports = s'.ports ∧ v.params = s.params ∧ v.cells = s.cells ∧
      u.ports = ((ms.drop n).foldl (fun w m => w.noteFor car m.source m.receipt .dropped) v).ports ∧
      u.record i =
        { v.record i with
          cls := some cls, origin := some f.source, handover := none,
          soft := if n < ms.length then some .partialTransfer else (s.record i).soft } ∧
      (n < ms.length → s.told u i .softFault) ∧ s.told u i .handedIn ∧
      (∀ j, j ≠ i → (s.record j).sameButSent (u.record j)) ∧ u.pool = v.pool ∧ u.params = s.params ∧
      u.cells = s.cells ∧ u.inbound = s.inbound ∧ s.poolReported t (0 < n) ∧
      s.onlyClasses t [.poolLow] ∧
      u.sweep =
        (if s.sweep.state = .running ∧ (s.record i).mark = .none then
          { s.sweep with entered := if s.sweep.entered < 255 then s.sweep.entered + 1 else s.sweep.entered }
         else s.sweep) ∧
      t = u.offerTraffic q
        { source := s.params.station, dest := f.source, hop := 255, payload := .taken car n } := by
  obtain ⟨member, -⟩ := consistent
  have listed : ∀ c ∈ (s'.record i).messages, s'.pool[c] ≠ none := by
    rw [frame]
    intro c hc
    obtain ⟨m, held, -⟩ := (member i c).1 hc
    exact fun e => absurd (held.symm.trans e) (by simp)
  obtain ⟨v, placed, run, length, made⟩ := State.placeMessages_placed ms s' 0 n listed (by rw [frame]; exact hn)
  rw [Nat.zero_add] at run
  obtain ⟨u, hu⟩ : ∃ u, u = v.closeTransfer i f.source car cls (ms.drop n) := ⟨_, rfl⟩
  have closed := v.closeTransfer_closed i f.source car cls (ms.drop n)
  rw [← hu] at closed
  have vparams : v.params = s.params := by rw [made.frame, frame]
  have uparams : u.params = s.params := (State.params_of_calm (State.calm_of_quiet closed.quiet)).trans vparams
  have step : s'.placeTransfer i f.source car cls ms = u.offerTraffic q
      { source := s.params.station, dest := f.source, hop := 255, payload := .taken car n } := by
    rw [State.placeTransfer_eq run, ← hu, State.sendToward_port (by rw [uparams]; exact toward), State.originate, uparams]
  have dropped : ms.drop n ≠ [] ↔ n < ms.length := by rw [ne_eq, List.drop_eq_nil_iff, Nat.not_le]
  have vrecord (j : Fin 48) (e : j ≠ i) : v.record j = s.record j := by rw [made.others j e, frame]; rfl
  have own := made.own
  have soft : (v.record i).soft = (s.record i).soft := by rw [own, frame]; rfl
  have mark : (v.record i).mark = (s.record i).mark := by rw [own, frame]; rfl
  have sweep := closed.sweep
  have vsweep : v.sweep = s.sweep := by rw [made.frame, frame]
  rw [mark, vsweep] at sweep
  have uown := closed.own
  rw [soft] at uown
  simp only [dropped] at uown
  have told {reason : Reason} (h : v.told u i reason) : s.told u i reason := h.of_params vparams
  obtain ⟨t, ht⟩ : ∃ t, t = s'.placeTransfer i f.source car cls ms := ⟨_, rfl⟩
  have flags (c : ConditionClass) : t.classFlags c = v.classFlags c :=
    State.classFlags_congr (by rw [ht, step, State.offerTraffic_conditions, closed.conditions]) c
  have buffers : t.freeBuffers = v.freeBuffers := by
    unfold State.freeBuffers
    rw [ht, step, State.offerTraffic_pool, closed.pool]
  have some_ : placed ≠ [] ↔ 0 < n := by rw [← length, List.length_pos_iff]
  rw [← ht] at step ⊢
  refine ⟨_, u, v, placed, rfl, length, made.nodup, fun b hb => ?_, ?_, fun b hb => ?_, fun k b m hk hm => ?_, vrecord, ?_, vparams, ?_,
    closed.ports, uown, fun some_ => told (closed.soft (dropped.2 some_)), told closed.handed, fun j e => ?_, closed.pool, uparams, ?_,
    ?_, ?_, ?_, sweep, step⟩
  · rw [frame] at made
    exact made.free b hb
  · rw [own, frame]
    rfl
  · rw [made.beside b hb, frame]
  · refine made.filled k b m hk ?_
    rw [List.getElem?_take_of_lt, hm]
    rw [← length]
    exact (List.getElem?_eq_some_iff.1 hk).1
  · rw [made.frame]
  · rw [made.frame, frame]
  · rw [← vrecord j e]
    exact closed.others j e
  · rw [closed.cells, made.frame, frame]
  · rw [State.inbound_of_quiet closed.quiet, made.frame, frame]
  · obtain ⟨moved, kept⟩ := made.reported
    simp only [State.poolReported, State.classReported, flags, buffers] at moved kept ⊢
    rw [some_] at moved kept
    rw [frame] at moved kept
    exact ⟨moved, kept⟩
  · have classes := made.classes
    rw [frame] at classes
    exact fun c hc => (flags c).trans (classes c hc)

/-! ## TAKEN and REFUSED (R148, R149) -/

theorem State.freeListed_silent (car : Nat) (s : State) (b : Fin 64) : (State.freeListed false car s b).ports = s.ports := by
  unfold State.freeListed
  split
  · exact State.setBuffer_ports ..
  · rfl

/-- A record that becomes FREE by TAKEN sends no NOTE. -/
theorem State.becomeFree_silent (s : State) (i : Fin 48) (reason : Option Reason) :
    (s.becomeFree i false reason).ports = s.ports := by
  obtain ⟨v, hv⟩ : ∃ v, v = (s.withdrawGrant i).freeCellsOf i := ⟨_, rfl⟩
  have ports : v.ports = s.ports := by simp [hv]
  have freed : (v.freeMessages i false).ports = v.ports := by
    unfold State.freeMessages
    rw [State.modifyRecord_ports]
    exact foldl_keep State.ports _ (fun t b => State.freeListed_silent _ t b) _ _
  have rest : (s.becomeFree i false reason).ports = (v.freeMessages i false).ports := by
    unfold State.becomeFree
    rw [hv]
    simp
  rw [rest, freed, ports]

theorem State.takeTaken_freed {s : State} {sender car : Nat} {i : Fin 48} (found : s.lookup car = some i)
    (h : (s.record i).handingTo sender = true ∨ ((s.record i).contact = .paging ∧ (s.record i).lastHanding = some sender)) :
    s.takeTaken sender car = s.becomeFree i false (some .handedOut) := by
  simp only [State.takeTaken, found]
  rw [if_pos]
  simpa using h

theorem State.takeTaken_ignored {s : State} {sender car : Nat} {i : Fin 48} (found : s.lookup car = some i)
    (handing : (s.record i).handingTo sender = false)
    (paging : ¬ ((s.record i).contact = .paging ∧ (s.record i).lastHanding = some sender)) : s.takeTaken sender car = s := by
  simp only [State.takeTaken, found]
  rw [if_neg]
  simpa [handing] using paging

theorem State.takeRefused_ignored {s : State} {sender car : Nat} {reason : RefusedReason}
    (h : s.lookup car = none ∨ reason = .busy ∨ ∃ i, s.lookup car = some i ∧
      ∀ c, (s.record i).handover = some c → c.role = .handing ∨ c.peer ≠ sender) : s.takeRefused sender car reason = s := by
  cases found : s.lookup car with
  | none => simp only [State.takeRefused, found]
  | some i =>
      cases claims : (s.record i).claimsFrom sender with
      | false => simp only [State.takeRefused, found, claims, Bool.false_eq_true, if_false]
      | true =>
          obtain ⟨c, context, role, peer⟩ := (Record.claimsFrom_iff _ _).1 claims
          obtain unheld | busy | ⟨j, held, other⟩ := h
          · exact absurd (found.symm.trans unheld) (by simp)
          · simp only [State.takeRefused, found, claims, if_true, busy]
          · obtain rfl : i = j := Option.some.inj (found.symm.trans held)
            rcases other c context with handing | ne
            · rw [role] at handing
              exact absurd handing (by decide)
            · exact absurd peer ne

/-- A claim refused drops its context, and releases a record that is in contact unless its car was not held. -/
theorem State.takeRefused_claiming {s : State} {sender car : Nat} {i : Fin 48} (found : s.lookup car = some i)
    (claims : (s.record i).claimsFrom sender = true) (reason : RefusedReason) :
    s.takeRefused sender car reason =
      match reason with
      | .notHeld => s.dropContext i
      | .kept | .contested => s.refuseClaiming i
      | .busy => s := by
  unfold State.takeRefused
  rewrite [found]
  cases reason <;> exact if_pos claims

theorem State.refuseClaiming_apart {s : State} {i : Fin 48}
    (h : (s.record i).contact ≠ .granted ∧ (s.record i).contact ≠ .present) : s.refuseClaiming i = s.dropContext i := by
  obtain ⟨granted, present⟩ := h
  have contact : ((s.dropContext i).record i).contact = (s.record i).contact := by
    rw [State.dropContext, State.record_modifyRecord]
  unfold State.refuseClaiming
  simp only [contact, beq_iff_eq, granted, present, Bool.or_eq_true, or_self, if_false]

theorem State.refuseClaiming_contact {s : State} {i : Fin 48}
    (h : (s.record i).contact = .granted ∨ (s.record i).contact = .present) :
    s.refuseClaiming i = (s.dropContext i).releaseRecord i := by
  have contact : ((s.dropContext i).record i).contact = (s.record i).contact := by
    rw [State.dropContext, State.record_modifyRecord]
  unfold State.refuseClaiming
  simp only [contact, beq_iff_eq, Bool.or_eq_true, h, if_true]

theorem State.dropContext_eq (s : State) (i : Fin 48) :
    s.dropContext i = s.setRecord i { s.record i with handover := none } := rfl

/-- Settles O50: TRANSFER by the claimant's context, TAKEN by the handing, REFUSED by its reason. -/
theorem transfersTakensAndRefusals : Obligations.TransfersTakensAndRefusals := by
  refine ⟨?_, ?_, ?_⟩
  · intro s s' p q f rest car cls ms hr station head taken here payload toward free
    obtain ⟨frame, run⟩ := exec_handoverFrame_from hr station head taken here (by rw [payload]; rfl) free
    rw [run, State.takeHandoverFrame_transfer payload]
    have params : s'.params = s.params := by rw [frame]
    have lookup : s'.lookup car = s.lookup car := by rw [frame]; rfl
    have record (i : Fin 48) : s'.record i = s.record i := by rw [frame]; rfl
    have errors : (s'.port p).checkErrors = (s.port p).checkErrors := by rw [taken, State.port_setPort]
    refine ⟨fun i c n consistent found context role peer hn => ?_, fun i found none_ origin => ?_, fun other => ?_⟩
    · have claims : (s'.record i).claimsFrom f.source = true :=
        (Record.claimsFrom_iff _ _).2 ⟨c, by rw [record, context], role, peer⟩
      obtain ⟨t, u, v, placed, place, places⟩ := State.placeTransfer_places frame toward consistent (car := car) (cls := cls) hn
      refine ⟨t, u, v, placed, ?_, places⟩
      rw [State.takeTransfer_claimed (lookup.trans found) claims, place]
    · rw [State.takeTransfer_again (lookup.trans found) (by rw [record, none_]) (by rw [record, origin]),
        State.sendToward_port (by rw [params]; exact toward), State.originate, params]
    · rw [State.takeTransfer_unclaimed (by simpa only [lookup, record] using other), ← errors]
      rfl
  · intro s s' p f rest car n hr station head taken here payload free
    obtain ⟨frame, run⟩ := exec_handoverFrame_from hr station head taken here (by rw [payload]; rfl) free
    rw [run, State.takeHandoverFrame_taken payload]
    have lookup : s'.lookup car = s.lookup car := by rw [frame]; rfl
    have record (i : Fin 48) : s'.record i = s.record i := by rw [frame]; rfl
    refine ⟨fun unheld => ?_, fun i found => ⟨fun ends => ?_, fun handing paging => ?_, Record.handingTo_iff _ _⟩⟩
    · simp only [State.takeTaken, lookup, unheld]
    · have freed := s'.becomeFree_freed i false (some .handedOut)
      have ports := s'.becomeFree_silent i (some .handedOut)
      have handed := s'.becomeFree_told_reason i false .handedOut
      have summons (h : (s'.record i).summoned = true) : s'.told (s'.becomeFree i false (some .handedOut)) i (.summonEnded .cancelled) :=
        State.becomeFree_told_summon h false (by rintro r ⟨⟩; exact .inr (by decide))
      rw [State.takeTaken_freed (lookup.trans found) (by rw [record]; exact ends)]
      generalize s'.becomeFree i false (some .handedOut) = t at freed ports handed summons ⊢
      generalize s'.ports = q at frame ports
      subst frame
      exact ⟨t, rfl, freed, ports, handed, summons⟩
    · rw [State.takeTaken_ignored (lookup.trans found) (by rw [record]; exact handing) (by rw [record]; exact paging)]
  · intro s s' p f rest car reason hr station head taken here payload free
    obtain ⟨frame, run⟩ := exec_handoverFrame_from hr station head taken here (by rw [payload]; rfl) free
    rw [run, State.takeHandoverFrame_refused payload]
    have lookup : s'.lookup car = s.lookup car := by rw [frame]; rfl
    have record (i : Fin 48) : s'.record i = s.record i := by rw [frame]; rfl
    refine ⟨fun other => ?_, fun i c found context role peer => ?_⟩
    · rw [State.takeRefused_ignored (by simpa only [lookup, record] using other)]
    · have claims : (s'.record i).claimsFrom f.source = true :=
        (Record.claimsFrom_iff _ _).2 ⟨c, by rw [record, context], role, peer⟩
      rw [State.takeRefused_claiming (lookup.trans found) claims]
      refine ⟨fun apart => ?_, fun refused contact => ?_⟩
      · have dropped : s'.dropContext i = s'.setRecord i { s.record i with handover := none } := by
          rw [State.dropContext_eq, record]
        obtain rfl | ⟨rfl | rfl, granted, present⟩ := apart
        · rw [← dropped]
        · rw [← dropped, ← State.refuseClaiming_apart (by rw [record]; exact ⟨granted, present⟩)]
        · rw [← dropped, ← State.refuseClaiming_apart (by rw [record]; exact ⟨granted, present⟩)]
      · have refuse : s'.refuseClaiming i = (s'.dropContext i).releaseRecord i :=
          State.refuseClaiming_contact (by rw [record]; exact contact)
        obtain ⟨u, hu⟩ : ∃ u, u = s'.dropContext i := ⟨_, rfl⟩
        have released := u.releaseRecord_released i
        have own : u.record i = { s.record i with handover := none } := by
          rw [hu, State.dropContext_eq, State.record_setRecord, record]
        have others (j : Fin 48) (e : j ≠ i) : u.record j = s.record j := by
          rw [hu, State.dropContext_eq, State.record_setRecord_ne _ _ e.symm, record]
        have summoned : (u.record i).summoned = (s.record i).summoned := by rw [own]
        have base : u = { s with roster := u.roster, ports := s'.ports } := by
          rw [hu, frame]
          rfl
        have count : u.roster.summonCount = s.roster.summonCount := by
          rw [hu, frame]
          rfl
        rw [← hu] at refuse
        generalize u.releaseRecord i = t at refuse released
        refine ⟨t, ?_, ?_, fun summon => ?_, fun j e => ?_, ?_, ?_, ?_, ?_, ?_, ?_, ?_, ?_, ?_⟩
        · obtain rfl | rfl := refused
          · exact congrArg _ refuse
          · exact congrArg _ refuse
        · rw [released.own, own]
          rfl
        · have tells := released.tells
          rw [summoned, summon, if_pos rfl] at tells
          exact (State.tells.told (earlier := []) (later := []) tells (by simp)).of_params (by rw [base])
        · rw [released.others j e, others j e]
        · intro k
          have cell := released.freed.cells k
          rw [base] at cell
          simpa [lentOrPendingOf] using cell
        · have plan := released.freed.plan
          rw [base] at plan
          exact plan
        · have classes := released.freed.classes
          rw [base] at classes
          exact classes
        · rw [released.air, base]
        · rw [released.summonCount, count, summoned]
        · rw [released.pool, base]
        · rw [released.ports, base]
        · rw [released.inbound, base]
        · rw [released.params, base]

end Sys2Proof.Machine

/-! Frames by car. -/

namespace Sys2Proof.Machine

/-! ## LOCATE (R103, R130) -/

/-- A frame for this station, taken from the head of a receive queue, in a state of which only the ports have moved. -/
theorem exec_hereFrame {s s' : State} {p : Port} {f : BackboneFrame} {rest : List BackboneFrame} (hr : s.resetHeld = false)
    (station : s.params.station ≠ 0) (head : (s.port p).receive = f :: rest)
    (taken : s' = s.setPort p { s.port p with receive := rest }) (here : f.dest = 0 ∨ f.dest = s.params.station) :
    s' = { s with ports := s'.ports } ∧ exec (.receiveQueueTake p) s = .next (s'.handleHere p f) :=
  ⟨by rw [taken, ← State.setPort_frame], State.receiveQueueTake_here hr station head taken here⟩

theorem State.handleHere_locate {s : State} {p : Port} {f : BackboneFrame} {car query : Nat} (h : f.payload = .locate car query) :
    s.handleHere p f = s.locate p f car query := by
  unfold State.handleHere
  rw [h]

theorem State.handleHere_relay {s : State} {p : Port} {f : BackboneFrame} {car number : Nat} {urgency : Urgency} {receipt : Bool}
    {body : List Byte} (h : f.payload = .relay car number urgency receipt body) :
    s.handleHere p f = s.relay p f car number urgency receipt body := by
  unfold State.handleHere
  rw [h]

theorem State.sendLocated_port {s : State} {p q : Port} {dest : Nat} (h : portToward s.params.station dest = some q)
    (payload : Payload) : s.sendLocated p dest payload = s.offerTraffic q (s.originate dest payload) := by
  simp only [State.sendLocated, h]

theorem State.locatedRecord_eq (s : State) (i : Fin 48) (car query : Nat) :
    s.locatedRecord i car query = .located car query s.params.station (some (s.record i).contact) (s.record i).level
      (if (s.record i).contact = .outbound then (s.record i).handover.map HandoverContext.peer else none) := by
  simp only [State.locatedRecord, beq_iff_eq]

theorem State.canForward_iff (s : State) (p : Port) (f : BackboneFrame) :
    s.canForward p f = true ↔ s.params.inUse p = true ∧ (s.port p).neighbour ≠ .down ∧ 1 < f.hop := by
  simp [State.canForward, and_assoc]

theorem State.forward_on {s : State} {f : BackboneFrame} (h : 1 < f.hop) (arrived leaves : Port) :
    s.forward arrived leaves f = s.offerTraffic leaves { f with hop := f.hop - 1 } := by
  rw [State.forward, if_neg (by omega)]

/-- A LOCATE of a car that is not held is passed on along the line, or answered. -/
theorem State.locate_unheld {s : State} {p : Port} {f : BackboneFrame} {car query : Nat} (h : s.lookup car = none) :
    s.locate p f car query =
      if f.dest = 0 ∧ s.canForward .inbye f = true then s.offerTraffic .inbye { f with hop := f.hop - 1 }
      else s.sendLocated p f.source (s.locatedNone car query) := by
  simp only [State.locate, h, Bool.and_eq_true, beq_iff_eq]
  split_ifs with onward
  · obtain ⟨-, can⟩ := onward
    obtain ⟨-, -, more⟩ := (s.canForward_iff .inbye f).1 can
    exact State.forward_on more p .inbye
  · rfl

/-! ## RELAY (R107, R131) -/

/-- A RELAY is passed on through a port that can take it, or noted as unreachable. -/
theorem State.relayOn_eq (s : State) (arrived leaves : Port) (f : BackboneFrame) (car number : Nat) :
    s.relayOn arrived leaves f car number =
      if s.canForward leaves f = true then s.offerTraffic leaves { f with hop := f.hop - 1 }
      else s.sendNote car number .unreachable := by
  unfold State.relayOn
  split_ifs with can
  · obtain ⟨-, -, more⟩ := (s.canForward_iff leaves f).1 can
    exact State.forward_on more arrived leaves
  · rfl

theorem State.relay_posts {s : State} {p : Port} {f : BackboneFrame} {car number : Nat} {urgency : Urgency} {receipt : Bool}
    {body : List Byte} {i : Fin 48} (found : s.lookup car = some i) (accepts : (s.record i).contact.acceptsPosts = true) :
    s.relay p f car number urgency receipt body = s.relayPost car number (relayMessage i number urgency receipt body) := by
  simp only [State.relay, found, accepts, if_true]

theorem State.relay_peer {s : State} {p : Port} {f : BackboneFrame} {car number : Nat} {urgency : Urgency} {receipt : Bool}
    {body : List Byte} {i : Fin 48} (found : s.lookup car = some i) (contact : (s.record i).contact = .outbound) :
    s.relay p f car number urgency receipt body = s.relayToPeer p f i car number := by
  simp only [State.relay, found, contact]
  rfl

theorem State.relay_releasing {s : State} {p : Port} {f : BackboneFrame} {car number : Nat} {urgency : Urgency} {receipt : Bool}
    {body : List Byte} {i : Fin 48} (found : s.lookup car = some i) (contact : (s.record i).contact = .releasing) :
    s.relay p f car number urgency receipt body = s.sendNote car number .unreachable := by
  simp only [State.relay, found, contact]
  rfl

theorem State.relay_unheld {s : State} {p : Port} {f : BackboneFrame} {car number : Nat} {urgency : Urgency} {receipt : Bool}
    {body : List Byte} (h : s.lookup car = none) :
    s.relay p f car number urgency receipt body =
      if f.dest = 0 then s.relayOn p .inbye f car number else s.sendNote car number .unreachable := by
  simp only [State.relay, h, beq_iff_eq]

/-- The NOTE that a RELAY is answered with. -/
theorem State.sendNote_eq (s : State) (car number : Nat) (outcome : NoteOutcome) :
    s.sendNote car number outcome = s.offerTraffic .outbye
      { source := s.params.station, dest := 255, hop := 255, payload := .note car number outcome s.params.station } := rfl

theorem State.relayPost_full {s : State} {car number : Nat} {m : Message} (h : s.hasRoom m.target = false) :
    s.relayPost car number m = s.sendNote car number .full := by
  simp only [State.relayPost, h, Bool.false_eq_true, if_false]

theorem State.relayPost_room {s : State} {car number : Nat} {m : Message} (h : s.hasRoom m.target = true) :
    s.relayPost car number m = if m.receipt then (s.placeMessage m).sendNote car number .posted else s.placeMessage m := by
  simp only [State.relayPost, h, if_true]

/-- A TRANSFER without messages placed at its claimant. -/
theorem State.placeTransfer_empty (s : State) (i : Fin 48) (sender car cls : Nat) :
    let t := s.placeTransfer i sender car cls []
    t.record i = { s.record i with cls := some cls, origin := some sender, handover := none } ∧
      (∀ j, j ≠ i → (s.record j).sameButSent (t.record j)) ∧ t.cells = s.cells ∧ t.pool = s.pool ∧ t.quiet = s.quiet := by
  obtain ⟨u, hu⟩ : ∃ u, u = s.closeTransfer i sender car cls [] := ⟨_, rfl⟩
  have closed := s.closeTransfer_closed i sender car cls []
  rw [← hu] at closed
  have run : s.placeMessages i 0 [] = (s, 0, ([] : List TransferMessage).drop 0) := rfl
  have step := State.placeTransfer_eq (sender := sender) (car := car) (cls := cls) run
  rw [List.drop_nil, ← hu] at step
  generalize s.placeTransfer i sender car cls [] = t at step
  have sent := u.sendToward_recordsSent sender (.taken car 0)
  rw [← step] at sent
  have own : u.record i = { s.record i with cls := some cls, origin := some sender, handover := none } := by
    rw [closed.own, if_neg (by simp)]
  refine ⟨?_, fun j e => (closed.others j e).trans (sent j), ?_, ?_, ?_⟩
  · obtain e | ⟨c, context, -⟩ := sent i
    · rw [e, own]
    · rw [own] at context
      exact absurd context (by simp)
  · rw [step, State.sendToward_cells, closed.cells]
  · rw [step, State.sendToward_pool, closed.pool]
  · rw [step, State.sendToward_quiet, closed.quiet]

/-- Settles O44: LOCATE and RELAY by the record that holds the car, TRANSFER by the claimant's context. -/
theorem framesByCarAreHandled : Obligations.FramesByCarAreHandled := by
  intro s s' p f rest hr station head taken here
  obtain ⟨frame, run⟩ := exec_hereFrame hr station head taken here
  have params : s'.params = s.params := by rw [frame]
  have lookup (car : Nat) : s'.lookup car = s.lookup car := by rw [frame]; rfl
  have record (i : Fin 48) : s'.record i = s.record i := by rw [frame]; rfl
  have neighbour (q : Port) : (s'.port q).neighbour = (s.port q).neighbour := by
    rw [taken]
    cases p <;> cases q <;> rfl
  have can (q : Port) (g : BackboneFrame) :
      s'.canForward q g = true ↔ s.params.inUse q = true ∧ (s.port q).neighbour ≠ .down ∧ 1 < g.hop := by
    rw [State.canForward_iff, params, neighbour]
  rw [run]
  refine ⟨?_, ?_, ?_, ?_, ?_, ?_⟩
  · intro car query i q payload found toward
    rw [State.handleHere_locate payload, State.locate, lookup, found]
    simp only [State.sendLocated_port (s := s') (by rw [params]; exact toward), State.locatedRecord_eq, State.originate, params, record]
  · intro car query q payload unheld toward
    rw [State.handleHere_locate payload, State.locate_unheld ((lookup car).trans unheld)]
    refine ⟨fun ⟨dest, able⟩ => by rw [if_pos ⟨dest, (can _ _).2 able⟩], fun stays => ?_⟩
    rw [if_neg fun ⟨dest, able⟩ => stays ⟨dest, (can _ _).1 able⟩, State.sendLocated_port (by rw [params]; exact toward), State.originate, State.locatedNone, params]
  · intro car number urgency receipt body note i payload hnote found
    have notes (o : NoteOutcome) : s'.sendNote car number o = s'.offerTraffic .outbye (note o) := by
      rw [State.sendNote_eq, params, hnote]
    rw [State.handleHere_relay payload]
    refine ⟨fun contact => ?_, fun contact => ?_, fun c q contact context toward => ?_⟩
    · have accepts : (s'.record i).contact.acceptsPosts = true := by
        rw [record, (s.record i).contact.acceptsPosts_iff]
        exact contact
      rw [State.relay_posts ((lookup car).trans found) accepts]
      refine ⟨fun full => ?_, fun room buffer => ?_⟩
      · have shut : s'.hasRoom i = false := State.not_hasRoom (by rw [params, record, frame]; exact full)
        rw [State.relayPost_full (m := relayMessage i number urgency receipt body) shut, notes]
      · have open_ : s'.hasRoom i = true := State.hasRoom_of_free (by rw [params, record]; exact room) (by rw [frame]; exact buffer)
        obtain ⟨b, free, pool, rest, reported, classes⟩ :=
          State.placeMessage_posted (m := relayMessage i number urgency receipt body) open_ rfl
        rw [State.relayPost_room (m := relayMessage i number urgency receipt body) open_]
        generalize s'.placeMessage (relayMessage i number urgency receipt body) = t at free pool rest reported classes ⊢
        have tparams : t.params = s.params := by rw [rest]; exact params
        have posted : t.sendNote car number .posted = t.offerTraffic .outbye (note .posted) := by
          rw [State.sendNote_eq, tparams, hnote]
        have target : (relayMessage i number urgency receipt body).target = i := rfl
        rw [target, record] at rest
        rw [frame] at free pool reported classes
        exact ⟨t, b, free, pool, rest, reported, classes, by rw [posted]; rfl⟩
    · rw [State.relay_releasing ((lookup car).trans found) (by rw [record, contact]), notes]
    · rw [State.relay_peer ((lookup car).trans found) (by rw [record, contact]), State.relayToPeer, record, context]
      simp only [params, toward]
      rw [State.relayOn_eq]
      have passes := can q { f with dest := c.peer }
      exact ⟨fun able => by rw [if_pos (passes.2 able)], fun stays => by rw [if_neg fun able => stays (passes.1 able), notes]⟩
  · intro car number urgency receipt body payload unheld dest
    rw [State.handleHere_relay payload, State.relay_unheld ((lookup car).trans unheld), if_pos dest, State.relayOn_eq]
    refine ⟨fun able => by rw [if_pos ((can _ _).2 able)], fun stays => ?_⟩
    rw [if_neg fun able => stays ((can _ _).1 able), State.sendNote_eq, params]
  · intro car number urgency receipt body payload unheld dest
    rw [State.handleHere_relay payload, State.relay_unheld ((lookup car).trans unheld), if_neg dest, State.sendNote_eq, params]
  · intro car cls i c payload found free context role peer
    have claims : (s'.record i).claimsFrom f.source = true :=
      (Record.claimsFrom_iff _ _).2 ⟨c, by rw [record, context], role, peer⟩
    have idle : ∀ j, s'.lookup car = some j → s'.inExchange j = false := by
      intro j hj
      obtain rfl : i = j := Option.some.inj (found.symm.trans ((lookup car).symm.trans hj))
      rw [frame]
      exact free
    rw [State.handleHere_handover (car := car) (by rw [payload]; rfl), State.handoverArrival_free idle,
      State.takeHandoverFrame_transfer payload, State.takeTransfer_claimed ((lookup car).trans found) claims]
    obtain ⟨own, others, cells, pool, quiet⟩ := s'.placeTransfer_empty i f.source car cls
    generalize s'.placeTransfer i f.source car cls [] = t at own others cells pool quiet ⊢
    rw [record] at own
    simp only [record] at others
    refine ⟨t, rfl, own, others, ?_, ?_, ?_, ?_⟩
    · rw [cells, frame]
    · rw [pool, frame]
    · rw [State.inbound_of_quiet quiet, frame]
    · rw [State.params_of_calm (State.calm_of_quiet quiet), frame]

end Sys2Proof.Machine

/-! Frames read back from their bytes. -/

namespace Sys2Proof.Machine

/-! ## Request frames (R165, R177, R178) -/

/-- A command is the one that its code names. -/
theorem commandOf_request {c : Instr} {code : Nat} {params : List Byte} {ready : Bool} (h : requestOf c = some (code, params))
    (sample : ∀ p r, c = .openAir p r → r = ready) : commandOf code params ready = some c := by
  cases c with
  | openAir p r =>
      obtain ⟨rfl, rfl⟩ := Prod.mk.inj (Option.some.inj h)
      rw [sample p r rfl]
      rfl
  | badCheckRequest | badCommandRequest | resetNAssert | resetNRelease | stationResetTakesEffect | slotStart | upFrameReceive
  | rfReadyFall | slotEnd | sweepDeadline | backboneFrameReceive | receiveQueueTake | helloTimerExpiry | silenceTimeout
  | transmitComplete | claimExpiry | handingExpiry => exact absurd h (by simp [requestOf])
  | _ =>
      obtain ⟨rfl, rfl⟩ := Prod.mk.inj (Option.some.inj h)
      rfl

/-- A request's code and the length of its parameters fit in a byte each. -/
theorem requestOf_fits {c : Instr} {code : Nat} {params : List Byte} (h : requestOf c = some (code, params)) (wf : c.wf = true) :
    code < 256 ∧ params.length < 256 := by
  have fits (p : List Byte) (hp : paramsFit p = true) : p.length < 256 := by
    have := of_decide_eq_true hp
    omega
  cases c with
  | badCheckRequest | badCommandRequest | resetNAssert | resetNRelease | stationResetTakesEffect | slotStart | upFrameReceive
  | rfReadyFall | slotEnd | sweepDeadline | backboneFrameReceive | receiveQueueTake | helloTimerExpiry | silenceTimeout
  | transmitComplete | claimExpiry | handingExpiry => exact absurd h (by simp [requestOf])
  | _ =>
      obtain ⟨rfl, rfl⟩ := Prod.mk.inj (Option.some.inj h)
      exact ⟨by decide, fits _ wf⟩

theorem requestFrame_eq (code : Nat) (params : List Byte) :
    requestFrame code params =
      byteOf code :: byteOf params.length :: (params ++ [crc8 (byteOf code :: byteOf params.length :: params)]) := rfl

theorem requestFrame_right (code : Nat) {params : List Byte} (h : params.length < 256) :
    requestCheckRight (requestFrame code params) = true := by
  rw [requestFrame_eq, requestCheckRight, byteOf_toNat_of_lt h]
  simp

/-- A request frame is read as the command that it carries. -/
theorem decodeRequest_frame {c : Instr} {code : Nat} {params : List Byte} {ready : Bool}
    (h : requestOf c = some (code, params)) (wf : c.wf = true) (sample : ∀ p r, c = .openAir p r → r = ready) :
    decodeRequest (requestFrame code params) ready = c := by
  obtain ⟨codeFits, paramsFit⟩ := requestOf_fits h wf
  have taken (closing : Byte) : (params ++ [closing]).take (byteOf params.length).toNat = params := by
    rw [byteOf_toNat_of_lt paramsFit, List.take_left' rfl]
  unfold decodeRequest
  rewrite [if_pos (requestFrame_right code paramsFit), requestFrame_eq]
  dsimp only
  rw [taken, byteOf_toNat_of_lt codeFits, commandOf_request h sample]

/-! ## The fields of backbone frames (R174, R176) -/

theorem readByte_byteOf {n : Nat} (h : n < 256) (rest : List Byte) : readByte (byteOf n :: rest) = some (n, rest) := by
  rw [readByte, byteOf_toNat_of_lt h]

theorem readWord_bytes16 {n : Nat} (h : n < 65536) (rest : List Byte) : readWord (bytes16 n ++ rest) = some (n, rest) := by
  have word := wordOf_bytes16 h
  simp only [bytes16, List.cons_append, List.nil_append, readWord, word]

theorem readBody_bodyBytes {body : List Byte} (h : isBody body = true) (rest : List Byte) :
    readBody (bodyBytes body ++ rest) = some (body, rest) := by
  have size : body.length < 256 := by
    simp only [isBody, Bool.and_eq_true, decide_eq_true_eq] at h
    obtain ⟨-, small⟩ := h
    exact Nat.lt_of_le_of_lt small (by decide)
  rw [bodyBytes, List.cons_append, readBody, byteOf_toNat_of_lt size]
  simp [h]

theorem locateOfCode_locateCode {contact : Option ContactState} (h : contact ≠ some .free) :
    locateOfCode (locateCode contact) = some contact := by
  cases contact with
  | none => rfl
  | some c => cases c with
    | free => exact absurd rfl h
    | _ => rfl

theorem locateCode_lt (contact : Option ContactState) : locateCode contact < 256 := by
  cases contact with
  | none => decide
  | some c => cases c <;> decide

theorem NoteOutcome.ofCode_code (o : NoteOutcome) : NoteOutcome.ofCode o.code = some o := by
  cases o <;> rfl

theorem NoteOutcome.code_lt (o : NoteOutcome) : o.code < 256 := by
  cases o <;> decide

theorem RefusedReason.ofCode_code (r : RefusedReason) : RefusedReason.ofCode r.code = some r := by
  cases r <;> rfl

theorem RefusedReason.code_lt (r : RefusedReason) : r.code < 256 := by
  cases r <;> decide

/-- The options byte of a transferred message. -/
theorem options_read : ∀ (urgent receipt dispatch : Bool) (attempts : Fin 8),
    let b := byteOf (flagAt 7 urgent + flagAt 6 receipt + flagAt 5 dispatch + attempts.val)
    bitOf b 7 = urgent ∧ bitOf b 6 = receipt ∧ bitOf b 5 = dispatch ∧ b.toNat % 8 = attempts.val := by
  decide

theorem Urgency.ofBit_urgent (u : Urgency) : Urgency.ofBit (u == .urgent) = u := by
  cases u <;> rfl

/-- What R126 asks of a message of a TRANSFER. -/
def TransferMessage.fits (m : TransferMessage) : Bool :=
  m.attempts ≤ 7 && isBody m.body
    && (match m.source with
        | .host => true
        | .dispatch n => n ≤ 65535)

theorem readTransferMessage_bytes {m : TransferMessage} (h : m.fits = true) (rest : List Byte) :
    readTransferMessage (m.bytes ++ rest) = some (m, rest) := by
  obtain ⟨urgency, source, receipt, attempts, body⟩ := m
  simp only [TransferMessage.fits, Bool.and_eq_true, decide_eq_true_eq] at h
  obtain ⟨⟨few, isbody⟩, number⟩ := h
  have small : attempts < 8 := by omega
  cases source with
  | host =>
      obtain ⟨u, r, d, a⟩ := options_read (urgency == .urgent) receipt false ⟨attempts, small⟩
      simp only [flagAt, Bool.false_eq_true, if_false, Nat.add_zero] at u r d a
      simp only [TransferMessage.bytes, List.cons_append, List.append_assoc, readTransferMessage, flagAt,
        readWord_bytes16 (n := 0) (by decide), readBody_bodyBytes isbody, u, r, d, a, Urgency.ofBit_urgent,
        Option.bind_eq_bind, Option.bind_some]
      rfl
  | dispatch n =>
      have fits : n < 65536 := by
        have := of_decide_eq_true number
        omega
      obtain ⟨u, r, d, a⟩ := options_read (urgency == .urgent) receipt true ⟨attempts, small⟩
      simp only [TransferMessage.bytes, List.cons_append, List.append_assoc, readTransferMessage,
        readWord_bytes16 fits, readBody_bodyBytes isbody, u, r, d, a, Urgency.ofBit_urgent,
        Option.bind_eq_bind, Option.bind_some]
      rfl

theorem readTransferMessages_bytes {ms : List TransferMessage} (h : ∀ m ∈ ms, m.fits = true) (rest : List Byte) :
    readTransferMessages ms.length (ms.flatMap TransferMessage.bytes ++ rest) = some (ms, rest) := by
  induction ms with
  | nil => rfl
  | cons m ms ih =>
      have first := h m (List.mem_cons_self ..)
      have later := ih fun x hx => h x (List.mem_cons_of_mem _ hx)
      simp only [List.length_cons, List.flatMap_cons, List.append_assoc, readTransferMessages,
        readTransferMessage_bytes first, later, Option.bind_eq_bind, Option.bind_some]
      rfl

theorem isCarId_lt {n : Nat} (h : isCarId n = true) : n < 65536 := by
  simp only [isCarId, Bool.and_eq_true, decide_eq_true_eq] at h
  omega

theorem isStation_lt {n : Nat} (h : isStation n = true) : n < 256 := by
  simp only [isStation, Bool.and_eq_true, decide_eq_true_eq] at h
  omega

/-- The options byte of a RELAY. -/
theorem relayOptions_read : ∀ urgent receipt : Bool,
    flagAt 7 urgent + flagAt 6 receipt < 256 ∧ (flagAt 7 urgent + flagAt 6 receipt).testBit 7 = urgent ∧
      (flagAt 7 urgent + flagAt 6 receipt).testBit 6 = receipt := by
  decide

/-- The fields of a payload in range are read back from its bytes. -/
theorem readPayload_bytes {p : Payload} (h : p.inRange = true) (rest : List Byte) :
    readPayload p.kind (p.bytes ++ rest) = some (p, rest) := by
  cases p with
  | hello station =>
      simp only [Payload.inRange, Bool.and_eq_true, decide_eq_true_eq] at h
      simp only [Payload.kind, Payload.bytes, readPayload, List.cons_append, List.nil_append, readByte_byteOf (n := station) (by omega),
        Option.bind_eq_bind, Option.bind_some]
      rfl
  | locate car query =>
      simp only [Payload.inRange, Bool.and_eq_true, decide_eq_true_eq] at h
      obtain ⟨hcar, hquery⟩ := h
      simp only [Payload.kind, Payload.bytes, readPayload, List.append_assoc, readWord_bytes16 (isCarId_lt hcar),
        readWord_bytes16 (n := query) (by omega), Option.bind_eq_bind, Option.bind_some]
      rfl
  | located car query reporting contact level peer =>
      simp only [Payload.inRange, Bool.and_eq_true, decide_eq_true_eq, bne_iff_ne] at h
      obtain ⟨⟨⟨⟨⟨hcar, hquery⟩, hreporting⟩, hcontact⟩, hlevel⟩, hpeer⟩ := h
      simp only [Payload.kind, Payload.bytes, readPayload, List.append_assoc, List.cons_append, List.nil_append,
        readWord_bytes16 (isCarId_lt hcar), readWord_bytes16 (n := query) (by omega), readByte_byteOf (isStation_lt hreporting),
        readByte_byteOf (locateCode_lt contact), locateOfCode_locateCode hcontact, readByte_byteOf (n := level) (by omega),
        Option.bind_eq_bind, Option.bind_some]
      cases peer with
      | none =>
          simp only [bne_iff_ne] at hpeer
          simp only [hpeer, if_false]
          rfl
      | some q =>
          simp only [Bool.and_eq_true, beq_iff_eq] at hpeer
          obtain ⟨out, hq⟩ := hpeer
          simp only [out, if_true, List.cons_append, List.nil_append, readByte_byteOf (isStation_lt hq)]
          rfl
  | relay car number urgency receipt body =>
      simp only [Payload.inRange, Bool.and_eq_true, decide_eq_true_eq] at h
      obtain ⟨⟨hcar, hnumber⟩, hbody⟩ := h
      obtain ⟨fits, urgent, receipts⟩ := relayOptions_read (urgency == .urgent) receipt
      simp only [Payload.kind, Payload.bytes, readPayload, List.append_assoc, List.cons_append, List.nil_append,
        readWord_bytes16 (isCarId_lt hcar), readWord_bytes16 (n := number) (by omega), readByte_byteOf fits,
        readBody_bodyBytes hbody, urgent, receipts, Urgency.ofBit_urgent, Option.bind_eq_bind, Option.bind_some]
      rfl
  | note car number outcome reporting =>
      simp only [Payload.inRange, Bool.and_eq_true, decide_eq_true_eq] at h
      obtain ⟨⟨hcar, hnumber⟩, hreporting⟩ := h
      simp only [Payload.kind, Payload.bytes, readPayload, List.append_assoc, List.cons_append, List.nil_append,
        readWord_bytes16 (isCarId_lt hcar), readWord_bytes16 (n := number) (by omega), readByte_byteOf outcome.code_lt,
        outcome.ofCode_code, readByte_byteOf (isStation_lt hreporting), Option.bind_eq_bind, Option.bind_some]
      rfl
  | uplink car reporting body =>
      simp only [Payload.inRange, Bool.and_eq_true] at h
      obtain ⟨⟨hcar, hreporting⟩, hbody⟩ := h
      simp only [Payload.kind, Payload.bytes, readPayload, List.append_assoc, List.cons_append, List.nil_append,
        readWord_bytes16 (isCarId_lt hcar), readByte_byteOf (isStation_lt hreporting), readBody_bodyBytes hbody, Option.bind_eq_bind,
        Option.bind_some]
      rfl
  | claim car tag level try_ =>
      simp only [Payload.inRange, Bool.and_eq_true, decide_eq_true_eq] at h
      obtain ⟨⟨⟨⟨⟨hcar, htag⟩, htag'⟩, hlevel⟩, htry⟩, htry'⟩ := h
      simp only [Payload.kind, Payload.bytes, readPayload, List.append_assoc, List.cons_append, List.nil_append,
        readWord_bytes16 (isCarId_lt hcar), readByte_byteOf (n := tag) (by omega), readByte_byteOf (n := level) (by omega),
        readByte_byteOf (n := try_) (by omega), Option.bind_eq_bind, Option.bind_some]
      rfl
  | transfer car cls messages =>
      simp only [Payload.inRange, Bool.and_eq_true, decide_eq_true_eq] at h
      obtain ⟨⟨⟨hcar, hcls⟩, hcount⟩, hmessages⟩ := h
      have fits : ∀ m ∈ messages, m.fits = true := List.all_eq_true.mp hmessages
      simp only [Payload.kind, Payload.bytes, readPayload, List.append_assoc, List.cons_append, List.nil_append,
        readWord_bytes16 (isCarId_lt hcar), readByte_byteOf (n := cls) (by omega), readByte_byteOf (n := messages.length) (by omega),
        readTransferMessages_bytes fits, hcount, if_true, Option.bind_eq_bind, Option.bind_some]
      rfl
  | taken car accepted =>
      simp only [Payload.inRange, Bool.and_eq_true, decide_eq_true_eq] at h
      obtain ⟨hcar, haccepted⟩ := h
      simp only [Payload.kind, Payload.bytes, readPayload, List.append_assoc, List.cons_append, List.nil_append,
        readWord_bytes16 (isCarId_lt hcar), readByte_byteOf (n := accepted) (by omega), Option.bind_eq_bind, Option.bind_some]
      rfl
  | refused car reason =>
      simp only [Payload.inRange] at h
      simp only [Payload.kind, Payload.bytes, readPayload, List.append_assoc, List.cons_append, List.nil_append,
        readWord_bytes16 (isCarId_lt h), readByte_byteOf reason.code_lt, reason.ofCode_code, Option.bind_eq_bind, Option.bind_some]
      rfl

theorem Payload.kind_lt (p : Payload) : p.kind < 256 := by
  cases p <;> simp [Payload.kind]

theorem checkWordFollows_checkWord (covered : List Byte) : checkWordFollows covered (checkWord covered) = true := by
  simp [checkWordFollows, checkWord]

/-- A backbone frame in range is read back from its bytes. -/
theorem decodeBackbone_bytes {f : BackboneFrame} (h : f.inRange = true) : decodeBackbone f.bytes = some f := by
  have ranges := h
  simp only [BackboneFrame.inRange, Bool.and_eq_true, Bool.or_eq_true, decide_eq_true_eq, beq_iff_eq, Config.gateway] at ranges
  obtain ⟨⟨⟨⟨payload, hop, hop'⟩, source⟩, dest⟩, -⟩ := ranges
  have sourceFits : f.source < 256 := source.elim isStation_lt (by omega)
  have destFits : f.dest < 256 := dest.elim (·.elim (by omega) isStation_lt) (by omega)
  have split : f.bytes =
      byteOf f.payload.kind :: byteOf f.source :: byteOf f.dest :: byteOf f.hop :: (f.payload.bytes ++ checkWord f.covered) := rfl
  have front : (f.payload.bytes ++ checkWord f.covered).take
      ((f.payload.bytes ++ checkWord f.covered).length - (checkWord f.covered).length) = f.payload.bytes := by
    rw [List.length_append, Nat.add_sub_cancel, List.take_left']
    rfl
  have covered : byteOf f.payload.kind :: byteOf f.source :: byteOf f.dest :: byteOf f.hop :: f.payload.bytes = f.covered := rfl
  rw [split, decodeBackbone, byteOf_toNat_of_lt f.payload.kind_lt, byteOf_toNat_of_lt sourceFits, byteOf_toNat_of_lt destFits,
    byteOf_toNat_of_lt (show f.hop < 256 by omega), readPayload_bytes payload]
  simp only [Option.bind_eq_bind, Option.bind_some, front, covered, checkWordFollows_checkWord, true_and]
  exact if_pos h

set_option maxRecDepth 20000 in
/-- The bytes of the manual's worked example. -/
theorem worked_example :
    crc16 [0x31#8, 0x32#8, 0x33#8, 0x34#8, 0x35#8, 0x36#8, 0x37#8, 0x38#8, 0x39#8] = 0x29B1#16 ∧
      decodeRequest [0x48#8, 0x00#8, 0x24#8] false = .identify [] ∧
      decodeRequest [0x48#8, 0x00#8, 0x25#8] false = .badCheckRequest [0x48#8, 0x00#8, 0x25#8] ∧
      requestFrame 0x48 [] = [0x48#8, 0x00#8, 0x24#8] ∧
      (Response.frame { status := .done, results := [0x26#8, 0x48#8, 0x01#8] }).take 5 =
        [0x00#8, 0x03#8, 0x26#8, 0x48#8, 0x01#8] := by
  refine ⟨?_, ?_, ?_, ?_, ?_⟩ <;> decide

/-- Settles O51: the examples by evaluation, request frames by `decodeRequest_frame`, backbone frames by
`decodeBackbone_bytes`. -/
theorem framesRoundTrip : Obligations.FramesRoundTrip := by
  refine ⟨⟨worked_example, fun c code params ready h wf sample => decodeRequest_frame h wf sample⟩, fun f h => decodeBackbone_bytes h⟩

end Sys2Proof.Machine

/-! What the work of a slot end is blind to -/

namespace Sys2Proof.Machine

/-! ## What the work of a slot end is blind to

The work of a slot end neither reads nor sets the phase of work, the frames and the counts of the air, the work held, a halt that
waits, the count of garbled frames, and AIR_CHECK and AIR_DARK. A `Veil` changes just these; each operation commutes with
it. -/

/-- A change of what the work of a slot end is blind to. -/
structure Veil where
  air : Air → Air
  held : List HeldWork → List HeldWork
  halt : Bool → Bool
  garbledFrames : Nat → Nat
  airCheck : ClassFlags → ClassFlags
  airDark : ClassFlags → ClassFlags
  grants : ∀ a g, air { a with grants := g } = { air a with grants := g }
  entryOpen : ∀ a, (air a).entryOpen = a.entryOpen
  cycle : ∀ a, (air a).cycle = a.cycle
  inBeacon : ∀ a, ((air a).slot == some 0 && (air a).work.isSome) = (a.slot == some 0 && a.work.isSome)

/-- A sweep under a veil: a halt waits for a sweep that is RUNNING alone. -/
def Sweep.veiled (w : Sweep) (v : Veil) : Sweep :=
  { w with haltPending := match w.state with
      | .running => v.halt w.haltPending
      | _ => w.haltPending }

/-- The flags of the two classes that the air reports, changed. -/
def State.classesVeiled (s : State) (v : Veil) : Conditions :=
  ((s.setClass .airCheck (v.airCheck (s.classFlags .airCheck))).setClass .airDark (v.airDark (s.classFlags .airDark))).conditions

/-- A state under a veil. -/
def State.veiled (s : State) (v : Veil) : State :=
  { s with
    air := v.air s.air, roster := { s.roster with held := v.held s.roster.held }, sweep := s.sweep.veiled v,
    host := { s.host with garbledFrames := v.garbledFrames s.host.garbledFrames }, conditions := s.classesVeiled v }

section
variable {v : Veil}

theorem State.veiled_ite {c : Prop} [Decidable c] {a a' b b' : State} (ha : c → a' = a.veiled v) (hb : ¬ c → b' = b.veiled v) :
    (if c then a' else b') = (if c then a else b).veiled v := by
  split
  next h => exact ha h
  next h => exact hb h

theorem State.veiled_foldl {α : Type} {f : State → α → State} (h : ∀ s a, f (s.veiled v) a = (f s a).veiled v) (l : List α) :
    ∀ s : State, l.foldl f (s.veiled v) = (l.foldl f s).veiled v := by
  induction l with
  | nil => exact fun _ => rfl
  | cons a l ih =>
      intro s
      rw [List.foldl_cons, List.foldl_cons, h, ih]

/-! What a veil leaves for the operations to read -/

theorem State.record_veiled (s : State) (i : Fin 48) : (s.veiled v).record i = s.record i := rfl
theorem State.params_veiled (s : State) : (s.veiled v).params = s.params := rfl
theorem State.pool_veiled (s : State) : (s.veiled v).pool = s.pool := rfl
theorem State.port_veiled (s : State) (p : Port) : (s.veiled v).port p = s.port p := by cases p <;> rfl
theorem State.lookup_veiled (s : State) (car : Nat) : (s.veiled v).lookup car = s.lookup car := rfl
theorem State.handoverWaiting_veiled (s : State) (p : Port) : (s.veiled v).handoverWaiting p = s.handoverWaiting p := by
  unfold State.handoverWaiting
  rw [State.port_veiled]
  rfl

theorem State.leavesPaging_veiled (s : State) (i : Fin 48) : (s.veiled v).leavesPaging i = s.leavesPaging i := by
  unfold State.leavesPaging
  have beacon := v.inBeacon s.air
  rw [show (s.veiled v).air = v.air s.air from rfl, beacon]
  rfl

theorem Veil.grants_eq (v : Veil) (a : Air) : (v.air a).grants = a.grants := by
  have set : v.air a = { v.air a with grants := a.grants } := v.grants a a.grants
  have lists := congrArg Air.grants set
  exact lists

theorem State.grants_veiled (s : State) : (s.veiled v).air.grants = s.air.grants := v.grants_eq s.air

/-! Records, reasons and reports -/

theorem State.setRecord_veiled (s : State) (i : Fin 48) (r : Record) : (s.veiled v).setRecord i r = (s.setRecord i r).veiled v := rfl

theorem State.offerReason_veiled (s : State) (i : Fin 48) (reason : Reason) :
    (s.veiled v).offerReason i reason = (s.offerReason i reason).veiled v :=
  State.veiled_ite (fun _ => rfl) (fun _ => rfl)

theorem State.offerReasonOpt_veiled (s : State) (i : Fin 48) (reason : Option Reason) :
    (s.veiled v).offerReason? i reason = (s.offerReason? i reason).veiled v := by
  cases reason with
  | none => rfl
  | some r => exact s.offerReason_veiled i r

theorem State.setSoft_veiled (s : State) (i : Fin 48) (fault : SoftFault) :
    (s.veiled v).setSoft i fault = (s.setSoft i fault).veiled v :=
  State.offerReason_veiled (s.modifyRecord i fun r => { r with soft := some fault }) i .softFault

theorem State.dropClaim_veiled (s : State) (i : Fin 48) : (s.veiled v).dropClaim i = (s.dropClaim i).veiled v := by
  unfold State.dropClaim
  rw [State.record_veiled]
  cases (s.record i).handover with
  | none => rfl
  | some c => exact State.veiled_ite (fun _ => rfl) (fun _ => rfl)

/-- A class that the air does not report. -/
theorem State.setClass_veiled (s : State) {c : ConditionClass} (check : c ≠ .airCheck) (dark : c ≠ .airDark) (f : ClassFlags) :
    (s.veiled v).setClass c f = (s.setClass c f).veiled v := by
  have ne (d : ConditionClass) (h : c ≠ d) : c.index.val ≠ d.index.val := ConditionClass.index_val_ne h
  have check' : (s.setClass c f).classFlags .airCheck = s.classFlags .airCheck := s.classFlags_setClass_ne f check
  have dark' : (s.setClass c f).classFlags .airDark = s.classFlags .airDark := s.classFlags_setClass_ne f dark
  have classes : (s.classesVeiled v).set c.index f = (s.setClass c f).classesVeiled v := by
    unfold State.classesVeiled
    rw [check', dark']
    simp only [State.setClass]
    rw [Vector.set_comm _ _ (Ne.symm (ne .airDark dark)), Vector.set_comm _ _ (Ne.symm (ne .airCheck check))]
  unfold State.veiled
  rw [← classes]
  rfl

theorem State.classFlags_veiled (s : State) {c : ConditionClass} (check : c ≠ .airCheck) (dark : c ≠ .airDark) :
    (s.veiled v).classFlags c = s.classFlags c := by
  have veiled : (s.veiled v).classFlags c =
      ((s.setClass .airCheck (v.airCheck (s.classFlags .airCheck))).setClass .airDark
        (v.airDark (s.classFlags .airDark))).classFlags c := rfl
  rw [veiled, State.classFlags_setClass_ne _ _ dark.symm, State.classFlags_setClass_ne _ _ check.symm]

theorem State.reportCause_veiled (s : State) {c : ConditionClass} (check : c ≠ .airCheck) (dark : c ≠ .airDark) (cause : Bool) :
    (s.veiled v).reportCause c cause = (s.reportCause c cause).veiled v := by
  unfold State.reportCause
  rw [State.classFlags_veiled s check dark, State.setClass_veiled s check dark]

theorem State.reportIdentity_veiled (s : State) : (s.veiled v).reportIdentity = s.reportIdentity.veiled v :=
  s.reportCause_veiled (by decide) (by decide) _

theorem State.reportPool_veiled (s : State) : (s.veiled v).reportPool = s.reportPool.veiled v :=
  s.reportCause_veiled (by decide) (by decide) _

/-! Ports -/

theorem State.setPort_veiled (s : State) (p : Port) (q : PortState) : (s.veiled v).setPort p q = (s.setPort p q).veiled v := by
  cases p <;> rfl

theorem State.modifyPort_veiled (s : State) (p : Port) (f : PortState → PortState) :
    (s.veiled v).modifyPort p f = (s.modifyPort p f).veiled v := by
  unfold State.modifyPort
  rw [State.port_veiled, State.setPort_veiled]

theorem State.serveHandover_veiled (s : State) (p : Port) (i : Fin 48) :
    (s.veiled v).serveHandover p i = (s.serveHandover p i).veiled v := by
  unfold State.serveHandover
  rw [State.record_veiled]
  cases (s.record i).handover with
  | none => rfl
  | some c => cases p <;> rfl

theorem State.serveTraffic_veiled (s : State) (p : Port) : (s.veiled v).serveTraffic p = (s.serveTraffic p).veiled v := by
  unfold State.serveTraffic
  rw [State.port_veiled]
  cases (s.port p).traffic with
  | nil => rfl
  | cons f rest => exact s.modifyPort_veiled p _

theorem State.chooseSource_veiled (s : State) (p : Port) : (s.veiled v).chooseSource p = (s.chooseSource p).veiled v := by
  unfold State.chooseSource
  rw [State.handoverWaiting_veiled, State.port_veiled, State.params_veiled]
  cases s.handoverWaiting p with
  | none => exact s.serveTraffic_veiled p
  | some i => cases (s.port p).traffic with
    | nil => exact s.serveHandover_veiled p i
    | cons f rest => cases s.params.arbiterMode with
      | fixed => exact s.serveHandover_veiled p i
      | rotating => cases (s.port p).lastServed with
        | handover => exact s.serveTraffic_veiled p
        | traffic => exact s.serveHandover_veiled p i

theorem State.arbitrate_veiled (s : State) (p : Port) : (s.veiled v).arbitrate p = (s.arbitrate p).veiled v := by
  unfold State.arbitrate
  rw [State.params_veiled, State.port_veiled]
  refine State.veiled_ite (fun _ => State.veiled_ite (fun _ => State.veiled_ite (fun _ => ?_) (fun _ => ?_)) (fun _ => ?_)) (fun _ => rfl)
  · rw [State.modifyPort_veiled, State.chooseSource_veiled]
  · rw [State.modifyPort_veiled]
    exact State.modifyPort_veiled _ p _
  · exact s.chooseSource_veiled p

theorem State.arbitrateToward_veiled (s : State) (peer : Nat) :
    (s.veiled v).arbitrateToward peer = (s.arbitrateToward peer).veiled v := by
  unfold State.arbitrateToward
  rw [State.params_veiled]
  cases portToward s.params.station peer with
  | none => rfl
  | some p => exact s.arbitrate_veiled p

theorem State.offerTraffic_veiled (s : State) (p : Port) (f : BackboneFrame) :
    (s.veiled v).offerTraffic p f = (s.offerTraffic p f).veiled v := by
  unfold State.offerTraffic
  rw [State.params_veiled, State.port_veiled]
  refine State.veiled_ite (fun _ => ?_) (fun _ => s.modifyPort_veiled p _)
  rw [State.modifyPort_veiled, State.arbitrate_veiled]

theorem State.sendToward_veiled (s : State) (dest : Nat) (payload : Payload) :
    (s.veiled v).sendToward dest payload = (s.sendToward dest payload).veiled v := by
  unfold State.sendToward
  rw [State.params_veiled]
  cases portToward s.params.station dest with
  | none => rfl
  | some p => exact s.offerTraffic_veiled p _

theorem State.sendNote_veiled (s : State) (car number : Nat) (outcome : NoteOutcome) :
    (s.veiled v).sendNote car number outcome = (s.sendNote car number outcome).veiled v := s.offerTraffic_veiled .outbye _

theorem State.noteFor_veiled (s : State) (car : Nat) (source : Source) (receipt : Bool) (outcome : NoteOutcome) :
    (s.veiled v).noteFor car source receipt outcome = (s.noteFor car source receipt outcome).veiled v := by
  cases source with
  | host => rfl
  | dispatch number => exact State.veiled_ite (fun _ => s.sendNote_veiled car number outcome) (fun _ => rfl)

/-! Cells -/

theorem State.freeCellsWhere_veiled (s : State) (test : CellHolding → Bool) :
    (s.veiled v).freeCellsWhere test = (s.freeCellsWhere test).veiled v := by
  unfold State.freeCellsWhere
  refine State.veiled_ite (fun _ => ?_) (fun _ => rfl)
  exact State.reportCause_veiled { s with cells := s.cells.map fun c => if Option.any test c then none else c } (by decide)
    (by decide) false

theorem State.giveTurnCells_veiled (s : State) (i : Fin 48) (t : Turn) (role : CellRole) :
    (s.veiled v).giveTurnCells i t role = (s.giveTurnCells i t role).veiled v :=
  State.veiled_foldl (fun _ _ => rfl) _ s

theorem State.cancelRetune_veiled (s : State) (i : Fin 48) : (s.veiled v).cancelRetune i = (s.cancelRetune i).veiled v := by
  unfold State.cancelRetune State.freeRoleOf
  rw [State.freeCellsWhere_veiled]
  rfl

theorem State.giveUpTurn_veiled (s : State) (i : Fin 48) : (s.veiled v).giveUpTurn i = (s.giveUpTurn i).veiled v := by
  unfold State.giveUpTurn State.freeCellsOf
  rw [State.freeCellsWhere_veiled]
  rfl

/-! Messages -/

theorem State.setBuffer_veiled (s : State) (b : Fin 64) (m : Option Message) :
    (s.veiled v).setBuffer b m = (s.setBuffer b m).veiled v :=
  State.reportPool_veiled { s with pool := s.pool.set b m }

theorem State.removeMessage_veiled (s : State) (i : Fin 48) (b : Fin 64) :
    (s.veiled v).removeMessage i b = (s.removeMessage i b).veiled v :=
  State.setBuffer_veiled (s.modifyRecord i fun r => { r with messages := r.messages.erase b, inFlight := none }) b none

theorem State.placeMessage_veiled (s : State) (m : Message) : (s.veiled v).placeMessage m = (s.placeMessage m).veiled v := by
  unfold State.placeMessage
  rw [show (s.veiled v).freeBuffer = s.freeBuffer from rfl]
  cases s.freeBuffer with
  | none => rfl
  | some b =>
      exact State.setBuffer_veiled (s.modifyRecord m.target fun r => { r with messages := s.insertHandle r.messages b m.placement }) b
        (some m)

theorem State.freeListed_veiled (notes : Bool) (car : Nat) (s : State) (b : Fin 64) :
    State.freeListed notes car (s.veiled v) b = (State.freeListed notes car s b).veiled v := by
  unfold State.freeListed
  rw [State.pool_veiled]
  cases s.pool[b] with
  | none => rfl
  | some m =>
      refine State.veiled_ite (fun _ => ?_) (fun _ => s.setBuffer_veiled b none)
      rw [State.setBuffer_veiled, State.noteFor_veiled]

theorem State.freeMessages_veiled (s : State) (i : Fin 48) (notes : Bool) :
    (s.veiled v).freeMessages i notes = (s.freeMessages i notes).veiled v := by
  unfold State.freeMessages
  rw [State.record_veiled, State.veiled_foldl fun t b => State.freeListed_veiled notes _ t b]
  rfl

theorem State.retireMessage_veiled (s : State) (i : Fin 48) (b : Fin 64) :
    (s.veiled v).retireMessage i b = (s.retireMessage i b).veiled v := by
  unfold State.retireMessage
  rw [State.removeMessage_veiled]
  rfl

/-! The sweep -/

theorem State.endIfAccounted_veiled (s : State) : (s.veiled v).endIfAccounted = s.endIfAccounted.veiled v :=
  State.veiled_ite (fun _ => rfl) (fun _ => rfl)

theorem State.markLeft_veiled (s : State) (i : Fin 48) : (s.veiled v).markLeft i = (s.markLeft i).veiled v := by
  refine State.veiled_ite (fun _ => ?_) (fun _ => rfl)
  exact State.endIfAccounted_veiled ({ s with sweep := { s.sweep with left := s.sweep.left + 1 } }.modifyRecord i
    fun r => { r with mark := .left })

theorem State.creditSweep_veiled (s : State) (i : Fin 48) : (s.veiled v).creditSweep i = (s.creditSweep i).veiled v := by
  refine State.veiled_ite (fun _ => ?_) (fun _ => rfl)
  exact State.endIfAccounted_veiled ({ s with sweep := { s.sweep with answered := s.sweep.answered + 1 } }.modifyRecord i
    fun r => { r with mark := .answered })

theorem State.countEntered_veiled (s : State) : (s.veiled v).countEntered = s.countEntered.veiled v :=
  State.veiled_ite (fun _ => rfl) (fun _ => rfl)

/-! Summons, grants and contexts -/

theorem State.giveTag_veiled (s : State) (i : Fin 48) : (s.veiled v).giveTag i = (s.giveTag i).veiled v := rfl

theorem State.endSummon_veiled (s : State) (i : Fin 48) (o : SummonOutcome) :
    (s.veiled v).endSummon i o = (s.endSummon i o).veiled v := by
  have counted : ({ s.veiled v with roster := { (s.veiled v).roster with summonCount := (s.veiled v).roster.summonCount - 1 } } :
      State) = State.veiled { s with roster := { s.roster with summonCount := s.roster.summonCount - 1 } } v := rfl
  have modify (t : State) (f : Record → Record) : (t.veiled v).modifyRecord i f = (t.modifyRecord i f).veiled v := rfl
  unfold State.endSummon
  rw [State.record_veiled, counted, modify, State.offerReason_veiled]
  exact State.veiled_ite (fun _ => rfl) (fun _ => rfl)

/-- The grant list changed under a veil. -/
theorem State.setGrants_veiled (s : State) (g : List (Fin 48)) :
    ({ s.veiled v with air := { (s.veiled v).air with grants := g } } : State) =
      State.veiled { s with air := { s.air with grants := g } } v := by
  unfold State.veiled
  rw [v.grants s.air g]
  rfl

theorem State.withdrawGrant_veiled (s : State) (i : Fin 48) : (s.veiled v).withdrawGrant i = (s.withdrawGrant i).veiled v := by
  unfold State.withdrawGrant
  rw [State.grants_veiled, State.setGrants_veiled]

theorem State.placeGrant_veiled (s : State) (i : Fin 48) : (s.veiled v).placeGrant i = (s.placeGrant i).veiled v := by
  unfold State.placeGrant
  rw [State.grants_veiled]
  exact State.veiled_ite (fun _ => rfl) (fun _ => s.setGrants_veiled _)

theorem State.openContext_veiled (s : State) (i : Fin 48) (role : HandoverRole) (peer : Nat) (level : Option Nat) :
    (s.veiled v).openContext i role peer level = (s.openContext i role peer level).veiled v := by
  unfold State.openContext
  have modify (f : Record → Record) : (s.veiled v).modifyRecord i f = (s.modifyRecord i f).veiled v := rfl
  rw [show (s.veiled v).deadlineNow = s.deadlineNow from rfl, modify, State.arbitrateToward_veiled]

theorem State.passOver_veiled (s : State) (i : Fin 48) : (s.veiled v).passOver i = (s.passOver i).veiled v := by
  unfold State.passOver
  rw [State.leavesPaging_veiled]
  rfl

/-! The ends of a stay -/

theorem State.dropPin_veiled (s : State) (i : Fin 48) : (s.veiled v).dropPin i = (s.dropPin i).veiled v :=
  State.veiled_ite (fun _ => rfl) (fun _ => rfl)

theorem State.emptyRecord_veiled (s : State) (i : Fin 48) : (s.veiled v).emptyRecord i = (s.emptyRecord i).veiled v := by
  unfold State.emptyRecord
  rw [State.passOver_veiled]
  exact State.reportIdentity_veiled ((s.passOver i).modifyRecord i fun r => { Record.free with carId := r.carId, mark := r.mark })

theorem State.reportAllocatable_veiled (s : State) (i : Fin 48) :
    (s.veiled v).reportAllocatable i = (s.reportAllocatable i).veiled v :=
  State.veiled_ite (fun _ => rfl) (fun _ => s.reportCause_veiled (by decide) (by decide) false)

theorem State.becomeFree_veiled (s : State) (i : Fin 48) (notes : Bool) (reason : Option Reason) :
    (s.veiled v).becomeFree i notes reason = (s.becomeFree i notes reason).veiled v := by
  unfold State.becomeFree State.freeCellsOf
  have context (t : State) : (t.veiled v).dropContext i = (t.dropContext i).veiled v := rfl
  dsimp only
  rw [State.withdrawGrant_veiled, State.freeCellsWhere_veiled, State.freeMessages_veiled, context, State.endSummon_veiled,
    State.dropPin_veiled, State.markLeft_veiled, State.emptyRecord_veiled, State.offerReasonOpt_veiled,
    State.reportAllocatable_veiled]

theorem State.becomeDormant_veiled (s : State) (i : Fin 48) : (s.veiled v).becomeDormant i = (s.becomeDormant i).veiled v :=
  State.offerReason_veiled (s.modifyRecord i fun r => { r with contact := .dormant, pageCount := 0, lastHanding := none }) i .dormant

theorem State.releaseRecord_veiled (s : State) (i : Fin 48) : (s.veiled v).releaseRecord i = (s.releaseRecord i).veiled v := by
  unfold State.releaseRecord State.freeRoleOf
  have releasing : (s.veiled v).modifyRecord i (fun r => { r with contact := .releasing }) =
      (s.modifyRecord i fun r => { r with contact := .releasing }).veiled v := rfl
  dsimp only
  rw [releasing, State.freeCellsWhere_veiled, State.cancelRetune_veiled, State.withdrawGrant_veiled, State.endSummon_veiled,
    State.dropClaim_veiled]

end

end Sys2Proof.Machine

/-! The work of a slot end under a veil -/

namespace Sys2Proof.Machine

/-! ## The work of a slot end under a veil

The hails, the exchanges, the held work and the pages, each of which leaves a veil in its place. -/

section
variable {v : Veil}

theorem State.modifyRecord_veiled (s : State) (i : Fin 48) (f : Record → Record) :
    (s.veiled v).modifyRecord i f = (s.modifyRecord i f).veiled v := rfl

theorem State.askedPeriod_veiled (s : State) (h : Hail) : (s.veiled v).askedPeriod h = s.askedPeriod h := rfl

theorem State.entryOpen_veiled (s : State) : (s.veiled v).air.entryOpen = s.air.entryOpen := v.entryOpen s.air

theorem State.phase_veiled (s : State) : (s.veiled v).phase = s.phase := by
  unfold State.phase
  rw [show (s.veiled v).air = v.air s.air from rfl, v.cycle]

/-! Hails -/

theorem State.openClaim_veiled (s : State) (i : Fin 48) (peer level : Nat) :
    (s.veiled v).openClaim i peer level = (s.openClaim i peer level).veiled v := by
  unfold State.openClaim
  rw [State.params_veiled, State.record_veiled]
  refine State.veiled_ite (fun _ => rfl) (fun _ => ?_)
  cases portToward s.params.station peer with
  | none => rfl
  | some p =>
      dsimp only
      rw [State.port_veiled]
      exact State.veiled_ite (fun _ => s.setSoft_veiled i .noRoute) (fun _ => s.openContext_veiled i .claiming peer (some level))

theorem State.refuseHail_veiled (s : State) {c : ConditionClass} (check : c ≠ .airCheck) (dark : c ≠ .airDark) :
    (s.veiled v).refuseHail c = (s.refuseHail c).veiled v := s.countRefused.reportCause_veiled check dark true

theorem State.allocateTurn_veiled (s : State) (i : Fin 48) (t : Turn) :
    (s.veiled v).allocateTurn i t = (s.allocateTurn i t).veiled v := by
  unfold State.allocateTurn
  rw [State.giveTurnCells_veiled, State.modifyRecord_veiled]

theorem State.noteDegrade_veiled (s : State) (i : Fin 48) (asked granted : Period) :
    (s.veiled v).noteDegrade i asked granted = (s.noteDegrade i asked granted).veiled v :=
  State.veiled_ite (fun _ => rfl) (fun _ => s.setSoft_veiled i .degraded)

theorem State.admitCar_veiled (s : State) (h : Hail) (level : Nat) : (s.veiled v).admitCar h level = (s.admitCar h level).veiled v := by
  unfold State.admitCar
  rw [show (s.veiled v).allocatable = s.allocatable from rfl, show (s.veiled v).askedPeriod h = s.askedPeriod h from rfl,
    show (s.veiled v).findTurn (s.askedPeriod h) = s.findTurn (s.askedPeriod h) from rfl]
  cases s.allocatable with
  | none => exact s.refuseHail_veiled (by decide) (by decide)
  | some i => cases s.findTurn (s.askedPeriod h) with
    | none => exact s.refuseHail_veiled (by decide) (by decide)
    | some t =>
        dsimp only
        rw [State.setRecord_veiled, State.giveTag_veiled, State.allocateTurn_veiled, State.askedPeriod_veiled,
          State.noteDegrade_veiled, State.placeGrant_veiled, State.openClaim_veiled, State.countEntered_veiled]

theorem State.regrant_veiled (s : State) (i : Fin 48) (level : Nat) : (s.veiled v).regrant i level = (s.regrant i level).veiled v := by
  unfold State.regrant
  rw [State.modifyRecord_veiled, State.placeGrant_veiled]

theorem State.reenter_veiled (s : State) (i : Fin 48) (h : Hail) (level : Nat) :
    (s.veiled v).reenter i h level = (s.reenter i h level).veiled v := by
  unfold State.reenter State.freeRoleOf
  dsimp only
  rw [State.giveTag_veiled, State.modifyRecord_veiled, State.freeCellsWhere_veiled, State.cancelRetune_veiled, State.setSoft_veiled,
    State.placeGrant_veiled]

theorem State.revive_veiled (s : State) (i : Fin 48) (h : Hail) (level : Nat) :
    (s.veiled v).revive i h level = (s.revive i h level).veiled v := by
  unfold State.revive
  rw [show (s.veiled v).askedPeriod h = s.askedPeriod h from rfl,
    show (s.veiled v).findTurn (s.askedPeriod h) = s.findTurn (s.askedPeriod h) from rfl]
  cases s.findTurn (s.askedPeriod h) with
  | none => exact s.refuseHail_veiled (by decide) (by decide)
  | some t =>
      dsimp only
      rw [State.giveTag_veiled, State.modifyRecord_veiled, State.allocateTurn_veiled, State.askedPeriod_veiled, State.noteDegrade_veiled,
        State.placeGrant_veiled, State.openClaim_veiled]

theorem State.decideHail_veiled (s : State) (h : Hail) (level : Nat) :
    (s.veiled v).decideHail h level = (s.decideHail h level).veiled v := by
  unfold State.decideHail
  rw [State.lookup_veiled, State.entryOpen_veiled]
  cases s.lookup h.carId with
  | none => exact State.veiled_ite (fun _ => s.admitCar_veiled h level) (fun _ => rfl)
  | some i =>
      dsimp only
      rw [State.record_veiled]
      refine State.veiled_ite (fun _ => rfl) (fun _ => ?_)
      cases (s.record i).contact with
      | granted => exact State.veiled_ite (fun _ => s.regrant_veiled i level) (fun _ => rfl)
      | present => exact State.veiled_ite (fun _ => s.reenter_veiled i h level) (fun _ => rfl)
      | paging => exact State.veiled_ite (fun _ => s.revive_veiled i h level) (fun _ => rfl)
      | dormant => exact State.veiled_ite (fun _ => s.revive_veiled i h level) (fun _ => rfl)
      | free => rfl
      | outbound => rfl
      | releasing => rfl

theorem State.lapseGrant_veiled (s : State) (i : Fin 48) : (s.veiled v).lapseGrant i = (s.lapseGrant i).veiled v := by
  unfold State.lapseGrant
  rw [State.endSummon_veiled, State.dropClaim_veiled]
  refine State.veiled_ite (fun _ => ?_) (fun _ => State.becomeFree_veiled _ i true _)
  rw [State.withdrawGrant_veiled, State.giveUpTurn_veiled, State.becomeDormant_veiled]

/-! Exchanges -/

theorem State.enterPaging_veiled (s : State) (i : Fin 48) : (s.veiled v).enterPaging i = (s.enterPaging i).veiled v := rfl

theorem State.lapse_veiled (s : State) (i : Fin 48) : (s.veiled v).lapse i = (s.lapse i).veiled v := by
  unfold State.lapse
  rw [State.giveUpTurn_veiled, State.enterPaging_veiled, State.offerReason_veiled]

theorem State.takeIdentity_veiled (s : State) (i : Fin 48) : (s.veiled v).takeIdentity i = (s.takeIdentity i).veiled v := by
  unfold State.takeIdentity
  rw [State.modifyRecord_veiled, State.offerReason_veiled, State.reportIdentity_veiled, State.dropClaim_veiled]

theorem State.makeContact_veiled (s : State) (i : Fin 48) : (s.veiled v).makeContact i = (s.makeContact i).veiled v := by
  refine State.veiled_ite (fun _ => ?_) (fun _ => rfl)
  rw [State.modifyRecord_veiled, State.offerReason_veiled, State.endSummon_veiled]

theorem State.applyReading_veiled (s : State) (i : Fin 48) (reading : Nat) :
    (s.veiled v).applyReading i reading = (s.applyReading i reading).veiled v := by
  unfold State.applyReading
  rw [State.params_veiled, State.modifyRecord_veiled]
  exact State.veiled_ite (fun _ => State.offerReason_veiled _ i .fading) (fun _ => rfl)

theorem State.deliverMessage_veiled (s : State) (i : Fin 48) : (s.veiled v).deliverMessage i = (s.deliverMessage i).veiled v := by
  unfold State.deliverMessage
  rw [State.record_veiled]
  cases (s.record i).inFlight with
  | none => rfl
  | some b =>
      dsimp only
      rw [State.pool_veiled]
      cases s.pool[b] with
      | none => rfl
      | some m =>
          dsimp only
          rw [State.retireMessage_veiled, State.noteFor_veiled]

theorem State.failMessage_veiled (s : State) (i : Fin 48) : (s.veiled v).failMessage i = (s.failMessage i).veiled v := by
  unfold State.failMessage
  rw [State.record_veiled]
  cases (s.record i).inFlight with
  | none => rfl
  | some b =>
      dsimp only
      rw [State.pool_veiled]
      cases s.pool[b] with
      | none => rfl
      | some m =>
          refine State.veiled_ite (fun _ => ?_) (fun _ => s.setBuffer_veiled b _)
          rw [State.retireMessage_veiled, State.setSoft_veiled, State.noteFor_veiled]

theorem State.judgeAck_veiled (s : State) (i : Fin 48) (poll : Poll) (ack : Bool) :
    (s.veiled v).judgeAck i poll ack = (s.judgeAck i poll ack).veiled v :=
  State.veiled_ite (fun _ => State.veiled_ite (fun _ => s.deliverMessage_veiled i) (fun _ => s.failMessage_veiled i))
    (fun _ => rfl)

theorem State.takeInbound_veiled (s : State) (i : Fin 48) (m : AnswerMessage) :
    (s.veiled v).takeInbound i m = (s.takeInbound i m).veiled v := by
  unfold State.takeInbound
  rw [State.record_veiled]
  refine State.veiled_ite (fun _ => rfl) (fun _ => ?_)
  cases m.addressee with
  | here => exact State.veiled_ite (fun _ => rfl) (fun _ => rfl)
  | dispatch =>
      refine State.veiled_ite (fun _ => ?_) (fun _ => rfl)
      unfold State.placeUplink State.acceptUpBit
      rw [State.offerTraffic_veiled, State.modifyRecord_veiled]
      rfl

theorem State.takeAnswerMessage_veiled (s : State) (i : Fin 48) (a : Answer) :
    (s.veiled v).takeAnswerMessage i a = (s.takeAnswerMessage i a).veiled v := by
  unfold State.takeAnswerMessage
  cases a.message with
  | none => rfl
  | some m => exact s.takeInbound_veiled i m

theorem State.confirmRetune_veiled (s : State) (i : Fin 48) : (s.veiled v).confirmRetune i = (s.confirmRetune i).veiled v := by
  unfold State.confirmRetune
  rw [State.record_veiled]
  cases (s.record i).retune with
  | none => rfl
  | some c =>
      dsimp only
      rw [State.freeCellsWhere_veiled]
      generalize s.freeCellsWhere (fun h => h.holder == i && (h.role == .turn || h.role == .waiting)) = w
      exact State.offerReason_veiled
        (({ w with cells := w.cells.map fun x => x.map (CellHolding.confirmed i) } : State).modifyRecord i
          fun r => { r with turn := some c.target, retune := none }) i (.retuneEnded .done)

theorem State.failRetune_veiled (s : State) (i : Fin 48) : (s.veiled v).failRetune i = (s.failRetune i).veiled v := by
  unfold State.failRetune
  rw [State.cancelRetune_veiled, State.setSoft_veiled, State.offerReason_veiled]

theorem State.tryRetune_veiled (s : State) (i : Fin 48) : (s.veiled v).tryRetune i = (s.tryRetune i).veiled v := by
  unfold State.tryRetune
  rw [State.record_veiled]
  cases (s.record i).retune with
  | none => rfl
  | some c =>
      dsimp only
      rw [State.modifyRecord_veiled]
      exact State.veiled_ite (fun _ => State.failRetune_veiled _ i) (fun _ => rfl)

theorem State.lend_veiled (s : State) (i : Fin 48) (slot : Nat) : (s.veiled v).lend i slot = (s.lend i slot).veiled v := by
  unfold State.lend State.loanSlot
  rw [State.record_veiled, State.phase_veiled]
  refine State.veiled_ite (fun _ => ?_) (fun _ => rfl)
  rw [show (fun k => (s.veiled v).cellFree k s.phase) = fun k => s.cellFree k s.phase from rfl]
  cases (slotsAfter slot).find? fun k => s.cellFree k s.phase with
  | none => rfl
  | some k => rfl

theorem State.matchedExchange_veiled (s : State) (i : Fin 48) (poll : Poll) (a : Answer) (level slot : Nat) :
    (s.veiled v).matchedExchange i poll a level slot = (s.matchedExchange i poll a level slot).veiled v := by
  unfold State.matchedExchange State.clearMisses
  dsimp only
  rw [State.modifyRecord_veiled, State.makeContact_veiled, State.applyReading_veiled, State.judgeAck_veiled,
    State.takeAnswerMessage_veiled, State.creditSweep_veiled]
  generalize ((((((s.modifyRecord i fun r => { r with missCount := 0, mismatchCount := 0, grantMisses := 0 }).makeContact
    i).applyReading i level).judgeAck i poll a.downAck).takeAnswerMessage i a).creditSweep i) = w
  have confirmed : (if poll.retune.isSome then (w.veiled v).confirmRetune i else w.veiled v) =
      (if poll.retune.isSome then w.confirmRetune i else w).veiled v :=
    State.veiled_ite (fun _ => w.confirmRetune_veiled i) (fun _ => rfl)
  rw [confirmed]
  exact State.veiled_ite (fun _ => State.lend_veiled _ i slot) (fun _ => rfl)

theorem State.countMiss_veiled (s : State) (i : Fin 48) (own : Bool) : (s.veiled v).countMiss i own = (s.countMiss i own).veiled v :=
  State.veiled_ite (fun _ => rfl) (fun _ => rfl)

theorem State.countMismatch_veiled (s : State) (i : Fin 48) : (s.veiled v).countMismatch i = (s.countMismatch i).veiled v := by
  unfold State.countMismatch
  rw [State.modifyRecord_veiled, State.setSoft_veiled]
  exact State.veiled_ite (fun _ => State.takeIdentity_veiled _ i) (fun _ => rfl)

theorem State.noteOutcome_veiled (s : State) (i : Fin 48) (own : Bool) (o : ExchangeOutcome) :
    (s.veiled v).noteOutcome i own o = (s.noteOutcome i own o).veiled v := by
  cases o with
  | mismatched => exact s.countMismatch_veiled i
  | garbled => exact State.veiled_ite (fun _ => s.setSoft_veiled i .garbled) (fun _ => rfl)
  | matched _ _ => rfl
  | absent => rfl
  | dark => rfl

theorem State.missedExchange_veiled (s : State) (i : Fin 48) (own : Bool) (poll : Poll) (o : ExchangeOutcome) :
    (s.veiled v).missedExchange i own poll o = (s.missedExchange i own poll o).veiled v := by
  unfold State.missedExchange
  rw [State.countMiss_veiled, State.noteOutcome_veiled]
  generalize (s.countMiss i own).noteOutcome i own o = w
  have failed : (if poll.message.isSome then (w.veiled v).failMessage i else w.veiled v) =
      (if poll.message.isSome then w.failMessage i else w).veiled v :=
    State.veiled_ite (fun _ => w.failMessage_veiled i) (fun _ => rfl)
  dsimp only
  rw [failed]
  generalize (if poll.message.isSome then w.failMessage i else w) = u
  have tried : (if poll.retune.isSome then (u.veiled v).tryRetune i else u.veiled v) =
      (if poll.retune.isSome then u.tryRetune i else u).veiled v :=
    State.veiled_ite (fun _ => u.tryRetune_veiled i) (fun _ => rfl)
  refine State.veiled_ite (fun _ => u.lapse_veiled i) (fun _ => ?_)
  rw [tried]
  exact State.veiled_ite (fun _ => State.lapseGrant_veiled _ i) (fun _ => rfl)

theorem State.completeRelease_veiled (s : State) (i : Fin 48) : (s.veiled v).completeRelease i = (s.completeRelease i).veiled v := by
  refine State.veiled_ite (fun _ => ?_) (fun _ => State.becomeFree_veiled s i true _)
  dsimp only
  rw [State.withdrawGrant_veiled, State.giveUpTurn_veiled, State.modifyRecord_veiled, State.markLeft_veiled,
    State.becomeDormant_veiled]

theorem State.judgeExchange_veiled (s : State) (x : Exchange) (sent : Bool) (slot : Nat) (o : ExchangeOutcome) :
    (s.veiled v).judgeExchange x sent slot o = (s.judgeExchange x sent slot o).veiled v := by
  unfold State.judgeExchange
  refine State.veiled_ite (fun _ => State.veiled_ite (fun _ => s.completeRelease_veiled x.record) (fun _ => rfl)) (fun _ => ?_)
  cases o with
  | matched a level => exact s.matchedExchange_veiled x.record x.poll a level slot
  | dark => rfl
  | mismatched => exact s.missedExchange_veiled x.record _ x.poll .mismatched
  | garbled => exact s.missedExchange_veiled x.record _ x.poll .garbled
  | absent => exact s.missedExchange_veiled x.record _ x.poll .absent

/-! Pages -/

theorem State.usePages_veiled (s : State) (pages : List BeaconPage) : (s.veiled v).usePages pages = (s.usePages pages).veiled v := by
  unfold State.usePages
  have used : pages.foldl State.usePage (s.veiled v) = (pages.foldl State.usePage s).veiled v :=
    State.veiled_foldl (f := State.usePage) (fun t p => State.veiled_ite (fun _ => rfl) (fun _ => rfl)) pages s
  rw [used]
  cases pages.getLast? <;> rfl

theorem State.exhaust_veiled (s : State) (i : Fin 48) : (s.veiled v).exhaust i = (s.exhaust i).veiled v := by
  unfold State.exhaust
  rw [State.endSummon_veiled]
  exact State.veiled_ite (fun _ => State.becomeDormant_veiled _ i) (fun _ => State.becomeFree_veiled _ i true _)

theorem State.exhaustPages_veiled (s : State) : (s.veiled v).exhaustPages = s.exhaustPages.veiled v :=
  State.veiled_foldl (f := fun s i =>
    if (s.record i).contact == .paging && (s.record i).pageCount == 0 then s.exhaust i else s)
    (fun t i => State.veiled_ite (fun _ => t.exhaust_veiled i) (fun _ => rfl)) allRecords s

/-! Held work -/

theorem State.acceptClaim_veiled (s : State) (i : Fin 48) (claimant : Nat) :
    (s.veiled v).acceptClaim i claimant = (s.acceptClaim i claimant).veiled v := by
  unfold State.acceptClaim
  dsimp only
  rw [State.withdrawGrant_veiled, State.giveUpTurn_veiled, State.passOver_veiled, State.modifyRecord_veiled,
    State.openContext_veiled, State.endSummon_veiled, State.markLeft_veiled]

theorem State.makeDue_veiled (s : State) (i : Fin 48) : (s.veiled v).makeDue i = (s.makeDue i).veiled v := by
  unfold State.makeDue
  rw [State.record_veiled]
  cases (s.record i).handover with
  | none => rfl
  | some c =>
      dsimp only
      rw [State.modifyRecord_veiled, State.arbitrateToward_veiled]

theorem State.takeClaim_veiled (s : State) (claimant car level : Nat) :
    (s.veiled v).takeClaim claimant car level = (s.takeClaim claimant car level).veiled v := by
  unfold State.takeClaim
  rw [show (s.veiled v).decideClaim claimant car level = s.decideClaim claimant car level from rfl]
  cases s.decideClaim claimant car level with
  | refused reason => exact s.sendToward_veiled claimant _
  | again i => exact s.makeDue_veiled i
  | accepted i => exact s.acceptClaim_veiled i claimant

theorem State.placeMessages_veiled (i : Fin 48) (ms : List TransferMessage) :
    ∀ (s : State) (n : Nat), (s.veiled v).placeMessages i n ms =
      ((s.placeMessages i n ms).1.veiled v, (s.placeMessages i n ms).2) := by
  induction ms with
  | nil => exact fun _ _ => rfl
  | cons m rest ih =>
      intro s n
      unfold State.placeMessages
      rw [show (s.veiled v).hasRoom i = s.hasRoom i from rfl, State.placeMessage_veiled, ih]
      split <;> rfl

theorem State.dropTransferred_veiled (s : State) (i : Fin 48) (car : Nat) (dropped : List TransferMessage) :
    (s.veiled v).dropTransferred i car dropped = (s.dropTransferred i car dropped).veiled v := by
  unfold State.dropTransferred
  rw [State.veiled_foldl fun t m => t.noteFor_veiled car _ _ .dropped]
  exact State.veiled_ite (fun _ => rfl) (fun _ => State.setSoft_veiled _ i .partialTransfer)

theorem State.countPlaced_veiled (s : State) (i : Fin 48) : (s.veiled v).countPlaced i = (s.countPlaced i).veiled v :=
  State.veiled_ite (fun _ => s.countEntered_veiled) (fun _ => rfl)

theorem State.placeTransfer_veiled (s : State) (i : Fin 48) (sender car cls : Nat) (ms : List TransferMessage) :
    (s.veiled v).placeTransfer i sender car cls ms = (s.placeTransfer i sender car cls ms).veiled v := by
  unfold State.placeTransfer
  rw [State.placeMessages_veiled]
  rcases s.placeMessages i 0 ms with ⟨w, placed, dropped⟩
  dsimp only
  rw [State.dropTransferred_veiled, State.modifyRecord_veiled, State.offerReason_veiled, State.countPlaced_veiled,
    State.sendToward_veiled]

theorem State.takeTransfer_veiled (s : State) (port : Port) (sender car cls : Nat) (ms : List TransferMessage) :
    (s.veiled v).takeTransfer port sender car cls ms = (s.takeTransfer port sender car cls ms).veiled v := by
  unfold State.takeTransfer
  rw [State.lookup_veiled]
  cases s.lookup car with
  | none => exact s.modifyPort_veiled port _
  | some i =>
      exact State.veiled_ite (fun _ => s.placeTransfer_veiled i sender car cls ms) (fun _ =>
        State.veiled_ite (fun _ => s.sendToward_veiled sender _) (fun _ => s.modifyPort_veiled port _))

theorem State.takeTaken_veiled (s : State) (sender car : Nat) : (s.veiled v).takeTaken sender car = (s.takeTaken sender car).veiled v := by
  unfold State.takeTaken
  rw [State.lookup_veiled]
  cases s.lookup car with
  | none => rfl
  | some i => exact State.veiled_ite (fun _ => s.becomeFree_veiled i false _) (fun _ => rfl)

theorem State.refuseClaiming_veiled (s : State) (i : Fin 48) : (s.veiled v).refuseClaiming i = (s.refuseClaiming i).veiled v :=
  State.veiled_ite (fun _ => (s.dropContext i).releaseRecord_veiled i) (fun _ => rfl)

theorem State.takeRefused_veiled (s : State) (sender car : Nat) (reason : RefusedReason) :
    (s.veiled v).takeRefused sender car reason = (s.takeRefused sender car reason).veiled v := by
  unfold State.takeRefused
  rw [State.lookup_veiled]
  cases s.lookup car with
  | none => rfl
  | some i =>
      refine State.veiled_ite (fun _ => ?_) (fun _ => rfl)
      cases reason with
      | notHeld => rfl
      | kept => exact s.refuseClaiming_veiled i
      | contested => exact s.refuseClaiming_veiled i
      | busy => rfl

theorem State.takeHandoverFrame_veiled (s : State) (port : Port) (f : BackboneFrame) :
    (s.veiled v).takeHandoverFrame port f = (s.takeHandoverFrame port f).veiled v := by
  unfold State.takeHandoverFrame
  cases f.payload with
  | claim car _ level _ => exact s.takeClaim_veiled f.source car level
  | transfer car cls ms => exact s.takeTransfer_veiled port f.source car cls ms
  | taken car _ => exact s.takeTaken_veiled f.source car
  | refused car reason => exact s.takeRefused_veiled f.source car reason
  | hello _ | locate _ _ | located | relay | note | uplink => rfl

theorem State.startRetune_veiled (s : State) (i : Fin 48) (code : Byte) :
    (s.veiled v).startRetune i code = (s.startRetune i code).veiled v := by
  unfold State.startRetune
  rw [show (s.veiled v).findPlace = s.findPlace from rfl]
  cases (Period.ofCode code.toNat).bind s.findPlace with
  | none => rfl
  | some t =>
      dsimp only
      unfold State.reserveRetune
      rw [State.giveTurnCells_veiled, State.modifyRecord_veiled]

theorem State.unpinRecord_veiled (s : State) (i : Fin 48) : (s.veiled v).unpinRecord i = (s.unpinRecord i).veiled v := by
  unfold State.unpinRecord
  rw [State.dropPin_veiled]
  exact State.veiled_ite (fun _ => State.veiled_ite (fun _ => State.becomeFree_veiled _ i true none) (fun _ => rfl)) (fun _ => rfl)

theorem State.applyCommand_veiled (s : State) (i : Fin 48) (c : HeldCommand) :
    (s.veiled v).applyCommand i c = (s.applyCommand i c).veiled v := by
  cases c with
  | retire => exact s.becomeFree_veiled i true none
  | release => exact s.releaseRecord_veiled i
  | retune code => exact s.startRetune_veiled i code
  | clearFault => exact State.reportIdentity_veiled (s.modifyRecord i fun r => { r with hard := none, mismatchCount := 0 })
  | pin => exact State.veiled_ite (fun _ => rfl) (fun _ => rfl)
  | unpin => exact s.unpinRecord_veiled i

theorem State.takeHeld_veiled (i : Fin 48) (s : State) (w : HeldWork) :
    State.takeHeld i (s.veiled v) w = (State.takeHeld i s w).veiled v := by
  cases w with
  | frame port f => exact s.takeHandoverFrame_veiled port f
  | command c =>
      unfold State.takeHeld
      dsimp only
      have checked : (s.veiled v).checkCommand i c = s.checkCommand i c := by cases c <;> rfl
      rw [checked]
      cases s.checkCommand i c with
      | some status => rfl
      | none => exact s.applyCommand_veiled i c

theorem State.endCycle_veiled (s : State) : (s.veiled v).endCycle = s.endCycle.veiled v := by
  unfold State.endCycle
  rw [State.freeCellsWhere_veiled]
  rfl

end

end Sys2Proof.Machine

/-! The end of a turn slot and the work held for it -/

namespace Sys2Proof.Machine

/-! ## The end of a turn slot and the work held for it (R36, R37) -/

/-- A veil over the work held and the halt that waits alone. -/
def Veil.plain (held : List HeldWork → List HeldWork) (halt : Bool → Bool) : Veil where
  air := id
  held := held
  halt := halt
  garbledFrames := id
  airCheck := id
  airDark := id
  grants _ _ := rfl
  entryOpen _ := rfl
  cycle _ := rfl
  inBeacon _ := rfl

theorem State.setClass_self (s : State) (c : ConditionClass) : s.setClass c (s.classFlags c) = s := by
  unfold State.setClass State.classFlags
  rw [show s.conditions.set c.index s.conditions[c.index] = s.conditions from Vector.set_getElem_self c.index.isLt]

theorem State.veiled_plain (s : State) (held : List HeldWork → List HeldWork) (halt : Bool → Bool) :
    s.veiled (.plain held halt) =
      { s with roster := { s.roster with held := held s.roster.held }, sweep := s.sweep.veiled (.plain held halt) } := by
  have conditions : s.classesVeiled (.plain held halt) = s.conditions := by
    show ((s.setClass .airCheck (s.classFlags .airCheck)).setClass .airDark
      ((s.classFlags .airDark))).conditions = s.conditions
    rw [State.setClass_self, State.setClass_self]
  unfold State.veiled
  rw [conditions]
  rfl

/-- A sweep whose waiting halt a veil leaves is left whole. -/
theorem Sweep.veiled_same {w : Sweep} {v : Veil} (h : w.state = .running → v.halt w.haltPending = w.haltPending) :
    w.veiled v = w := by
  obtain ⟨state, _, _, _, _, pending⟩ := w
  cases state with
  | running =>
      have same : v.halt pending = pending := h rfl
      unfold Sweep.veiled
      dsimp only
      rw [same]
  | idle | halted | complete => rfl

section
variable {held : List HeldWork → List HeldWork} {halt : Bool → Bool}

theorem State.countDarkEnd_plain (s : State) :
    (s.veiled (.plain held halt)).countDarkEnd = s.countDarkEnd.veiled (.plain held halt) := by
  rw [State.veiled_plain, State.veiled_plain]
  unfold State.countDarkEnd
  cases s.air.light <;> rfl

theorem State.countWindow_plain (s : State) (w : WindowResult Answer) :
    (s.veiled (.plain held halt)).countWindow w = (s.countWindow w).veiled (.plain held halt) := by
  rw [State.veiled_plain, State.veiled_plain]
  cases w <;> rfl

theorem State.countGarbled_plain (s : State) :
    (s.veiled (.plain held halt)).countGarbled = s.countGarbled.veiled (.plain held halt) := by
  rw [State.veiled_plain, State.veiled_plain]
  rfl

end

/-! ## A halt that does not wait -/

/-- No halt waits for a sweep that is RUNNING. -/
def State.haltFree (s : State) : Prop := s.sweep.state = .running → s.sweep.haltPending = false

/-- The veil that takes a waiting halt away. -/
def Veil.unhalted : Veil := .plain id fun _ => false

theorem State.haltFree_iff (s : State) : s.haltFree ↔ s.veiled .unhalted = s := by
  unfold Veil.unhalted
  rw [State.veiled_plain]
  constructor
  · intro free
    have sweep : s.sweep.veiled (.plain id fun _ => false) = s.sweep := Sweep.veiled_same fun running => (free running).symm
    rw [sweep]
    rfl
  · intro same running
    have pending := congrArg (fun t => t.sweep.haltPending) same
    dsimp only [Sweep.veiled] at pending
    rw [running] at pending
    exact pending.symm

theorem State.haltFree.of_false {s : State} (h : s.sweep.haltPending = false) : s.haltFree := fun _ => h

/-- Work that commutes with the veil makes no halt wait. -/
theorem State.haltFree.kept {s : State} (free : s.haltFree) {f : State → State}
    (veiled : f (s.veiled .unhalted) = (f s).veiled .unhalted) : (f s).haltFree := by
  rw [State.haltFree_iff] at free ⊢
  rw [← veiled, free]

theorem State.haltFree.applyHalt {s : State} (free : s.haltFree) : s.applyHalt = s := by
  unfold State.applyHalt
  refine if_neg fun waits => ?_
  rw [Bool.and_eq_true, beq_iff_eq] at waits
  rw [free waits.1] at waits
  exact absurd waits.2 (by decide)

theorem State.takeHeld_fold_veiled {v : Veil} (i : Fin 48) (work : List HeldWork) (s : State) :
    work.foldl (State.takeHeld i) (s.veiled v) = (work.foldl (State.takeHeld i) s).veiled v :=
  State.veiled_foldl (State.takeHeld_veiled i) work s

/-! ## The judgement of an exchange and the work held -/

/-- A turn slot's exchange counted and judged, its window not yet closed. -/
def State.judged (s : State) (x : Exchange) (slot : Nat) : State :=
  (s.countWindow (s.air.judge decodeAnswer)).judgeExchange x s.air.light.sent slot (x.poll.outcome (s.air.judge decodeAnswer))

theorem State.judged_plain (s : State) (held : List HeldWork → List HeldWork) (halt : Bool → Bool) (x : Exchange) (slot : Nat) :
    (s.veiled (.plain held halt)).judged x slot = (s.judged x slot).veiled (.plain held halt) := by
  unfold State.judged
  rw [State.countWindow_plain, State.judgeExchange_veiled]
  rfl

/-- The work held, replaced: the judgement of an exchange neither reads nor moves it. -/
def State.withHeld (s : State) (held : List HeldWork) : State := { s with roster := { s.roster with held := held } }

theorem State.veiled_held (s : State) (held : List HeldWork) : s.veiled (.plain (fun _ => held) id) = s.withHeld held := by
  rw [State.veiled_plain]
  have sweep : s.sweep.veiled (.plain (fun _ => held) id) = s.sweep := Sweep.veiled_same fun _ => rfl
  rw [sweep]
  rfl

theorem State.judged_withHeld (s : State) (held : List HeldWork) (x : Exchange) (slot : Nat) :
    (s.withHeld held).judged x slot = (s.judged x slot).withHeld held := by
  rw [← State.veiled_held, State.judged_plain, State.veiled_held]

theorem State.judged_held (s : State) (x : Exchange) (slot : Nat) : (s.judged x slot).roster.held = s.roster.held := by
  have same : s.judged x slot = (s.judged x slot).withHeld s.roster.held := s.judged_withHeld s.roster.held x slot
  rw [same]
  rfl

theorem State.endTurn_judged {s : State} {x : Exchange} (hx : s.air.exchange = some x) (slot : Nat) :
    s.endTurn slot = s.roster.held.foldl (State.takeHeld x.record) (s.judged x slot).windowClosed := by
  unfold State.endTurn
  rw [hx]
  have closed : (s.judged x slot).closeWindow x.record =
      (s.judged x slot).roster.held.foldl (State.takeHeld x.record) (s.judged x slot).windowClosed := rfl
  rw [State.judged_held] at closed
  exact closed

/-- The slot left behind, while the slot is not slot 0. -/
def Veil.cleared : Veil where
  air a := if a.slot = some 0 then a
    else { a with work := none, down := none, up := none, exchange := none, beacon := none, light := .ready }
  held := id
  halt := id
  garbledFrames := id
  airCheck := id
  airDark := id
  grants a g := by split <;> rfl
  entryOpen a := by split <;> rfl
  cycle a := by split <;> rfl
  inBeacon a := by
    by_cases h : a.slot = some 0
    · rw [if_pos h]
    · rw [if_neg h]
      have slot : (a.slot == some 0) = false := beq_false_of_ne h
      dsimp only
      rw [slot, Bool.false_and, Bool.false_and]

theorem State.veiled_cleared {s : State} (h : s.air.slot ≠ some 0) : s.veiled .cleared = s.clearSlot := by
  have air : Veil.cleared.air s.air = s.clearSlot.air := if_neg h
  have others : s.veiled .cleared = { s.veiled (.plain id id) with air := Veil.cleared.air s.air } := rfl
  rw [others, State.veiled_plain, air]
  have sweep : s.sweep.veiled (.plain id id) = s.sweep := Sweep.veiled_same fun _ => rfl
  rw [sweep]
  rfl

theorem State.slot_of_within {s t : State} (h : s.within t) : t.air.slot = s.air.slot := by
  have slot := congrArg Air.slot h.air
  exact slot

/-- The end of a turn slot 3 to 30: the exchange judged, its window closed, and the work held taken against the slot as it is
left behind. -/
theorem State.finishSlot_turn {s : State} {k : Fin 32} {x : Exchange} (hs : s.air.slot = some k) (low : 3 ≤ k.val)
    (high : k.val ≤ 30) (hx : s.air.exchange = some x) (free : s.haltFree) :
    s.finishSlot k.val =
      s.roster.held.foldl (State.takeHeld x.record) (s.countDarkEnd.judged x k.val).windowClosed.clearSlot := by
  have dark := s.countDarkEnd_frame
  have exchange : s.countDarkEnd.air.exchange = some x := by rw [dark]; exact hx
  have slot : s.countDarkEnd.air.slot = some k := by rw [dark]; exact hs
  have held : s.countDarkEnd.roster.held = s.roster.held := by rw [dark]
  have nonzero : (some k : Option (Fin 32)) ≠ some 0 := fun e => by
    have zero : k.val = 0 := congrArg Fin.val (Option.some.inj e)
    omega
  have turn : s.countDarkEnd.endNotice k.val = s.countDarkEnd.endTurn k.val := by
    unfold State.endNotice
    rw [if_neg (by omega), if_neg (by omega)]
  have darkFree : s.countDarkEnd.haltFree := free.kept (f := State.countDarkEnd) s.countDarkEnd_plain
  rw [s.finishSlot_early (by omega), turn, State.endTurn_judged exchange, held]
  generalize s.countDarkEnd = d at *
  have judgedFree : (d.judged x k.val).haltFree :=
    darkFree.kept (f := fun t => t.judged x k.val) (State.judged_plain d id (fun _ => false) x k.val)
  have within : d.within (d.judged x k.val) := (d.judged_settles x low).towithin
  generalize d.judged x k.val = j at *
  have closedFree : j.windowClosed.haltFree := judgedFree
  have doneFree : (s.roster.held.foldl (State.takeHeld x.record) j.windowClosed).haltFree :=
    closedFree.kept (f := fun t => s.roster.held.foldl (State.takeHeld x.record) t) (State.takeHeld_fold_veiled _ _ _)
  rw [doneFree.applyHalt]
  have closedSlot : j.windowClosed.air.slot ≠ some 0 := by
    show j.air.slot ≠ some 0
    rw [State.slot_of_within within, slot]
    exact nonzero
  have foldSlot : (s.roster.held.foldl (State.takeHeld x.record) j.windowClosed).air.slot ≠ some 0 := by
    rw [State.slot_of_within (State.takeHeld_fold_settles _ _ _).towithin]
    exact closedSlot
  rw [← State.veiled_cleared foldSlot, ← State.veiled_cleared closedSlot, State.takeHeld_fold_veiled]

theorem State.countDarkEnd_withHeld (s : State) (held : List HeldWork) :
    (s.withHeld held).countDarkEnd = s.countDarkEnd.withHeld held := by
  rw [← State.veiled_held, State.countDarkEnd_plain, State.veiled_held]

/-- The slot end with work held is the slot end without any, and then the work held. -/
theorem exec_slotEnd_held {s : State} {k : Fin 32} {w : SlotPhase} {x : Exchange} (hr : s.resetHeld = false)
    (hp : s.resetPending = false) (hs : s.air.slot = some k) (low : 3 ≤ k.val) (high : k.val ≤ 30) (hw : s.air.work = some w)
    (hx : s.air.exchange = some x) (free : s.haltFree) :
    ∃ t, exec .slotEnd (s.withHeld []) = .next t ∧ t.air.exchange = none ∧
      exec .slotEnd s = .next (s.roster.held.foldl (State.takeHeld x.record) t) := by
  have early : exec .slotEnd (s.withHeld []) = .next ((s.withHeld []).finishSlot k.val) := exec_slotEnd hr hp hs hw
  have unheld := State.finishSlot_turn (s := s.withHeld []) hs low high hx free
  rw [State.countDarkEnd_withHeld, State.judged_withHeld] at unheld
  refine ⟨_, early.trans (congrArg _ unheld), rfl, ?_⟩
  rw [exec_slotEnd hr hp hs hw, State.finishSlot_turn hs low high hx free]
  rfl

/-! ## Work held or taken at once -/

/-- A frame for a record in its exchange is held. -/
theorem State.handoverArrival_held {s : State} {p : Port} {f : BackboneFrame} {car : Nat} {i : Fin 48}
    (found : s.lookup car = some i) (busy : s.inExchange i = true) : s.handoverArrival p f car = s.holdWork (.frame p f) := by
  have holds : s.holdsFrame car = true := by
    unfold State.holdsFrame
    rw [found]
    exact busy
  unfold State.handoverArrival
  rw [holds]
  rfl

/-- A held command carried out, or refused with nothing done but the soft fault cleared. -/
theorem exec_heldCommand_taken {s : State} (h : s.takesRequests = true) {i : Fin 48} (hx : s.inExchange i = false)
    (c : HeldCommand) :
    ∃ status, exec (c.instr (byteOf i.val)) s =
        .next ((State.takeHeld i (s.clearSoft i) (.command c)).respond status []) ∧
      (status ≠ .done → State.takeHeld i (s.clearSoft i) (.command c) = s.clearSoft i) := by
  unfold State.takeHeld
  dsimp only
  cases check : s.checkCommand i c with
  | none =>
      have cleared := (s.checkCommand_clearSoft i c).trans check
      rw [cleared]
      exact ⟨.done, exec_heldCommand_applied h check hx, fun ne => absurd rfl ne⟩
  | some status =>
      have cleared := (s.checkCommand_clearSoft i c).trans check
      rw [cleared]
      refine ⟨status, ?_, fun _ => rfl⟩
      rw [exec_heldCommand_refused h check, State.clearSoft_eq]
      rfl

/-- Settles O41: the judgement of the exchange and the held work both commute with taking the held work away, and the work
held with clearing the slot. -/
theorem heldWorkIsTakenAtTheSlotEnd : Obligations.HeldWorkIsTakenAtTheSlotEnd := by
  unfold Obligations.HeldWorkIsTakenAtTheSlotEnd
  refine ⟨?_, ?_, ?_, ?_⟩
  · intro s s' p f rest car i hr station head taken here payload found busy
    have names : f.payload.handoverCar = some car := by
      obtain ⟨tag, level, n, e⟩ | ⟨cls, ms, e⟩ | ⟨n, e⟩ | ⟨reason, e⟩ := payload <;> rw [e] <;> rfl
    rw [State.receiveQueueTake_here hr station head taken here, State.handleHere_handover names]
    have frame := State.setPort_frame s p { s.port p with receive := rest }
    rw [taken, State.handoverArrival_held (s := s.setPort p _) (i := i) (by rw [frame]; exact found) (by rw [frame]; exact busy), frame]
    rfl
  · intro s k w x hr hp hs low high hw hx free
    obtain ⟨t, early, closed, held⟩ := exec_slotEnd_held hr hp hs low high hw hx (.of_false free)
    refine ⟨t, early, ?_, held⟩
    unfold State.inExchange
    rw [closed]
  · intro s s' i h free cleared c command named
    have instr : command = c.instr (byteOf i.val) := by
      obtain ⟨rfl, rfl⟩ | ⟨rfl, rfl⟩ | ⟨code, rfl, rfl⟩ | ⟨rfl, rfl⟩ | ⟨rfl, rfl⟩ | ⟨rfl, rfl⟩ := named <;> rfl
    rw [instr, cleared, ← State.clearSoft_eq]
    exact exec_heldCommand_taken h free c
  · intro s s' p f rest i j hr station head taken here payload free
    have frame := State.setPort_frame s p { s.port p with receive := rest }
    have named : ∃ car, f.payload.handoverCar = some car ∧ s.lookup car = some j := by
      obtain ⟨car, tag, level, n, e, found⟩ | ⟨car, cls, ms, e, found⟩ | ⟨car, n, e, found⟩ | ⟨car, reason, e, found⟩ := payload <;>
        exact ⟨car, by rw [e]; rfl, found⟩
    obtain ⟨car, names, found⟩ := named
    have taken' := taken.trans frame
    rw [exec_handoverFrame hr station head frame.symm here names (fun n e => Option.some.inj (found.symm.trans e) ▸ free), taken']
    rfl

end Sys2Proof.Machine

/-! The commands of the sweep, its deadline and its halt -/

namespace Sys2Proof.Machine

/-! ## The sweep's commands, its deadline and its halt (R161, R163, R164) -/

section
variable {halt : Bool → Bool}

theorem State.endBeacon_plain (s : State) : (s.veiled (.plain id halt)).endBeacon = s.endBeacon.veiled (.plain id halt) := by
  unfold State.endBeacon
  have grants (t : State) (g : List (Fin 48)) : ({ t.veiled (.plain id halt) with
      air := { (t.veiled (.plain id halt)).air with grants := g } } : State) =
        State.veiled { t with air := { t.air with grants := g } } (.plain id halt) := t.setGrants_veiled g
  have air : (s.veiled (.plain id halt)).air = s.air := rfl
  rw [air]
  cases s.air.light with
  | darkFromStart => exact grants s []
  | darkAfterFact _ => exact grants s []
  | ready => cases s.air.beacon with
    | none => exact grants s []
    | some b =>
        dsimp only
        rw [State.usePages_veiled, grants]

theorem State.endEntry_plain (s : State) (slot : Nat) :
    (s.veiled (.plain id halt)).endEntry slot = (s.endEntry slot).veiled (.plain id halt) := by
  unfold State.endEntry
  have air : (s.veiled (.plain id halt)).air = s.air := rfl
  rw [air]
  cases s.air.judge decodeHail with
  | good h level =>
      dsimp only
      rw [State.decideHail_veiled]
      exact State.veiled_ite (fun _ => State.exhaustPages_veiled _) (fun _ => rfl)
  | garbled =>
      dsimp only
      rw [State.countGarbled_plain]
      exact State.veiled_ite (fun _ => State.exhaustPages_veiled _) (fun _ => rfl)
  | absent => exact State.veiled_ite (fun _ => State.exhaustPages_veiled _) (fun _ => rfl)
  | dark => exact State.veiled_ite (fun _ => State.exhaustPages_veiled _) (fun _ => rfl)

theorem State.endTurn_plain (s : State) (slot : Nat) :
    (s.veiled (.plain id halt)).endTurn slot = (s.endTurn slot).veiled (.plain id halt) := by
  cases exchange : s.air.exchange with
  | none => simp only [State.endTurn, show (s.veiled (.plain id halt)).air = s.air from rfl, exchange]
  | some x =>
      have closed (j : State) : (j.veiled (.plain id halt)).windowClosed = j.windowClosed.veiled (.plain id halt) := by
        rw [State.veiled_plain, State.veiled_plain]
        rfl
      rw [State.endTurn_judged exchange, State.endTurn_judged (s := s.veiled (.plain id halt)) (x := x) exchange, State.judged_plain, closed,
        State.takeHeld_fold_veiled]
      rfl

theorem State.endNotice_plain (s : State) (slot : Nat) :
    (s.veiled (.plain id halt)).endNotice slot = (s.endNotice slot).veiled (.plain id halt) :=
  State.veiled_ite (fun _ => s.endBeacon_plain) fun _ =>
    State.veiled_ite (fun _ => s.endEntry_plain slot) fun _ => s.endTurn_plain slot

end

theorem Sweep.veiled_running {w : Sweep} (h : w.state = .running) (v : Veil) :
    w.veiled v = { w with haltPending := v.halt w.haltPending } := by
  unfold Sweep.veiled
  rewrite [h]
  obtain ⟨state, _, _, _, _, pending⟩ := w
  rfl

/-- A state with its sweep replaced. -/
def State.withSweep (s : State) (w : Sweep) : State := { s with sweep := w }

theorem State.veiled_halt (s : State) (halt : Bool → Bool) :
    s.veiled (.plain id halt) = s.withSweep (s.sweep.veiled (.plain id halt)) := by
  rw [State.veiled_plain]
  rfl

theorem State.endCycle_withSweep (s : State) (w : Sweep) : (s.withSweep w).endCycle = s.endCycle.withSweep w := by
  have freed : (s.withSweep w).freeCellsWhere (fun h => h.role == .lent) =
      (s.freeCellsWhere fun h => h.role == .lent).withSweep w := by
    unfold State.freeCellsWhere
    have cells : (s.withSweep w).cells = s.cells := rfl
    rw [cells]
    split <;> rfl
  unfold State.endCycle
  rw [freed]
  rfl

theorem State.finishClosing_withSweep (s : State) (w : Sweep) :
    (s.withSweep w).finishClosing = s.finishClosing.withSweep w := by
  unfold State.finishClosing
  have air : (s.withSweep w).air = s.air := rfl
  rw [air]
  split <;> rfl

/-- What follows the notice of a slot's end and its halt. -/
def State.slotLeft (s : State) (slot : Nat) : State := if slot = 31 then s.clearSlot.endCycle.finishClosing else s.clearSlot

theorem State.slotLeft_withSweep (s : State) (w : Sweep) (slot : Nat) :
    (s.withSweep w).slotLeft slot = (s.slotLeft slot).withSweep w := by
  unfold State.slotLeft
  have cleared : (s.withSweep w).clearSlot = s.clearSlot.withSweep w := rfl
  rw [cleared, State.endCycle_withSweep, State.finishClosing_withSweep]
  split <;> rfl

theorem State.slotLeft_sweep (s : State) (slot : Nat) : (s.slotLeft slot).sweep = s.sweep := by
  have same : s.slotLeft slot = (s.slotLeft slot).withSweep s.sweep := s.slotLeft_withSweep s.sweep slot
  rw [same]
  rfl

theorem State.finishSlot_left (s : State) (slot : Nat) :
    s.finishSlot slot = (s.countDarkEnd.endNotice slot).applyHalt.slotLeft slot := rfl

/-- A halt that waits through the end of a slot stops the sweep that still runs after the notice, and does nothing else. -/
theorem State.finishSlot_halted {s : State} (slot : Nat) (running : s.sweep.state = .running) (waits : s.sweep.haltPending = true) :
    s.finishSlot slot =
      if ((s.withSweep { s.sweep with haltPending := false }).finishSlot slot).sweep.state = .running then
        ((s.withSweep { s.sweep with haltPending := false }).finishSlot slot).withSweep
          { ((s.withSweep { s.sweep with haltPending := false }).finishSlot slot).sweep with state := .halted }
      else (s.withSweep { s.sweep with haltPending := false }).finishSlot slot := by
  have lifted : s.withSweep { s.sweep with haltPending := false } = s.veiled .unhalted := by
    unfold Veil.unhalted
    rw [State.veiled_halt, Sweep.veiled_running running]
    rfl
  have kept : s = s.veiled (.plain id fun _ => true) := by
    rw [State.veiled_halt, Sweep.veiled_same fun _ => waits.symm]
    rfl
  have noticeKept : s.countDarkEnd.endNotice slot = (s.countDarkEnd.endNotice slot).veiled (.plain id fun _ => true) := by
    rw [← State.endNotice_plain, ← State.countDarkEnd_plain, ← kept]
  have noticeLifted : (s.withSweep { s.sweep with haltPending := false }).countDarkEnd.endNotice slot =
      (s.countDarkEnd.endNotice slot).veiled .unhalted := by
    rw [lifted]
    unfold Veil.unhalted
    rw [State.countDarkEnd_plain, State.endNotice_plain]
  rw [State.finishSlot_left, State.finishSlot_left, noticeLifted]
  generalize s.countDarkEnd.endNotice slot = u at *
  have free : (u.veiled .unhalted).haltFree := by
    intro state
    have still : u.sweep.state = .running := state
    show (u.sweep.veiled .unhalted).haltPending = false
    rw [Sweep.veiled_running still]
    rfl
  rw [free.applyHalt, State.slotLeft_sweep]
  unfold Veil.unhalted
  rw [State.veiled_halt]
  by_cases still : u.sweep.state = .running
  · have pending : u.sweep.haltPending = true := by
      have sweep := congrArg (fun t => t.sweep.haltPending) noticeKept
      rw [State.veiled_halt] at sweep
      refine sweep.trans ?_
      show (u.sweep.veiled _).haltPending = true
      rw [Sweep.veiled_running still]
      rfl
    have stopped : u.applyHalt = u.withSweep { u.sweep with state := .halted, haltPending := false } := by
      unfold State.applyHalt
      rw [still, pending]
      rfl
    have left : (u.withSweep (u.sweep.veiled (.plain id fun _ => false))).sweep.state = .running := still
    rw [if_pos left, stopped, State.slotLeft_withSweep, State.slotLeft_withSweep, Sweep.veiled_running still]
    rfl
  · have whole : u.sweep.veiled (.plain id fun _ => false) = u.sweep := Sweep.veiled_same fun running => absurd running still
    have left : ¬ (u.withSweep u.sweep).sweep.state = .running := still
    rw [whole, if_neg left]
    have idle : u.applyHalt = u := State.haltFree.applyHalt fun running => absurd running still
    rw [idle]
    rfl

theorem exec_sweepHalt {s : State} (h : s.takesRequests = true) : exec (.sweepHalt []) s = .next s.haltSweep :=
  exec_taken (c := .sweepHalt []) rfl (by decide) rfl h

theorem exec_sweepResume {s : State} (h : s.takesRequests = true) : exec (.sweepResume []) s = .next s.resumeSweep :=
  exec_taken (c := .sweepResume []) rfl (by decide) rfl h

theorem exec_sweepCancel {s : State} (h : s.takesRequests = true) : exec (.sweepCancel []) s = .next s.cancelSweep :=
  exec_taken (c := .sweepCancel []) rfl (by decide) rfl h

theorem exec_readSweep {s : State} (h : s.takesRequests = true) : exec (.readSweep []) s = .next s.readSweep :=
  exec_taken (c := .readSweep []) rfl (by decide) rfl h

theorem State.haltSweep_running {s : State} (h : s.sweep.state = .running) :
    s.haltSweep = ((if s.air.state = .closed then
        { s with sweep := { s.sweep with state := .halted, haltPending := false } }
      else { s with sweep := { s.sweep with haltPending := true } } : State)).respond .done [] := by
  unfold State.haltSweep
  rw [h]
  by_cases closed : s.air.state = .closed
  · rewrite [if_pos closed, closed]
    rfl
  · rewrite [if_neg closed, beq_false_of_ne closed]
    rfl

theorem State.record_clearMarks (s : State) (i : Fin 48) : s.clearMarks.record i = { s.record i with mark := .none } := by
  unfold State.clearMarks State.record
  simp

theorem State.cancelSweep_started {s : State} (h : s.sweep.state ≠ .idle) :
    s.cancelSweep =
      ({ s.clearMarks with sweep := Sweep.reset, host := { s.host with sweepEnded := false } } : State).respond .done [] := by
  unfold State.cancelSweep
  cases state : s.sweep.state with
  | idle => exact absurd state h
  | running => rfl
  | halted => rfl
  | complete => rfl

theorem State.readSweep_progress {s : State} (h : s.sweep.state = .running ∨ s.sweep.state = .halted) :
    s.readSweep = s.respond .done s.sweepProgressBytes := by
  unfold State.readSweep
  rcases h with state | state <;> rewrite [state] <;> rfl

theorem State.readSweep_complete {s : State} (h : s.sweep.state = .complete) {r : SweepResult} (result : s.sweep.result = some r) :
    s.readSweep = ({ s with host := { s.host with sweepEnded := false } } : State).respond .done (3#8 :: r.bytes) := by
  unfold State.readSweep Sweep.resultBytes
  rewrite [h, result]
  rfl

theorem State.countSweepCycle_running {s : State} (h : s.sweep.state = .running) :
    s.countSweepCycle = if s.sweep.used < s.sweep.deadline then { s with sweep := { s.sweep with used := s.sweep.used + 1 } }
      else s.endSweep .deadline := by
  unfold State.countSweepCycle
  rw [h]
  rfl

theorem exec_sweepDeadline {s : State} (hr : s.resetHeld = false) : exec .sweepDeadline s = .next s.sweepDeadline := by
  rw [exec_released rfl (by simp) (by simp) hr]
  rfl

theorem State.sweepDeadline_due {s : State} (boundary : s.atCycleBoundary = true) (running : s.sweep.state = .running)
    (due : s.sweep.used = s.sweep.deadline) : s.sweepDeadline = s.endSweep .deadline := by
  unfold State.sweepDeadline
  rw [boundary, running, due]
  simp

theorem State.sweepDeadline_idle {s : State} (h : s.sweep.state ≠ .running) : s.sweepDeadline = s := by
  unfold State.sweepDeadline
  rw [beq_false_of_ne h, Bool.and_false, Bool.false_and]
  rfl

/-- Settles O25: the commands by the state of the sweep; the halt by the veil that takes it away. -/
theorem sweepCommandsAndTheDeadline : Obligations.SweepCommandsAndTheDeadline := by
  unfold Obligations.SweepCommandsAndTheDeadline
  refine ⟨⟨fun s h => ?_, fun s h => ?_⟩, ⟨fun s running => ⟨fun h => ?_, fun h => ?_⟩, fun s h => ?_, ?_, ?_⟩, ?_⟩
  · rw [exec_sweepHalt h, exec_sweepResume h, exec_sweepCancel h]
    refine ⟨fun state => ?_, fun state air => ?_, fun state air => ?_, fun state => ?_, fun state => ?_, fun state => ?_,
      fun state => ?_⟩
    · unfold State.haltSweep State.resumeSweep
      rcases state with state | state <;> rewrite [state] <;> exact ⟨rfl, rfl⟩
    · rw [State.haltSweep_running state, if_neg air]
    · rw [State.haltSweep_running state, if_pos air]
    · unfold State.haltSweep
      rewrite [state]
      rfl
    · unfold State.resumeSweep
      rcases state with state | state <;> rewrite [state] <;> rfl
    · unfold State.cancelSweep
      rewrite [state]
      rfl
    · exact ⟨_, rfl, fun i => by rw [State.cancelSweep_started state]; exact s.record_clearMarks i,
        by rw [State.cancelSweep_started state]; rfl⟩
  · rw [exec_readSweep h]
    refine ⟨fun state => ?_, fun state => ?_, fun r state result => ?_⟩
    · unfold State.readSweep
      rewrite [state]
      rfl
    · rw [State.readSweep_progress state]
      rfl
    · rw [State.readSweep_complete state result]
  · rw [State.countSweepCycle_running running, if_pos h]
  · rw [State.countSweepCycle_running running, if_neg (by omega)]
  · unfold State.countSweepCycle
    rw [beq_false_of_ne h]
    rfl
  · intro s hr boundary running due
    refine ⟨_, exec_sweepDeadline hr, ?_⟩
    rw [State.sweepDeadline_due boundary running due]
    exact ⟨rfl, rfl, rfl, rfl⟩
  · intro s hr h
    rw [exec_sweepDeadline hr, State.sweepDeadline_idle h]
  · intro s k w hr hp hs hw running waits
    refine ⟨_, exec_slotEnd (s := s.withSweep { s.sweep with haltPending := false }) hr hp hs hw, ?_⟩
    rw [exec_slotEnd hr hp hs hw, State.finishSlot_halted k.val running waits]
    rfl

end Sys2Proof.Machine

/-! The counts that a slot end keeps -/

namespace Sys2Proof.Machine

/-! ## The counts that a slot end keeps (R12, R15, R16)

What the work of a slot end is blind to, it keeps: a veil that holds the counts at their values before the work leaves the
state before it whole, and so it leaves the state after it whole. -/

/-- The counts of darkness and of garbled frames, with the flags of their classes. -/
def State.tallies (s : State) : Nat × Nat × Nat × ClassFlags × ClassFlags :=
  (s.air.darkCount, s.air.garbledRun, s.host.garbledFrames, s.classFlags .airCheck, s.classFlags .airDark)

/-- The veil that holds the counts at those of a state. -/
def Veil.tallied (s : State) : Veil where
  air a := { a with darkCount := s.air.darkCount, garbledRun := s.air.garbledRun }
  held := id
  halt := id
  garbledFrames _ := s.host.garbledFrames
  airCheck _ := s.classFlags .airCheck
  airDark _ := s.classFlags .airDark
  grants _ _ := rfl
  entryOpen _ := rfl
  cycle _ := rfl
  inBeacon _ := rfl

theorem State.veiled_tallied (s : State) : s.veiled (.tallied s) = s := by
  have conditions : s.classesVeiled (.tallied s) = s.conditions := by
    show ((s.setClass .airCheck (s.classFlags .airCheck)).setClass .airDark (s.classFlags .airDark)).conditions = s.conditions
    rw [State.setClass_self, State.setClass_self]
  unfold State.veiled
  rw [conditions, Sweep.veiled_same fun _ => rfl]
  rfl

theorem State.tallies_veiled (s t : State) : (t.veiled (.tallied s)).tallies = s.tallies := by
  have check : (t.veiled (.tallied s)).classFlags .airCheck = s.classFlags .airCheck := by
    show (State.setClass _ .airDark (s.classFlags .airDark)).classFlags .airCheck = s.classFlags .airCheck
    rw [State.classFlags_setClass_ne _ _ (by decide), State.classFlags_setClass]
    rfl
  have dark : (t.veiled (.tallied s)).classFlags .airDark = s.classFlags .airDark := by
    show (State.setClass _ .airDark (s.classFlags .airDark)).classFlags .airDark = s.classFlags .airDark
    rw [State.classFlags_setClass]
  unfold State.tallies
  rw [check, dark]
  rfl

/-- Work that commutes with every veil keeps the counts. -/
theorem State.tallies_kept {f : State → State} (h : ∀ (v : Veil) (s : State), f (s.veiled v) = (f s).veiled v) (s : State) :
    (f s).tallies = s.tallies := by
  have same := h (.tallied s) s
  rw [State.veiled_tallied] at same
  rw [same, State.tallies_veiled]

theorem State.judgeExchange_tallies (s : State) (x : Exchange) (sent : Bool) (slot : Nat) (o : ExchangeOutcome) :
    (s.judgeExchange x sent slot o).tallies = s.tallies :=
  State.tallies_kept (f := fun t => t.judgeExchange x sent slot o) (fun _ t => t.judgeExchange_veiled x sent slot o) s

theorem State.takeHeld_fold_tallies (s : State) (i : Fin 48) (work : List HeldWork) :
    (work.foldl (State.takeHeld i) s).tallies = s.tallies :=
  State.tallies_kept (f := fun t => work.foldl (State.takeHeld i) t) (fun _ t => State.takeHeld_fold_veiled i work t) s

theorem State.decideHail_tallies (s : State) (h : Hail) (level : Nat) : (s.decideHail h level).tallies = s.tallies :=
  State.tallies_kept (f := fun t => t.decideHail h level) (fun _ t => t.decideHail_veiled h level) s

theorem State.exhaustPages_tallies (s : State) : s.exhaustPages.tallies = s.tallies :=
  State.tallies_kept (fun _ t => t.exhaustPages_veiled) s

theorem State.endCycle_tallies (s : State) : s.endCycle.tallies = s.tallies :=
  State.tallies_kept (fun _ t => t.endCycle_veiled) s

theorem State.tallies_congr {s t : State} (h : t.tallies = s.tallies) :
    t.air.darkCount = s.air.darkCount ∧ t.air.garbledRun = s.air.garbledRun ∧ t.host.garbledFrames = s.host.garbledFrames ∧
      t.classFlags .airCheck = s.classFlags .airCheck ∧ t.classFlags .airDark = s.classFlags .airDark := by
  simpa only [State.tallies, Prod.mk.injEq] using h

theorem State.finishClosing_tallies (s : State) : s.finishClosing.tallies = s.tallies := by
  unfold State.finishClosing
  split <;> rfl

theorem State.slotLeft_tallies (s : State) (slot : Nat) : (s.slotLeft slot).tallies = s.tallies := by
  unfold State.slotLeft
  split
  · rw [State.finishClosing_tallies, State.endCycle_tallies]
    rfl
  · rfl

theorem State.applyHalt_tallies (s : State) : s.applyHalt.tallies = s.tallies := by
  rw [State.applyHalt_frame]
  rfl

/-! ## The end of a turn slot -/

/-- The window of a turn slot's exchange counted, if it has one. -/
def State.windowTaken (s : State) : State :=
  match s.air.exchange with
  | some _ => s.countWindow (s.air.judge decodeAnswer)
  | none => s

theorem State.endTurn_none {s : State} (h : s.air.exchange = none) (slot : Nat) : s.endTurn slot = s := by
  unfold State.endTurn
  rw [h]

theorem State.endTurn_tallies (s : State) (slot : Nat) : (s.endTurn slot).tallies = s.windowTaken.tallies := by
  unfold State.windowTaken
  cases exchange : s.air.exchange with
  | none => rw [State.endTurn_none exchange]
  | some x =>
      rw [State.endTurn_judged exchange, State.takeHeld_fold_tallies]
      exact State.judgeExchange_tallies _ x _ slot _

theorem State.endNotice_turn (s : State) {slot : Nat} (h : 3 ≤ slot) : s.endNotice slot = s.endTurn slot := by
  unfold State.endNotice
  rw [if_neg (by omega), if_neg (by omega)]

/-- The counts at the end of a turn slot. -/
theorem State.finishSlot_tallies (s : State) {slot : Nat} (h : 3 ≤ slot) :
    (s.finishSlot slot).tallies = s.countDarkEnd.windowTaken.tallies := by
  rw [State.finishSlot_left, State.slotLeft_tallies, State.applyHalt_tallies, State.endNotice_turn _ h, State.endTurn_tallies]

theorem State.darkCounted.of_tallies {s t u : State} (h : s.darkCounted t) (same : u.tallies = t.tallies) : s.darkCounted u := by
  obtain ⟨count, _, _, _, flags⟩ := State.tallies_congr same
  exact h.congr count flags

/-- The garbled run set, and AIR_CHECK reported. -/
theorem State.setGarbledRun_reported (s : State) (n : Nat) :
    s.classReported (s.setGarbledRun n) .airCheck (decide (s.params.airCheck ≤ n)) ∧
      s.onlyClasses (s.setGarbledRun n) [.airCheck] := by
  obtain ⟨w, hw⟩ : ∃ w : State, w = { s with air := { s.air with garbledRun := n } } := ⟨_, rfl⟩
  have set : s.setGarbledRun n = w.reportCause .airCheck (decide (s.params.airCheck ≤ n)) := by
    rw [hw]
    rfl
  have flags (c : ConditionClass) : w.classFlags c = s.classFlags c := State.classFlags_congr (by rw [hw]) c
  have reported := w.reportCause_reported .airCheck (decide (s.params.airCheck ≤ n))
  have classes := w.onlyClasses_reportCause .airCheck (decide (s.params.airCheck ≤ n))
  rw [← set] at reported classes
  refine ⟨?_, fun c hc => (classes c hc).trans (flags c)⟩
  simp only [State.classReported, flags] at reported
  exact reported

theorem State.setGarbledRun_frame (s : State) (n : Nat) : s.setGarbledRun n =
    { s with air := { s.air with garbledRun := n }, conditions := (s.setGarbledRun n).conditions } := rfl

/-- The counting of a window moves the garbled run, the garbled frames and AIR_CHECK. -/
theorem State.countWindow_frame (s : State) (w : WindowResult Answer) : s.countWindow w =
    { s with air := { s.air with garbledRun := (s.countWindow w).air.garbledRun },
             host := { s.host with garbledFrames := (s.countWindow w).host.garbledFrames },
             conditions := (s.countWindow w).conditions } := by
  cases w <;> rfl

theorem State.countWindow_classes (s : State) (w : WindowResult Answer) : s.onlyClasses (s.countWindow w) [.airCheck] := by
  cases w with
  | good a level => exact (s.setGarbledRun_reported 0).2
  | garbled => exact (s.countGarbled.setGarbledRun_reported (satAdd 255 s.air.garbledRun)).2
  | absent => exact fun _ _ => rfl
  | dark => exact fun _ _ => rfl

/-- The window of a state, counted. -/
theorem State.countWindow_counted (s : State) : (match s.air.light, s.air.up with
    | .ready, some u =>
        (if decodeAnswer u.bytes = none then
            (s.countWindow (s.air.judge decodeAnswer)).air.garbledRun =
                (if s.air.garbledRun < 255 then s.air.garbledRun + 1 else s.air.garbledRun)
              ∧ (s.countWindow (s.air.judge decodeAnswer)).host.garbledFrames =
                (if s.host.garbledFrames < 65535 then s.host.garbledFrames + 1 else s.host.garbledFrames)
          else (s.countWindow (s.air.judge decodeAnswer)).air.garbledRun = 0
            ∧ (s.countWindow (s.air.judge decodeAnswer)).host.garbledFrames = s.host.garbledFrames)
          ∧ s.classReported (s.countWindow (s.air.judge decodeAnswer)) .airCheck
            (decide (s.params.airCheck ≤ (s.countWindow (s.air.judge decodeAnswer)).air.garbledRun))
    | _, _ => s.countWindow (s.air.judge decodeAnswer) = s : Prop) := by
  cases light : s.air.light with
  | darkFromStart => simp only [Air.judge, light]; rfl
  | darkAfterFact b => simp only [Air.judge, light]; rfl
  | ready => cases up : s.air.up with
    | none => simp only [Air.judge, light, up]; rfl
    | some u =>
        cases decoded : decodeAnswer u.bytes with
        | none =>
            have judged : s.air.judge decodeAnswer = .garbled := by
              simp only [Air.judge, light, up, decoded]
              rfl
            rw [judged]
            dsimp only
            rw [if_pos decoded]
            exact ⟨⟨rfl, rfl⟩, (s.countGarbled.setGarbledRun_reported (satAdd 255 s.air.garbledRun)).1⟩
        | some a =>
            have judged : s.air.judge decodeAnswer = .good a u.level := by
              simp only [Air.judge, light, up, decoded]
              rfl
            have good : decodeAnswer u.bytes ≠ none := by rw [decoded]; exact Option.some_ne_none a
            rw [judged]
            dsimp only
            rw [if_neg good]
            exact ⟨⟨rfl, rfl⟩, (s.setGarbledRun_reported 0).1⟩

end Sys2Proof.Machine

/-! Loans and the cells that an exchange moves -/

namespace Sys2Proof.Machine

/-! ## Loans (R65) and the cells that an exchange moves -/

/-- Every cell of `t` is as in `s` or free. -/
def State.onlyFrees (s t : State) : Prop := ∀ n : Fin 232, t.cells[n] = s.cells[n] ∨ t.cells[n] = none

theorem State.onlyFrees.of_eq {s t : State} (h : t.cells = s.cells) : s.onlyFrees t := fun n => .inl (by rw [h])

theorem State.onlyFrees.trans {s t u : State} (h : s.onlyFrees t) (k : t.onlyFrees u) : s.onlyFrees u := fun n => by
  rcases k n with e | e
  · rw [e]
    exact h n
  · exact .inr e

theorem State.freeCellsWhere_onlyFrees (s : State) (test : CellHolding → Bool) : s.onlyFrees (s.freeCellsWhere test) := fun n => by
  rw [show (s.freeCellsWhere test).cells[n] = _ from s.freeCellsWhere_getElem test n n.isLt]
  split
  · exact .inr rfl
  · exact .inl rfl

theorem State.giveUpTurn_onlyFrees (s : State) (i : Fin 48) : s.onlyFrees (s.giveUpTurn i) := s.freeCellsWhere_onlyFrees _

theorem State.cancelRetune_onlyFrees (s : State) (i : Fin 48) : s.onlyFrees (s.cancelRetune i) := s.freeCellsWhere_onlyFrees _

theorem State.becomeFree_onlyFrees (s : State) (i : Fin 48) (notes : Bool) (reason : Option Reason) :
    s.onlyFrees (s.becomeFree i notes reason) := by
  have freed := State.freeCellsWhere_onlyFrees (s.withdrawGrant i) fun h => h.holder == i
  refine freed.trans (.of_eq ?_)
  simp only [State.becomeFree, State.freeCellsOf, State.reportAllocatable_cells, State.offerReasonOpt_cells, State.emptyRecord_cells,
    State.markLeft_cells, State.dropPin_cells, State.endSummon_cells, State.dropContext_cells, State.freeMessages_cells]

theorem State.lapse_onlyFrees (s : State) (i : Fin 48) : s.onlyFrees (s.lapse i) :=
  (s.giveUpTurn_onlyFrees i).trans (.of_eq (State.offerReason_cells _ _ _))

theorem State.lapseGrant_onlyFrees (s : State) (i : Fin 48) : s.onlyFrees (s.lapseGrant i) := by
  have ended : s.onlyFrees ((s.endSummon i .failed).dropClaim i) := .of_eq (by rw [State.dropClaim_cells, State.endSummon_cells])
  refine ended.trans ?_
  unfold State.lapseGrant
  dsimp only
  split
  · have freed : State.onlyFrees (((s.endSummon i .failed).dropClaim i).withdrawGrant i) _ := State.giveUpTurn_onlyFrees _ i
    exact freed.trans (.of_eq (State.becomeDormant_cells _ _))
  · exact State.becomeFree_onlyFrees _ i true _

theorem State.tryRetune_onlyFrees (s : State) (i : Fin 48) : s.onlyFrees (s.tryRetune i) := by
  unfold State.tryRetune
  cases (s.record i).retune with
  | none => exact .of_eq rfl
  | some c =>
      dsimp only
      split
      · have freed := State.cancelRetune_onlyFrees
          (s.modifyRecord i fun r => { r with retune := some { c with tries := satAdd Config.retuneTries c.tries } }) i
        refine State.onlyFrees.trans (t := State.cancelRetune _ i) freed (.of_eq ?_)
        exact (State.offerReason_cells _ _ _).trans (State.setSoft_cells _ _ _)
      · exact .of_eq rfl

/-- An exchange that counts a miss only frees cells. -/
theorem State.missedExchange_onlyFrees (s : State) (i : Fin 48) (own : Bool) (poll : Poll) (o : ExchangeOutcome) :
    s.onlyFrees (s.missedExchange i own poll o) := by
  have counted : s.onlyFrees ((s.countMiss i own).noteOutcome i own o) :=
    .of_eq ((s.countMiss_stays i own).trans (State.noteOutcome_stays _ i own o)).cells
  refine counted.trans ?_
  unfold State.missedExchange
  generalize (s.countMiss i own).noteOutcome i own o = u
  dsimp only
  have tried : u.onlyFrees (if poll.message.isSome then u.failMessage i else u) := by
    split
    · exact .of_eq (u.failMessage_stays i).cells
    · exact .of_eq rfl
  refine tried.trans ?_
  generalize (if poll.message.isSome then u.failMessage i else u) = v
  have retuned : v.onlyFrees (if poll.retune.isSome then v.tryRetune i else v) := by
    split
    · exact v.tryRetune_onlyFrees i
    · exact .of_eq rfl
  split
  · exact v.lapse_onlyFrees i
  · refine retuned.trans ?_
    generalize (if poll.retune.isSome then v.tryRetune i else v) = w
    split
    · exact w.lapseGrant_onlyFrees i
    · exact .of_eq rfl

theorem State.completeRelease_onlyFrees (s : State) (i : Fin 48) : s.onlyFrees (s.completeRelease i) := by
  unfold State.completeRelease
  split
  · refine (State.giveUpTurn_onlyFrees (s.withdrawGrant i) i).trans (.of_eq ?_)
    exact (State.becomeDormant_cells _ _).trans (State.markLeft_cells _ _)
  · exact s.becomeFree_onlyFrees i true _

/-! ## What a MATCHED exchange does to the cells -/

/-- A MATCHED exchange up to its retune. -/
def State.answered (s : State) (i : Fin 48) (poll : Poll) (a : Answer) (level : Nat) : State :=
  (((((s.clearMisses i).makeContact i).applyReading i level).judgeAck i poll a.downAck).takeAnswerMessage i a).creditSweep i

/-- A MATCHED exchange up to its loan. -/
def State.retuned (s : State) (i : Fin 48) (poll : Poll) (a : Answer) (level : Nat) : State :=
  if poll.retune.isSome then (s.answered i poll a level).confirmRetune i else s.answered i poll a level

theorem State.matchedExchange_eq (s : State) (i : Fin 48) (poll : Poll) (a : Answer) (level slot : Nat) :
    s.matchedExchange i poll a level slot =
      if a.more then (s.retuned i poll a level).lend i slot else s.retuned i poll a level := rfl

theorem State.makeContact_cells (s : State) (i : Fin 48) : (s.makeContact i).cells = s.cells := by
  unfold State.makeContact
  split
  · rw [State.endSummon_cells, State.offerReason_cells, State.modifyRecord_cells]
  · rfl

theorem State.answered_cells (s : State) (i : Fin 48) (poll : Poll) (a : Answer) (level : Nat) :
    (s.answered i poll a level).cells = s.cells :=
  ((((State.applyReading_stays _ i level).trans (State.judgeAck_stays _ i poll a.downAck)).trans
    (State.takeAnswerMessage_stays _ i a)).trans (State.creditSweep_stays _ i)).cells.trans (State.makeContact_cells _ i)

/-- The LENT cells of two states are the same. -/
def State.sameLoans (s t : State) : Prop :=
  ∀ (n : Fin 232) (h : CellHolding), h.role = .lent → (t.cells[n] = some h ↔ s.cells[n] = some h)

/-- What a cell holds after a retune is confirmed (R71). -/
def confirmedCell (i : Fin 48) (c : Option CellHolding) : Option CellHolding :=
  c.bind fun h =>
    if h.holder = i then
      match h.role with
      | .turn | .waiting => none
      | .pending => some { h with role := .waiting }
      | .lent => some h
    else some h

theorem State.confirmRetune_cell {s : State} {i : Fin 48} {c : RetuneContext} (h : (s.record i).retune = some c) (n : Fin 232) :
    (s.confirmRetune i).cells[n] = confirmedCell i s.cells[n] := by
  unfold State.confirmRetune
  rw [h]
  dsimp only
  rw [State.offerReason_cells, State.modifyRecord_cells]
  show ((s.freeCellsWhere _).cells.map _)[n.val] = _
  rw [Vector.getElem_map, State.freeCellsWhere_getElem]
  show Option.map (CellHolding.confirmed i) (if Option.any _ s.cells[n] = true then none else s.cells[n]) = _
  cases s.cells[n] with
  | none => rfl
  | some cell =>
      obtain ⟨holder, role⟩ := cell
      unfold confirmedCell CellHolding.confirmed
      by_cases own : holder = i
      · subst own
        cases role <;> simp
      · simp [own]

theorem State.sameLoans.of_eq {s t : State} (h : t.cells = s.cells) : s.sameLoans t := fun n holding _ => by rw [h]

theorem confirmedCell_lent {i : Fin 48} {c : Option CellHolding} {h : CellHolding} (lent : h.role = .lent) :
    confirmedCell i c = some h ↔ c = some h := by
  obtain ⟨holder, role⟩ := h
  have role' : role = .lent := lent
  subst role'
  cases c with
  | none => simp [confirmedCell]
  | some cell =>
      obtain ⟨owner, role⟩ := cell
      by_cases own : owner = i
      · cases role <;> simp [confirmedCell, own]
      · simp [confirmedCell, own]

theorem State.confirmRetune_sameLoans (s : State) (i : Fin 48) : s.sameLoans (s.confirmRetune i) := by
  cases retune : (s.record i).retune with
  | none => exact .of_eq (by simp only [State.confirmRetune, retune])
  | some c =>
      intro n h lent
      rw [State.confirmRetune_cell retune, confirmedCell_lent lent]

theorem State.retuned_sameLoans (s : State) (i : Fin 48) (poll : Poll) (a : Answer) (level : Nat) :
    s.sameLoans (s.retuned i poll a level) := by
  have answered := s.answered_cells i poll a level
  unfold State.retuned
  split
  · intro n h lent
    rw [State.confirmRetune_sameLoans _ i n h lent, answered]
  · exact .of_eq answered

/-! ## The loan -/

/-- What a loan adds: at most one free cell, LENT, and an extension of one record. -/
structure State.mayLend (s t : State) : Prop where
  cells : ∀ n : Fin 232, t.cells[n] = s.cells[n] ∨ (s.cells[n] = none ∧ ∃ h, t.cells[n] = some h ∧ h.role = .lent)
  records : ∀ i, ∃ n, t.record i = { s.record i with extensions := n }
  frame : t = { s with cells := t.cells, roster := { s.roster with records := t.roster.records } }

theorem State.mayLend.refl (s : State) : s.mayLend s := ⟨fun _ => .inl rfl, fun _ => ⟨_, rfl⟩, rfl⟩

/-- A loan that is refused (R65). -/
theorem State.lend_refused {s : State} {i : Fin 48} {slot : Nat}
    (h : (s.record i).contact ≠ .present ∨ (s.record i).hard ≠ none ∨ 2 ≤ (s.record i).extensions ∨ s.loanSlot slot = none) :
    s.lend i slot = s := by
  unfold State.lend
  dsimp only
  split
  case isFalse => rfl
  case isTrue allowed =>
    simp only [Bool.and_eq_true, beq_iff_eq, Option.isNone_iff_eq_none] at allowed
    obtain ⟨⟨present, sound⟩, few⟩ := allowed
    have less : (s.record i).extensions < 2 := of_decide_eq_true few
    obtain absent | hard | many | full := h
    · exact absurd present absent
    · exact absurd sound hard
    · omega
    · rw [full]

/-- A loan that is granted (R65). -/
theorem State.lend_granted {s : State} {i : Fin 48} {slot k : Nat} (present : (s.record i).contact = .present)
    (sound : (s.record i).hard = none) (few : (s.record i).extensions < 2) (found : s.loanSlot slot = some k) :
    s.lend i slot = (s.giveCell k s.phase { holder := i, role := .lent }).modifyRecord i
      fun r => { r with extensions := r.extensions + 1 } := by
  have allowed : ((s.record i).contact == .present && (s.record i).hard.isNone && decide ((s.record i).extensions < Config.loanLimit)) =
      true := by
    rw [present, sound]
    simpa [Config.loanLimit] using few
  unfold State.lend
  dsimp only
  rw [allowed, found]
  rfl

theorem State.giveCell_getElem {s : State} {slot phase : Nat} (h : CellHolding) (high : slot ≤ 31)
    (free : s.cell slot phase = none) (hp : phase < 8) (low : 3 ≤ slot) (n : Fin 232) :
    (s.giveCell slot phase h).cells[n] = s.cells[n] ∨
      (s.cells[n] = none ∧ (s.giveCell slot phase h).cells[n] = some h) := by
  have place : cellIndex slot phase < 232 := by
    unfold cellIndex
    omega
  have set : (s.giveCell slot phase h).cells[n] = if cellIndex slot phase = n.val then some h else s.cells[n] := by
    show (s.cells.setIfInBounds (cellIndex slot phase) (some h))[n.val] = _
    rw [Vector.getElem_setIfInBounds]
    rfl
  rw [set]
  by_cases here : cellIndex slot phase = n.val
  · rw [if_pos here]
    have read : s.cell slot phase = s.cells[n] := by
      unfold State.cell
      rw [if_pos ⟨low, high, hp⟩, here, Vector.getElem?_eq_getElem n.isLt]
      rfl
    exact .inr ⟨read ▸ free, rfl⟩
  · rw [if_neg here]
    exact .inl rfl

theorem State.lend_mayLend (s : State) (i : Fin 48) {slot : Nat} (low : 3 ≤ slot) : s.mayLend (s.lend i slot) := by
  by_cases refused : (s.record i).contact ≠ .present ∨ (s.record i).hard ≠ none ∨ 2 ≤ (s.record i).extensions ∨
      s.loanSlot slot = none
  · rw [State.lend_refused refused]
    exact .refl s
  · push Not at refused
    obtain ⟨present, sound, few, found⟩ := refused
    obtain ⟨k, hk⟩ := Option.ne_none_iff_exists'.1 found
    obtain ⟨later, high, free⟩ := State.loanSlot_free hk
    rw [State.lend_granted present sound few hk]
    have phase : s.phase < 8 := Nat.mod_lt _ (by decide)
    refine ⟨fun n => ?_, fun j => ?_, rfl⟩
    · rcases State.giveCell_getElem { holder := i, role := .lent } high free phase (by omega) n with same | ⟨empty, lent⟩
      · exact .inl same
      · exact .inr ⟨empty, _, lent, rfl⟩
    · rw [State.record_modifyRecord_eq]
      split
      next e => exact ⟨_, by rw [e]; rfl⟩
      next => exact ⟨_, rfl⟩

/-- Nothing is lent in slot 31, after which the cycle has no slot. -/
theorem State.lend_last (s : State) (i : Fin 48) : s.lend i 31 = s := State.lend_refused (.inr (.inr (.inr rfl)))

/-- An exchange judged in an earlier slot is an exchange judged in slot 31, and then perhaps a loan. -/
theorem State.judgeExchange_last (s : State) (x : Exchange) (sent : Bool) (o : ExchangeOutcome) {slot : Nat} (low : 3 ≤ slot) :
    (s.judgeExchange x sent slot o = s.judgeExchange x sent 31 o ∧
        ∀ (n : Fin 232) (h : CellHolding), h.role = .lent → (s.judgeExchange x sent 31 o).cells[n] = some h → s.cells[n] = some h) ∨
      (s.judgeExchange x sent 31 o).mayLend (s.judgeExchange x sent slot o) ∧ s.sameLoans (s.judgeExchange x sent 31 o) := by
  have frees {t : State} (h : s.onlyFrees t) (n : Fin 232) (holding : CellHolding) (_ : holding.role = .lent)
      (held : t.cells[n] = some holding) : s.cells[n] = some holding := by
    rcases h n with e | e
    · rw [← e, held]
    · exact absurd (e.symm.trans held) (Option.some_ne_none _).symm
  unfold State.judgeExchange
  by_cases release : x.poll.release = true
  · rw [if_pos release, if_pos release]
    refine .inl ⟨rfl, frees ?_⟩
    split
    · exact s.completeRelease_onlyFrees x.record
    · exact .of_eq rfl
  · rw [if_neg release, if_neg release]
    cases o with
    | matched a level =>
        right
        dsimp only
        rw [State.matchedExchange_eq, State.matchedExchange_eq, State.lend_last, ite_self]
        refine ⟨?_, s.retuned_sameLoans x.record x.poll a level⟩
        split
        · exact State.lend_mayLend _ x.record low
        · exact .refl _
    | dark => exact .inl ⟨rfl, fun _ _ _ => id⟩
    | mismatched => exact .inl ⟨rfl, frees (s.missedExchange_onlyFrees x.record _ x.poll .mismatched)⟩
    | garbled => exact .inl ⟨rfl, frees (s.missedExchange_onlyFrees x.record _ x.poll .garbled)⟩
    | absent => exact .inl ⟨rfl, frees (s.missedExchange_onlyFrees x.record _ x.poll .absent)⟩

end Sys2Proof.Machine

/-! The end of a cycle -/

namespace Sys2Proof.Machine

/-! ## The end of a cycle (R3, R63) -/

/-- The test that a cycle end frees cells by. -/
def cellLent (c : Option CellHolding) : Bool := Option.any (fun h => h.role == .lent) c

theorem cellLent_iff {c : Option CellHolding} : cellLent c = true ↔ ∃ h, c = some h ∧ h.role = .lent := by
  cases c with
  | none => simp [cellLent]
  | some h => simp [cellLent]

/-- What a cycle end leaves of a cell. -/
def cycleCell (c : Option CellHolding) : Option CellHolding := c.bind fun h => if h.role = .lent then none else some h

theorem cycleCell_eq (c : Option CellHolding) : (if cellLent c then none else c) = cycleCell c := by
  cases c with
  | none => rfl
  | some h =>
      by_cases lent : h.role = .lent
      · simp [cellLent, cycleCell, lent]
      · simp [cellLent, cycleCell, lent]

theorem cycleCell_some {c : Option CellHolding} {h : CellHolding} (e : cycleCell c = some h) : h.role ≠ .lent := by
  cases c with
  | none => exact absurd e (by simp [cycleCell])
  | some held =>
      by_cases lent : held.role = .lent
      · simp [cycleCell, lent] at e
      · obtain rfl : held = h := by simpa [cycleCell, lent] using e
        exact lent

/-- The end of a cycle: the loans are freed and the extensions cleared. -/
structure State.cycleEnded (s t : State) : Prop where
  freed : s.cellsFreed t cellLent
  records : ∀ i, t.record i = { s.record i with extensions := 0 }
  frame : t = { s with cells := t.cells, conditions := t.conditions, roster := { s.roster with records := t.roster.records } }

theorem State.endCycle_ended (s : State) : s.cycleEnded s.endCycle := by
  have freed := s.cellsFreed_freeCellsWhere fun h => h.role == .lent
  have roster := s.freeCellsWhere_roster fun h => h.role == .lent
  refine ⟨freed.congr rfl rfl rfl rfl, fun i => ?_, ?_⟩
  · unfold State.endCycle State.record
    dsimp only
    rw [roster]
    show (s.roster.records.map _)[i.val] = _
    rw [Vector.getElem_map]
    rfl
  · unfold State.endCycle
    dsimp only
    rw [roster]
    unfold State.freeCellsWhere
    split <;> rfl

theorem State.cycleEnded.cell {s t : State} (h : s.cycleEnded t) (n : Fin 232) : t.cells[n] = cycleCell s.cells[n] := by
  rw [h.freed.cells, cycleCell_eq]

/-- The passage to CLOSED moves the air alone. -/
theorem State.finishClosing_frame (s : State) : s.finishClosing = { s with air := s.finishClosing.air } := by
  unfold State.finishClosing
  split <;> rfl

theorem State.finishClosing_closing {s : State} (h : s.air.state = .closing) :
    s.finishClosing = { s with air := { s.air with state := .closed, slot := none, grants := [] } } := by
  unfold State.finishClosing
  rw [h]
  rfl

theorem State.finishClosing_open {s : State} (h : s.air.state = .opened) : s.finishClosing = s := by
  unfold State.finishClosing
  rw [h]
  rfl

theorem State.finishClosing_kept (s : State) :
    s.finishClosing.air.work = s.air.work ∧ s.finishClosing.air.exchange = s.air.exchange ∧
      s.finishClosing.air.down = s.air.down ∧ s.finishClosing.air.up = s.air.up ∧ s.finishClosing.air.cycle = s.air.cycle ∧
      s.finishClosing.air.entryOpen = s.air.entryOpen ∧ s.finishClosing.air.garbledRun = s.air.garbledRun := by
  unfold State.finishClosing
  split <;> exact ⟨rfl, rfl, rfl, rfl, rfl, rfl, rfl⟩

theorem State.finishSlot_last (s : State) :
    s.finishSlot 31 = ((s.countDarkEnd.endTurn 31).applyHalt.clearSlot).endCycle.finishClosing := rfl

theorem State.within.airKept {s t : State} (h : s.within t) :
    t.air.state = s.air.state ∧ t.air.slot = s.air.slot ∧ t.air.cycle = s.air.cycle ∧ t.air.entryOpen = s.air.entryOpen := by
  have state := congrArg Air.state h.air
  have slot := congrArg Air.slot h.air
  have cycle := congrArg Air.cycle h.air
  have entry := congrArg Air.entryOpen h.air
  exact ⟨state, slot, cycle, entry⟩

/-- A turn slot's end keeps the air but for its counts, its grants and the exchange. -/
theorem State.endTurn_air (s : State) {slot : Nat} (low : 3 ≤ slot) :
    (s.endTurn slot).air.state = s.air.state ∧ (s.endTurn slot).air.slot = s.air.slot ∧
      (s.endTurn slot).air.cycle = s.air.cycle ∧ (s.endTurn slot).air.entryOpen = s.air.entryOpen ∧
      (s.endTurn slot).params = s.params := by
  cases exchange : s.air.exchange with
  | none =>
      rw [State.endTurn_none exchange]
      exact ⟨rfl, rfl, rfl, rfl, rfl⟩
  | some x =>
      rw [State.endTurn_judged exchange]
      have judged : s.within (s.judged x slot) := (s.judged_settles x low).towithin
      have held := (State.takeHeld_fold_settles x.record s.roster.held (s.judged x slot).windowClosed).towithin
      obtain ⟨state, slot', cycle, entry⟩ := judged.airKept
      obtain ⟨state', slot'', cycle', entry'⟩ := held.airKept
      exact ⟨state'.trans state, slot''.trans slot', cycle'.trans cycle, entry'.trans entry, held.params.trans judged.params⟩

/-! ## The last slot and the slot before it -/

/-- The veil that makes slot 31 slot 30. -/
def Veil.earlier : Veil where
  air a := if a.slot = some 31 then { a with slot := some 30 } else a
  held := id
  halt := id
  garbledFrames := id
  airCheck := id
  airDark := id
  grants a g := by split <;> rfl
  entryOpen a := by split <;> rfl
  cycle a := by split <;> rfl
  inBeacon a := by
    by_cases h : a.slot = some 31
    · rw [if_pos h, h]
      rfl
    · rw [if_neg h]

/-- A state of slot 30. -/
def State.inSlot30 (s : State) : State := { s with air := { s.air with slot := some 30 } }

theorem State.veiled_earlier {s : State} (h : s.air.slot = some 31) : s.veiled .earlier = s.inSlot30 := by
  have air : Veil.earlier.air s.air = s.inSlot30.air := if_pos h
  have others : s.veiled .earlier = { s.veiled (.plain id id) with air := Veil.earlier.air s.air } := rfl
  rw [others, State.veiled_plain, air, Sweep.veiled_same fun _ => rfl]
  rfl

theorem State.judged_inSlot30 {s : State} (h : s.air.slot = some 31) (x : Exchange) :
    s.inSlot30.judged x 30 = ((s.countWindow (s.air.judge decodeAnswer)).judgeExchange x s.air.light.sent 30
      (x.poll.outcome (s.air.judge decodeAnswer))).inSlot30 := by
  have counted : s.inSlot30.countWindow (s.air.judge decodeAnswer) =
      (s.countWindow (s.air.judge decodeAnswer)).inSlot30 := by
    cases s.air.judge decodeAnswer <;> rfl
  have frame := s.countWindow_frame (s.air.judge decodeAnswer)
  have slot : (s.countWindow (s.air.judge decodeAnswer)).air.slot = some 31 := by rw [frame]; exact h
  have judged : s.inSlot30.judged x 30 = (s.inSlot30.countWindow (s.air.judge decodeAnswer)).judgeExchange x s.air.light.sent 30
    (x.poll.outcome (s.air.judge decodeAnswer)) := rfl
  rw [judged, counted, ← State.veiled_earlier slot, State.judgeExchange_veiled]
  refine State.veiled_earlier ?_
  have within := (State.judgeExchange_settles (s.countWindow (s.air.judge decodeAnswer)) x s.air.light.sent (slot := 30)
    (x.poll.outcome (s.air.judge decodeAnswer)) (by decide)).towithin
  rw [State.slot_of_within within, slot]

/-- What follows the judgement of an exchange for which no work is held. -/
def State.turnLeft (s : State) : State := s.windowClosed.applyHalt.clearSlot

theorem State.turnLeft_frame (s : State) : s.turnLeft =
    { s with air := { s.air with work := none, down := none, up := none, exchange := none, beacon := none, light := .ready },
             roster := { s.roster with held := [] }, sweep := s.applyHalt.sweep } := by
  unfold State.turnLeft State.clearSlot State.applyHalt State.windowClosed
  split <;> rfl

/-- The states from which slots 31 and 30 are left: one is the other with, perhaps, a loan. -/
theorem State.ends_apart {s : State} (hs : s.air.slot = some 31) (unheld : s.roster.held = []) :
    ∃ u v : State, s.finishSlot 31 = u.turnLeft.endCycle.finishClosing ∧ s.inSlot30.finishSlot 30 = v.inSlot30.turnLeft ∧
      u.mayLend v ∧ (∀ (n : Fin 232) (h : CellHolding), h.role = .lent → u.cells[n] = some h → s.cells[n] = some h) ∧
      (u = v ∨ s.sameLoans u) := by
  have dark := s.countDarkEnd_frame
  have shifted : s.inSlot30.countDarkEnd = s.countDarkEnd.inSlot30 := by
    unfold State.countDarkEnd
    show (match s.air.light with
      | .darkAfterFact _ => s.inSlot30.setDarkCount (satAdd 255 s.air.darkCount)
      | .ready | .darkFromStart => s.inSlot30 : State) = _
    cases s.air.light <;> rfl
  have slot : s.countDarkEnd.air.slot = some 31 := by rw [dark]; exact hs
  have cells : s.countDarkEnd.cells = s.cells := by rw [dark]
  have held : s.countDarkEnd.roster.held = [] := by rw [dark]; exact unheld
  rw [State.finishSlot_last, State.finishSlot_early _ (by decide), State.endNotice_turn _ (by decide), shifted, ← cells]
  have sameLoansCells {t : State} : s.countDarkEnd.sameLoans t → s.sameLoans t := fun h n holding lent => by
    rw [h n holding lent, cells]
  generalize s.countDarkEnd = d at *
  cases exchange : d.air.exchange with
  | none =>
      have left (e : State) (he : e.air.exchange = none) (hh : e.roster.held = []) : e.applyHalt.clearSlot = e.turnLeft := by
        rw [State.turnLeft_frame]
        unfold State.clearSlot
        rw [State.applyHalt_frame]
        congr 1
        exact congrArg (fun l => { e.roster with held := l }) hh
      refine ⟨d, d, ?_, ?_, .refl d, fun _ _ _ => id, .inl rfl⟩
      · rw [State.endTurn_none exchange, left d exchange held]
      · rw [State.endTurn_none (s := d.inSlot30) exchange, left d.inSlot30 exchange held]
  | some x =>
      have counted := d.countWindow_frame (d.air.judge decodeAnswer)
      have countedCells : (d.countWindow (d.air.judge decodeAnswer)).cells = d.cells := by rw [counted]
      refine ⟨d.judged x 31, (d.countWindow (d.air.judge decodeAnswer)).judgeExchange x d.air.light.sent 30
        (x.poll.outcome (d.air.judge decodeAnswer)), ?_, ?_, ?_⟩
      · rw [State.endTurn_judged exchange, held]
        rfl
      · rw [State.endTurn_judged (s := d.inSlot30) (x := x) exchange, State.judged_inSlot30 slot]
        have same : d.inSlot30.roster.held = [] := held
        rw [same]
        rfl
      · unfold State.judged
        rw [← countedCells]
        obtain ⟨same, lent⟩ | ⟨loan, lent⟩ := State.judgeExchange_last (d.countWindow (d.air.judge decodeAnswer)) x
          d.air.light.sent (x.poll.outcome (d.air.judge decodeAnswer)) (slot := 30) (by decide)
        · rw [same]
          exact ⟨.refl _, lent, .inl rfl⟩
        · refine ⟨loan, fun n h role => (lent n h role).1, .inr (sameLoansCells fun n h role => ?_)⟩
          rw [lent n h role, countedCells]

end Sys2Proof.Machine

/-! The cycle end frees loans -/

namespace Sys2Proof.Machine

/-! ## The cycle end frees loans (R3, R63) -/

theorem State.mayLend.cycleCell {u v : State} (h : u.mayLend v) (n : Fin 232) : cycleCell u.cells[n] = cycleCell v.cells[n] := by
  rcases h.cells n with same | ⟨empty, holding, lent, role⟩
  · rw [same]
  · rw [empty, lent]
    simp [Machine.cycleCell, role]

theorem State.mayLend.conditions {u v : State} (h : u.mayLend v) : v.conditions = u.conditions := by rw [h.frame]

/-- The cells freed at the cycle end are those LENT before the slot that are LENT still. -/
theorem State.mayLend.lentStill {s u v : State} (h : u.mayLend v)
    (noneNew : ∀ (n : Fin 232) (h : CellHolding), h.role = .lent → u.cells[n] = some h → s.cells[n] = some h)
    (kept : u = v ∨ s.sameLoans u) :
    (∃ n : Fin 232, cellLent u.cells[n] = true) ↔
      ∃ (n : Fin 232) (h : CellHolding), v.cells[n] = some h ∧ h.role = .lent ∧ s.cells[n] = some h := by
  constructor
  · rintro ⟨n, lent⟩
    obtain ⟨holding, held, role⟩ := cellLent_iff.1 lent
    refine ⟨n, holding, ?_, role, noneNew n holding role held⟩
    rcases h.cells n with same | ⟨empty, _⟩
    · rw [same, held]
    · exact absurd (empty.symm.trans held) (Option.some_ne_none _).symm
  · rintro ⟨n, holding, held, role, before⟩
    refine ⟨n, cellLent_iff.2 ⟨holding, ?_, role⟩⟩
    rcases kept with rfl | same
    · exact held
    · exact (same n holding role).2 before

theorem State.windowTaken_dark (s : State) :
    s.windowTaken.air.darkCount = s.air.darkCount ∧ s.windowTaken.classFlags .airDark = s.classFlags .airDark := by
  unfold State.windowTaken
  cases s.air.exchange with
  | none => exact ⟨rfl, rfl⟩
  | some x => exact ⟨by rw [State.countWindow_frame], s.countWindow_classes _ .airDark (by decide)⟩

theorem State.finishSlot_darkCounted (s : State) {slot : Nat} (low : 3 ≤ slot) : s.darkCounted (s.finishSlot slot) := by
  obtain ⟨count, flags⟩ := s.countDarkEnd.windowTaken_dark
  exact (s.countDarkEnd_counted.1.congr count flags).of_tallies (s.finishSlot_tallies low)

theorem State.applyHalt_sweep {s t : State} (h : t.sweep = s.sweep) : t.applyHalt.sweep = s.applyHalt.sweep := by
  unfold State.applyHalt
  rw [h]
  split
  · rfl
  · exact h

/-- The end of slot 31, by the state that the last turn slot leaves to the cycle end. -/
theorem State.finishSlot_cycleEnd (s : State) : ∃ c : State, s.finishSlot 31 = c.endCycle.finishClosing ∧
    c = (s.countDarkEnd.endTurn 31).applyHalt.clearSlot ∧ c.air.state = s.air.state ∧ c.air.cycle = s.air.cycle ∧
    c.air.entryOpen = s.air.entryOpen ∧ c.params = s.params ∧ c.air.slot = s.air.slot := by
  have dark := s.countDarkEnd_frame
  obtain ⟨state, slot, cycle, entry, params⟩ := s.countDarkEnd.endTurn_air (slot := 31) (by decide)
  refine ⟨_, s.finishSlot_last, rfl, ?_⟩
  rw [State.applyHalt_frame]
  exact ⟨state.trans (by rw [dark]), cycle.trans (by rw [dark]), entry.trans (by rw [dark]), params.trans (by rw [dark]),
    slot.trans (by rw [dark])⟩

theorem State.inSlot30_eq (s : State) : ({ s with air := { s.air with slot := some 30 } } : State) = s.inSlot30 := rfl

/-- Settles O40: the cycle end after any last slot, and beside the slot end of a slot 30 that is else the same. -/
theorem theCycleEndFreesLoans : Obligations.TheCycleEndFreesLoans := by
  unfold Obligations.TheCycleEndFreesLoans
  refine ⟨fun s w hr hp hs hw => ?_, fun s w hr hp hs hw unheld => ?_⟩
  · obtain ⟨c, last, ends, state, cycle, entry, params, slot⟩ := s.finishSlot_cycleEnd
    have ended := c.endCycle_ended
    have frame := ended.frame
    have air : c.endCycle.air = c.air := by rw [frame]
    have closes := c.endCycle.finishClosing_frame
    obtain ⟨work, exchange, down, up, cycle', entry', run⟩ := c.endCycle.finishClosing_kept
    rw [air] at work exchange down up cycle' entry' run
    have flags (cl : ConditionClass) : c.endCycle.finishClosing.classFlags cl = c.endCycle.classFlags cl :=
      State.classFlags_congr (by rw [closes]) cl
    have cells : c.endCycle.finishClosing.cells = c.endCycle.cells := by rw [closes]
    have record (i : Fin 48) : c.endCycle.finishClosing.record i = c.endCycle.record i := by rw [closes]; rfl
    refine ⟨_, exec_slotEnd hr hp hs hw, ?_⟩
    have counted := s.finishSlot_darkCounted (slot := 31) (by decide)
    rw [show (31 : Fin 32).val = 31 from rfl]
    rw [last] at counted ⊢
    refine ⟨fun n h held => ?_, fun i => ?_, fun closing => ?_, fun opened => ?_, ?_⟩
    · rw [cells, ended.cell] at held
      exact cycleCell_some held
    · rw [record, ended.records]
    · rw [State.finishClosing_closing (by rw [air, state, closing])]
      exact ⟨rfl, rfl, rfl⟩
    · rw [State.finishClosing_open (by rw [air, state, opened]), air]
      exact ⟨state.trans opened, slot.trans hs⟩
    · refine ⟨work.trans (by rw [ends]; rfl), exchange.trans (by rw [ends]; rfl), down.trans (by rw [ends]; rfl),
        up.trans (by rw [ends]; rfl), cycle'.trans cycle, entry'.trans entry, counted, ?_, fun idle => ?_⟩
      · rw [closes]
        show c.endCycle.params = s.params
        rw [frame]
        exact params
      · have dark := s.countDarkEnd_frame
        have idle' : s.countDarkEnd.air.exchange = none := by rw [dark]; exact idle
        rw [State.endTurn_none idle', State.applyHalt_frame] at ends
        have cCells : c.cells = s.cells := by rw [ends, dark]; rfl
        have cFlags (cl : ConditionClass) : c.classFlags cl = s.countDarkEnd.classFlags cl :=
          State.classFlags_congr (by rw [ends]; rfl) cl
        have darkFlags := s.countDarkEnd_counted.2
        obtain ⟨_, ⟨ending, keeping⟩, classes⟩ := ended.freed
        rw [cCells, cFlags] at ending keeping
        have plan : s.countDarkEnd.classFlags .planFull = s.classFlags .planFull := darkFlags .planFull (by decide)
        rw [plan] at ending keeping
        have kept : c.endCycle.finishClosing = { c with
            air := c.endCycle.finishClosing.air, cells := c.endCycle.cells, conditions := c.endCycle.conditions,
            roster := { c.roster with records := c.endCycle.roster.records } } := by
          rw [closes, frame]
        refine ⟨fun n => ?_, ?_, fun cl hc => ?_, fun i => ?_, fun opened => ?_, run.trans ?_, ?_, ?_, ?_, ?_⟩
        · rw [cells, ended.cell, cCells]
          rfl
        · unfold State.planFreed State.causeEnded
          rw [flags]
          exact ⟨ending, keeping⟩
        · simp only [List.mem_cons, List.not_mem_nil, or_false, not_or] at hc
          obtain ⟨notPlan, notDark⟩ := hc
          rw [flags, classes cl (by simpa using notPlan), cFlags, darkFlags cl (by simpa using notDark)]
        · have before : c.record i = s.record i := by rw [ends, dark]; rfl
          rw [record, ended.records, before]
        · rw [State.finishClosing_open (by rw [air, state, opened]), air, ends, dark]
          rfl
        · rw [ends, dark]
          rfl
        · rw [kept, ends, dark]
          rfl
        · rw [kept, ends, dark]
          rfl
        · rw [kept, ends, dark]
          rfl
        · rw [kept, ends, dark]
          rfl
  · obtain ⟨u, v, last, before, loan, noneNew, kept⟩ := State.ends_apart hs unheld
    have ended := u.turnLeft.endCycle_ended
    have frame := ended.frame
    have closes := u.turnLeft.endCycle.finishClosing_frame
    have left := u.turnLeft_frame
    have left' := v.inSlot30.turnLeft_frame
    have uCells : u.turnLeft.cells = u.cells := by rw [left]
    have vCells : v.inSlot30.turnLeft.cells = v.cells := by rw [left']; rfl
    have uRecord (i : Fin 48) : u.turnLeft.record i = u.record i := by rw [left]; rfl
    have vRecord (i : Fin 48) : v.inSlot30.turnLeft.record i = v.record i := by rw [left']; rfl
    have same (cl : ConditionClass) : v.inSlot30.turnLeft.classFlags cl = u.turnLeft.classFlags cl :=
      State.classFlags_congr (by rw [left, left']; exact loan.conditions) cl
    have flags (cl : ConditionClass) : u.turnLeft.endCycle.finishClosing.classFlags cl = u.turnLeft.endCycle.classFlags cl :=
      State.classFlags_congr (by rw [closes]) cl
    obtain ⟨_, ⟨ending, keeping⟩, classes⟩ := ended.freed
    rw [uCells, loan.lentStill noneNew kept] at ending keeping
    refine ⟨_, _, exec_slotEnd hr hp hs hw, exec_slotEnd (s := s.inSlot30) hr hp rfl hw, ?_⟩
    rw [show (31 : Fin 32).val = 31 from rfl, show (30 : Fin 32).val = 30 from rfl, last, before]
    refine ⟨fun n => ?_, fun i => ?_, ?_, fun cl hc => ?_, ?_⟩
    · rw [closes]
      show u.turnLeft.endCycle.cells[n] = cycleCell v.inSlot30.turnLeft.cells[n]
      rw [ended.cell, uCells, vCells, loan.cycleCell]
    · have record : u.turnLeft.endCycle.finishClosing.record i = u.turnLeft.endCycle.record i := by rw [closes]; rfl
      obtain ⟨n, lent⟩ := loan.records i
      rw [record, ended.records, uRecord, vRecord, lent]
    · unfold State.causeEnded
      rw [flags, same, vCells]
      exact ⟨ending, keeping⟩
    · rw [flags, classes cl hc, same]
    · have halted : v.inSlot30.applyHalt.sweep = u.applyHalt.sweep := by
        have sweep : v.inSlot30.sweep = u.sweep := by rw [loan.frame]; rfl
        exact State.applyHalt_sweep sweep
      have loanFrame := loan.frame
      rw [closes, frame, left', halted, left]
      clear left left' closes frame halted
      generalize u.applyHalt.sweep = sweep
      generalize u.turnLeft.endCycle = e
      generalize v.cells = cells at *
      generalize v.roster.records = records at *
      subst loanFrame
      rfl

end Sys2Proof.Machine

/-! Work on one record and its attention entry -/

namespace Sys2Proof.Machine

/-! ## Work on one record and its attention entry

Most of what an exchange does changes one record and offers reasons for it. -/

/-- `t` is `s` after record `i` became `r` and reasons were offered for it. -/
structure State.touches (s t : State) (i : Fin 48) (r : Record) (reasons : List Reason) : Prop where
  record : t.record i = r
  others : ∀ j, j ≠ i → t.record j = s.record j
  tells : s.tells t i reasons
  frame : t = { s with roster := { s.roster with records := t.roster.records },
                       host := { s.host with attention := t.host.attention } }

section
variable {s t u : State} {i : Fin 48} {r q : Record} {l m : List Reason}

theorem State.touches.params (h : s.touches t i r l) : t.params = s.params := by rw [h.frame]
theorem State.touches.cells (h : s.touches t i r l) : t.cells = s.cells := by rw [h.frame]
theorem State.touches.pool (h : s.touches t i r l) : t.pool = s.pool := by rw [h.frame]
theorem State.touches.ports (h : s.touches t i r l) : t.ports = s.ports := by rw [h.frame]
theorem State.touches.inbound (h : s.touches t i r l) : t.inbound = s.inbound := by rw [h.frame]
theorem State.touches.air (h : s.touches t i r l) : t.air = s.air := by rw [h.frame]
theorem State.touches.sweep (h : s.touches t i r l) : t.sweep = s.sweep := by rw [h.frame]
theorem State.touches.conditions (h : s.touches t i r l) : t.conditions = s.conditions := by rw [h.frame]
theorem State.touches.summonCount (h : s.touches t i r l) : t.roster.summonCount = s.roster.summonCount := by rw [h.frame]
theorem State.touches.pinnedCount (h : s.touches t i r l) : t.roster.pinnedCount = s.roster.pinnedCount := by rw [h.frame]

theorem State.touches.classes (h : s.touches t i r l) : s.onlyClasses t [] :=
  fun c _ => State.classFlags_congr h.conditions c

theorem State.touches.refl (s : State) (i : Fin 48) : s.touches s i (s.record i) [] := ⟨rfl, fun _ _ => rfl, rfl, rfl⟩

theorem State.touches.trans (h : s.touches t i r l) (k : t.touches u i q m) : s.touches u i q (l ++ m) where
  record := k.record
  others j e := (k.others j e).trans (h.others j e)
  tells := h.tells.trans k.tells h.params
  frame := by
    have first := h.frame
    have second := k.frame
    generalize t.roster.records = records at *
    generalize t.host.attention = attention at *
    generalize u.roster.records = records' at *
    generalize u.host.attention = attention' at *
    subst first
    exact second

/-- The same work, its record and its reasons written otherwise. -/
theorem State.touches.of_eq (h : s.touches t i r l) (record : r = q) (reasons : l = m) : s.touches t i q m :=
  record ▸ reasons ▸ h

theorem State.touches_modifyRecord (s : State) (i : Fin 48) (f : Record → Record) :
    s.touches (s.modifyRecord i f) i (f (s.record i)) [] :=
  ⟨s.record_modifyRecord i f, fun _ e => State.record_modifyRecord_ne s f e.symm, rfl, rfl⟩

theorem State.touches_offerReason (s : State) (i : Fin 48) (reason : Reason) :
    s.touches (s.offerReason i reason) i (s.record i) [reason] := by
  refine ⟨?_, fun j _ => ?_, s.tells_offerReason i reason, ?_⟩
  · unfold State.record
    rw [State.offerReason_roster]
  · unfold State.record
    rw [State.offerReason_roster]
  · unfold State.offerReason
    split <;> rfl

theorem State.touches_setSoft (s : State) (i : Fin 48) (fault : SoftFault) :
    s.touches (s.setSoft i fault) i { s.record i with soft := some fault } [.softFault] := by
  have modified := s.touches_modifyRecord i fun r => { r with soft := some fault }
  exact (modified.trans (State.touches_offerReason _ i .softFault)).of_eq modified.record rfl

end

theorem Reason.keptBy_softFault (r : Reason) : r.keptBy .softFault := by
  cases r with
  | softFault => exact .inl rfl
  | summonEnded _ | retuneEnded _ => exact .inr (by simp [Reason.bit])
  | _ => exact .inr (by decide)

/-! ## A miss counted (R55, R66, R75) -/

/-- A record after a miss was counted. -/
def Record.counted (r : Record) (p : Params) (role : CellRole) : Record :=
  { r with missCount := (r.missed p role).1, grantMisses := (r.missed p role).2 }

theorem State.countMiss_touches (s : State) (i : Fin 48) (role : CellRole) :
    s.touches (s.countMiss i (role != .lent)) i ((s.record i).counted s.params role) [] := by
  unfold State.countMiss Record.counted Record.missed
  by_cases lent : role = .lent
  · subst lent
    exact .refl s i
  · have own : (role != .lent) = true := bne_iff_ne.2 lent
    rw [own, if_pos rfl, if_neg lent]
    refine (s.touches_modifyRecord i _).of_eq ?_ rfl
    unfold satAdd
    by_cases granted : (s.record i).contact = .granted
    · simp [granted]
    · simp [granted]

/-- A mismatch below the eighth (R75). -/
theorem State.countMismatch_touches {s : State} {i : Fin 48} (h : (s.record i).mismatchCount < 7) :
    s.touches (s.countMismatch i) i { s.record i with mismatchCount := (s.record i).mismatchCount + 1, soft := some .mismatch }
      [.softFault] := by
  have counted := s.touches_modifyRecord i fun r => { r with mismatchCount := satAdd Config.identityLimit r.mismatchCount }
  have faulted := counted.trans (State.touches_setSoft _ i .mismatch)
  have sum : satAdd Config.identityLimit (s.record i).mismatchCount = (s.record i).mismatchCount + 1 :=
    if_pos (Nat.lt_trans h (by decide))
  have record := faulted.record
  rw [counted.record, sum] at faulted record
  unfold State.countMismatch
  dsimp only
  rw [record, if_neg (by simp [Config.identityLimit]; omega)]
  exact faulted

/-! ## The judgement of a window that was not MATCHED -/

/-- What an exchange that was not MATCHED counts, before the message, the lapse and the retune. -/
def State.missJudged (s : State) (x : Exchange) : State :=
  ((s.countWindow (s.air.judge decodeAnswer)).countMiss x.record (x.role != .lent)).noteOutcome x.record (x.role != .lent)
    (x.poll.outcome (s.air.judge decodeAnswer))

theorem Air.judge_absent {α : Type} {a : Air} {decode : List Byte → Option α} (light : a.light = .ready) (up : a.up = none) :
    a.judge decode = .absent := by
  simp only [Air.judge, light, up]
  rfl

theorem Air.judge_garbled {α : Type} {a : Air} {decode : List Byte → Option α} {u : UpFrame} (light : a.light = .ready)
    (up : a.up = some u) (bad : decode u.bytes = none) : a.judge decode = .garbled := by
  simp only [Air.judge, light, up, bad]
  rfl

theorem Air.judge_good {α : Type} {a : Air} {decode : List Byte → Option α} {u : UpFrame} {contents : α} (light : a.light = .ready)
    (up : a.up = some u) (good : decode u.bytes = some contents) : a.judge decode = .good contents u.level := by
  simp only [Air.judge, light, up, good]
  rfl

theorem Air.judge_dark {α : Type} {a : Air} {decode : List Byte → Option α} (light : a.light ≠ .ready) :
    a.judge decode = .dark := by
  simp only [Air.judge, beq_false_of_ne light]
  rfl

theorem Poll.outcome_matched {p : Poll} {a : Answer} {level : Nat} (car : a.carId = p.carId) (tag : a.tag = p.tag) :
    p.outcome (.good a level) = .matched a level := by
  simp only [Poll.outcome, car, tag, beq_self_eq_true, Bool.and_self, if_true]

theorem Poll.outcome_mismatched {p : Poll} {a : Answer} {level : Nat} (other : a.carId ≠ p.carId ∨ a.tag ≠ p.tag) :
    p.outcome (.good a level) = .mismatched := by
  refine if_neg fun same => ?_
  rw [Bool.and_eq_true, beq_iff_eq, beq_iff_eq] at same
  rcases other with ne | ne
  · exact ne same.1
  · exact ne same.2

/-- The reasons of an exchange that was not MATCHED. -/
def missReasons (own : Bool) : ExchangeOutcome → List Reason
  | .mismatched => [.softFault]
  | .garbled => if own then [.softFault] else []
  | .matched _ _ | .absent | .dark => []

theorem missReasons_soft {own : Bool} {o : ExchangeOutcome} {r : Reason} (h : r ∈ missReasons own o) : r = .softFault := by
  cases o with
  | mismatched => exact List.mem_singleton.1 h
  | garbled =>
      cases own with
      | true => exact List.mem_singleton.1 h
      | false => exact absurd h List.not_mem_nil
  | matched _ _ => exact absurd h List.not_mem_nil
  | absent => exact absurd h List.not_mem_nil
  | dark => exact absurd h List.not_mem_nil

theorem State.countWindow_record (s : State) (w : WindowResult Answer) (i : Fin 48) : (s.countWindow w).record i = s.record i := by
  cases w <;> rfl

theorem State.countWindow_params (s : State) (w : WindowResult Answer) : (s.countWindow w).params = s.params := by cases w <;> rfl

/-- The counts of an exchange that was not MATCHED, below the eighth mismatch. -/
theorem State.missedBy.touches {s : State} {x : Exchange} {soft : Option SoftFault} {mismatches : Nat}
    (h : s.missedBy x soft mismatches) (light : s.air.light = .ready) :
    (s.countWindow (s.air.judge decodeAnswer)).touches (s.missJudged x) x.record
        { (s.record x.record).counted s.params x.role with mismatchCount := mismatches, soft := soft }
        (missReasons (x.role != .lent) (x.poll.outcome (s.air.judge decodeAnswer))) ∧
      (x.poll.outcome (s.air.judge decodeAnswer) = .absent ∨ x.poll.outcome (s.air.judge decodeAnswer) = .garbled ∨
        x.poll.outcome (s.air.judge decodeAnswer) = .mismatched) := by
  unfold State.missJudged
  have counted := (s.countWindow (s.air.judge decodeAnswer)).countMiss_touches x.record x.role
  rw [State.countWindow_record, State.countWindow_params] at counted
  obtain ⟨up, rfl, rfl⟩ | ⟨u, up, bad, rfl, rfl⟩ | ⟨u, a, up, good, other, rfl, rfl, few⟩ := h
  · rw [Air.judge_absent light up] at counted ⊢
    exact ⟨counted, .inl rfl⟩
  · rw [Air.judge_garbled light up bad] at counted ⊢
    refine ⟨?_, .inr (.inl rfl)⟩
    unfold missReasons State.noteOutcome
    by_cases lent : x.role = .lent
    · rw [lent] at counted ⊢
      exact counted
    · have own : (x.role != .lent) = true := bne_iff_ne.2 lent
      have faulted := counted.trans (State.touches_setSoft _ x.record .garbled)
      rw [counted.record] at faulted
      rw [own, if_neg lent] at *
      exact faulted
  · rw [Air.judge_good light up good, Poll.outcome_mismatched other] at *
    refine ⟨?_, .inr (.inr rfl)⟩
    have faulted := counted.trans (State.countMismatch_touches (i := x.record) (by rw [counted.record]; exact Nat.lt_of_succ_lt_succ few))
    rw [counted.record] at faulted
    exact faulted

/-! ## The end of a slot in which an exchange was judged -/

section
variable (j : State)

theorem State.turnLeft_roster : j.turnLeft.roster = { j.roster with held := [] } := by rw [State.turnLeft_frame]
@[simp] theorem State.turnLeft_record (i : Fin 48) : j.turnLeft.record i = j.record i := by rw [State.turnLeft_frame]; rfl
@[simp] theorem State.turnLeft_cells : j.turnLeft.cells = j.cells := by rw [State.turnLeft_frame]
@[simp] theorem State.turnLeft_pool : j.turnLeft.pool = j.pool := by rw [State.turnLeft_frame]
@[simp] theorem State.turnLeft_ports : j.turnLeft.ports = j.ports := by rw [State.turnLeft_frame]
@[simp] theorem State.turnLeft_inbound : j.turnLeft.inbound = j.inbound := by rw [State.turnLeft_frame]
@[simp] theorem State.turnLeft_host : j.turnLeft.host = j.host := by rw [State.turnLeft_frame]
@[simp] theorem State.turnLeft_params : j.turnLeft.params = j.params := by rw [State.turnLeft_frame]
@[simp] theorem State.turnLeft_conditions : j.turnLeft.conditions = j.conditions := by rw [State.turnLeft_frame]
@[simp] theorem State.turnLeft_classFlags (c : ConditionClass) : j.turnLeft.classFlags c = j.classFlags c :=
  State.classFlags_congr j.turnLeft_conditions c
@[simp] theorem State.turnLeft_garbledRun : j.turnLeft.air.garbledRun = j.air.garbledRun := by rw [State.turnLeft_frame]
@[simp] theorem State.turnLeft_grants : j.turnLeft.air.grants = j.air.grants := by rw [State.turnLeft_frame]
@[simp] theorem State.turnLeft_exchange : j.turnLeft.air.exchange = none := by rw [State.turnLeft_frame]
@[simp] theorem State.turnLeft_summonCount : j.turnLeft.roster.summonCount = j.roster.summonCount := by rw [State.turnLeft_frame]
@[simp] theorem State.turnLeft_pinnedCount : j.turnLeft.roster.pinnedCount = j.roster.pinnedCount := by rw [State.turnLeft_frame]

theorem State.applyHalt_left : j.applyHalt.sweep.left = j.sweep.left := by
  unfold State.applyHalt
  split <;> rfl

@[simp] theorem State.turnLeft_left : j.turnLeft.sweep.left = j.sweep.left := by
  rw [State.turnLeft_frame]
  exact j.applyHalt_left

end

/-- The end of a turn slot 3 to 30 with an exchange and no work held. -/
theorem exec_slotEnd_turn {s : State} {k : Fin 32} {x : Exchange} (hr : s.resetHeld = false) (hp : s.resetPending = false)
    (hs : s.air.slot = some k) (low : 3 ≤ k.val) (high : k.val ≤ 30) (hw : s.air.work ≠ none) (hx : s.air.exchange = some x)
    (unheld : s.roster.held = []) : exec .slotEnd s = .next (s.countDarkEnd.judged x k.val).turnLeft := by
  obtain ⟨w, hw⟩ := Option.ne_none_iff_exists'.1 hw
  have dark := s.countDarkEnd_frame
  have exchange : s.countDarkEnd.air.exchange = some x := by rw [dark]; exact hx
  have held : s.countDarkEnd.roster.held = [] := by rw [dark]; exact unheld
  rw [exec_slotEnd hr hp hs hw, s.finishSlot_early (by omega), State.endNotice_turn _ low, State.endTurn_judged exchange, held]
  rfl

/-- The end of a ready turn slot with an exchange. -/
theorem State.endsExchange.slotEnds {s : State} {k : Fin 32} {x : Exchange} (h : s.endsExchange k x) :
    exec .slotEnd s = .next ((s.countWindow (s.air.judge decodeAnswer)).judgeExchange x true k.val
      (x.poll.outcome (s.air.judge decodeAnswer))).turnLeft := by
  obtain ⟨hr, hp, hs, low, high, hw, light, hx, _, unheld⟩ := h
  have ready : s.countDarkEnd = s := by simp only [State.countDarkEnd, light]
  rw [exec_slotEnd_turn hr hp hs low high hw hx unheld, ready]
  unfold State.judged
  rw [light]
  rfl

/-- The exchange of an outcome that is not MATCHED. -/
theorem State.judgeExchange_missed {s : State} {x : Exchange} {sent : Bool} {slot : Nat} {o : ExchangeOutcome}
    (h : x.poll.release = false) (missed : o = .absent ∨ o = .garbled ∨ o = .mismatched) :
    s.judgeExchange x sent slot o = s.missedExchange x.record (x.role != .lent) x.poll o := by
  unfold State.judgeExchange
  rw [h]
  rcases missed with rfl | rfl | rfl <;> rfl

/-- An exchange that was not MATCHED whose record keeps its turn, without a message and a retune. -/
theorem State.missedExchange_kept {s : State} {i : Fin 48} {own : Bool} {poll : Poll} {o : ExchangeOutcome}
    (message : poll.message = none) (retune : poll.retune = none)
    (lapse : (own && ((s.countMiss i own).noteOutcome i own o).lapseDue i) = false)
    (grant : (own && ((s.countMiss i own).noteOutcome i own o).grantLapseDue i) = false) :
    s.missedExchange i own poll o = (s.countMiss i own).noteOutcome i own o := by
  unfold State.missedExchange
  rw [message, retune]
  dsimp only [Option.isSome]
  rw [if_neg Bool.false_ne_true, if_neg (by rw [lapse]; decide), if_neg Bool.false_ne_true, if_neg (by rw [grant]; decide)]

theorem State.lapseDue_iff {s : State} {i : Fin 48} : s.lapseDue i = true ↔
    (s.record i).contact = .present ∧ (s.record i).hard = none ∧ s.params.lapseLimit ≤ (s.record i).missCount := by
  simp [State.lapseDue, and_assoc]

theorem State.grantLapseDue_iff {s : State} {i : Fin 48} : s.grantLapseDue i = true ↔
    (s.record i).contact = .granted ∧ (s.record i).hard = none ∧ s.params.grantLimit ≤ (s.record i).grantMisses := by
  simp [State.grantLapseDue, and_assoc]

/-- A record that keeps its turn lapses neither from PRESENT nor from GRANTED. -/
theorem Record.keepsTurn.stays {r q : Record} {p : Params} {role : CellRole} {s : State} {i : Fin 48} (h : r.keepsTurn p role)
    (record : s.record i = q) (params : s.params = p) (contact : q.contact = r.contact)
    (hard : r.hard ≠ none → q.hard ≠ none) (misses : q.missCount = (r.missed p role).1)
    (grantMisses : q.grantMisses = (r.missed p role).2) :
    ((role != .lent) && s.lapseDue i) = false ∧ ((role != .lent) && s.grantLapseDue i) = false := by
  rw [Bool.and_eq_false_iff, Bool.and_eq_false_iff, ← Bool.not_eq_true (s.lapseDue i), State.lapseDue_iff,
    ← Bool.not_eq_true (s.grantLapseDue i), State.grantLapseDue_iff, record, params, contact, misses, grantMisses]
  obtain lent | faulted | ⟨few, fewGrants⟩ := h
  · exact ⟨.inl (by rw [lent]; rfl), .inl (by rw [lent]; rfl)⟩
  · exact ⟨.inr fun e => hard faulted e.2.1, .inr fun e => hard faulted e.2.1⟩
  · refine ⟨.inr fun e => ?_, .inr fun e => ?_⟩
    · exact absurd (few e.1) (Nat.not_lt.2 e.2.2)
    · exact absurd (fewGrants e.1) (Nat.not_lt.2 e.2.2)

end Sys2Proof.Machine

/-! The eighth mismatch -/

namespace Sys2Proof.Machine

/-! ## The eighth mismatch (R34, R80) -/

/-- The hard fault IDENTITY taken by record `i`. -/
structure State.identityTaken (s t : State) (i : Fin 48) : Prop where
  record : t.record i =
    { s.record i with hard := some .identity, handover := droppedClaim (s.record i).handover }
  others : ∀ j, j ≠ i → t.record j = s.record j
  tells : s.tells t i [.hardFault]
  reported : s.classReported t .identity true
  classes : s.onlyClasses t [.identity]
  frame : t = { s with roster := { s.roster with records := t.roster.records },
                       host := { s.host with attention := t.host.attention }, conditions := t.conditions }

theorem State.dropClaim_records (s : State) (i : Fin 48) :
    s.dropClaim i = { s with roster := { s.roster with records := (s.dropClaim i).roster.records } } := by
  unfold State.dropClaim
  cases (s.record i).handover with
  | none => rfl
  | some c =>
      dsimp only
      split <;> rfl

theorem State.reportIdentity_hard {s : State} {i : Fin 48} (h : (s.record i).hard ≠ none) :
    s.reportIdentity = s.reportCause .identity true := by
  have any : (s.roster.records.toList.any fun r => r.hard.isSome) = true := by
    rw [List.any_eq_true]
    exact ⟨s.record i, Vector.mem_toList_iff.2 (Vector.getElem_mem i.isLt), Option.isSome_iff_ne_none.2 h⟩
  unfold State.reportIdentity
  rw [any]

theorem State.takeIdentity_taken (s : State) (i : Fin 48) : s.identityTaken (s.takeIdentity i) i := by
  have modified := s.touches_modifyRecord i fun r => { r with hard := some .identity }
  have told := (modified.trans (State.touches_offerReason _ i .hardFault)).of_eq modified.record rfl
  unfold State.takeIdentity
  generalize (s.modifyRecord i fun r => { r with hard := some .identity }).offerReason i .hardFault = u at told ⊢
  rw [State.reportIdentity_hard (i := i) (by rw [told.record]; exact Option.some_ne_none _)]
  have flags (c : ConditionClass) : u.classFlags c = s.classFlags c := State.classFlags_congr told.conditions c
  have reported := u.reportCause_reported .identity true
  have classes := u.onlyClasses_reportCause .identity true
  have uFrame := told.frame
  have kept : u.reportCause .identity true = { u with conditions := (u.reportCause .identity true).conditions } := rfl
  have record (j : Fin 48) : (u.reportCause .identity true).record j = u.record j := rfl
  have attention : (u.reportCause .identity true).host = u.host := rfl
  have dropped := (u.reportCause .identity true).dropClaim_records i
  have own := (u.reportCause .identity true).dropClaim_record i
  generalize u.reportCause .identity true = v at *
  have vFlags (c : ConditionClass) : (v.dropClaim i).classFlags c = v.classFlags c :=
    State.classFlags_congr (by rw [dropped]) c
  refine ⟨?_, fun j e => ?_, told.tells.after ?_, ?_, fun c hc => ?_, ?_⟩
  · rw [own, if_pos rfl, record, told.record]
  · rw [own, if_neg e, record, told.others j e]
  · rw [dropped, attention]
  · unfold State.classReported at reported ⊢
    rw [vFlags]
    rw [flags] at reported
    exact reported
  · rw [vFlags, classes c hc, flags]
  · rw [dropped]
    generalize (v.dropClaim i).roster.records = records
    generalize v.conditions = conditions at *
    generalize u.roster.records = uRecords at *
    generalize u.host.attention = uAttention at *
    subst uFrame
    subst kept
    rfl

/-- The eighth mismatch counted (R80). -/
theorem State.countMismatch_eighth {s : State} {i : Fin 48} (h : (s.record i).mismatchCount = 7) :
    ∃ u : State, s.touches u i { s.record i with mismatchCount := 8, soft := some .mismatch } [.softFault] ∧
      u.identityTaken (s.countMismatch i) i := by
  have counted := s.touches_modifyRecord i fun r => { r with mismatchCount := satAdd Config.identityLimit r.mismatchCount }
  have faulted := counted.trans (State.touches_setSoft _ i .mismatch)
  have sum : satAdd Config.identityLimit (s.record i).mismatchCount = 8 := by rw [h]; rfl
  have record := faulted.record
  rw [counted.record, sum] at faulted record
  refine ⟨_, faulted, ?_⟩
  unfold State.countMismatch
  dsimp only
  rw [record]
  split
  next => exact State.takeIdentity_taken _ i
  next below => exact absurd rfl below

end Sys2Proof.Machine

/-! Exchanges without a match -/

namespace Sys2Proof.Machine

/-! ## Exchanges without a match (R12, R15, R16, R66, R75) -/

/-- The counts of a slot end (R12, R15, R16), in a turn slot whose POLL was chosen. -/
theorem State.finishSlot_windowCounted {s : State} {x : Exchange} (hx : s.air.exchange = some x) {slot : Nat} (low : 3 ≤ slot) :
    s.windowCounted (s.finishSlot slot) := by
  refine ⟨s.finishSlot_darkCounted low, ?_⟩
  have tallies := s.finishSlot_tallies low
  have dark := s.countDarkEnd_frame
  have exchange : s.countDarkEnd.air.exchange = some x := by rw [dark]; exact hx
  have taken : s.countDarkEnd.windowTaken = s.countDarkEnd.countWindow (s.countDarkEnd.air.judge decodeAnswer) := by
    unfold State.windowTaken
    rw [exchange]
  rw [taken] at tallies
  obtain ⟨-, run, frames, flags, -⟩ := State.tallies_congr tallies
  have darkCheck : s.countDarkEnd.classFlags .airCheck = s.classFlags .airCheck :=
    s.countDarkEnd_counted.2 .airCheck (by decide)
  have counted := s.countDarkEnd.countWindow_counted
  have light : s.countDarkEnd.air.light = s.air.light := by rw [dark]
  have up : s.countDarkEnd.air.up = s.air.up := by rw [dark]
  have garbled : s.countDarkEnd.air.garbledRun = s.air.garbledRun := by rw [dark]
  have host : s.countDarkEnd.host = s.host := by rw [dark]
  have params : s.countDarkEnd.params = s.params := by rw [dark]
  unfold State.classReported at counted ⊢
  rw [light, up, garbled, host, params, darkCheck] at counted
  rw [run, frames, flags]
  generalize (s.countDarkEnd.countWindow (s.countDarkEnd.air.judge decodeAnswer)) = c at counted ⊢
  cases hl : s.air.light with
  | darkFromStart =>
      rw [hl] at counted
      rw [show c = s.countDarkEnd from counted]
      exact ⟨garbled, congrArg HostPort.garbledFrames host, darkCheck⟩
  | darkAfterFact b =>
      rw [hl] at counted
      rw [show c = s.countDarkEnd from counted]
      exact ⟨garbled, congrArg HostPort.garbledFrames host, darkCheck⟩
  | ready =>
      rw [hl] at counted
      cases hu : s.air.up with
      | none =>
          rw [hu] at counted
          rw [show c = s.countDarkEnd from counted]
          exact ⟨garbled, congrArg HostPort.garbledFrames host, darkCheck⟩
      | some u =>
          rw [hu] at counted
          exact counted

theorem windowCounted_of_exec {s t : State} {k : Fin 32} {x : Exchange} (hr : s.resetHeld = false) (hp : s.resetPending = false)
    (hs : s.air.slot = some k) (low : 3 ≤ k.val) (hw : s.air.work ≠ none) (hx : s.air.exchange = some x)
    (h : exec .slotEnd s = .next t) : s.windowCounted t := by
  obtain ⟨w, hw⟩ := Option.ne_none_iff_exists'.1 hw
  rw [exec_slotEnd hr hp hs hw] at h
  rw [← Host.Outcome.next.inj h]
  exact State.finishSlot_windowCounted hx low

/-- The counts of a ready turn slot, by its up frame. -/
theorem State.endsExchange.windowCounted {s t : State} {k : Fin 32} {x : Exchange} (h : s.endsExchange k x)
    (e : exec .slotEnd s = .next t) : s.windowCounted t := by
  obtain ⟨hr, hp, hs, low, _, hw, _, hx, _⟩ := h
  exact windowCounted_of_exec hr hp hs low hw hx e

/-- The counts of a garbled window, or of none. -/
theorem State.windowCounted.garbled {s t : State} (h : s.windowCounted t) (light : s.air.light = .ready) {garbled : Bool}
    (absent : garbled = false → s.air.up = none) (bad : garbled = true → ∃ u, s.air.up = some u ∧ decodeAnswer u.bytes = none) :
    (garbled = true → s.classReported t .airCheck (decide (s.params.airCheck ≤ t.air.garbledRun))) ∧
      t.air.garbledRun = (if garbled then (if s.air.garbledRun < 255 then s.air.garbledRun + 1 else s.air.garbledRun)
        else s.air.garbledRun) ∧
      t.host.garbledFrames = (if garbled then
          (if s.host.garbledFrames < 65535 then s.host.garbledFrames + 1 else s.host.garbledFrames)
        else s.host.garbledFrames) := by
  obtain ⟨-, counts⟩ := h
  cases garbled with
  | false =>
      rw [light, absent rfl] at counts
      obtain ⟨run, frames, _⟩ := counts
      exact ⟨nofun, run, frames⟩
  | true =>
      obtain ⟨u, up, none⟩ := bad rfl
      rw [light, up] at counts
      dsimp only at counts
      rw [if_pos none] at counts
      obtain ⟨⟨run, frames⟩, reported⟩ := counts
      exact ⟨fun _ => reported, run, frames⟩

/-- The counts of a good window. -/
theorem State.windowCounted.good {s t : State} (h : s.windowCounted t) (light : s.air.light = .ready) {u : UpFrame} {a : Answer}
    (up : s.air.up = some u) (good : decodeAnswer u.bytes = some a) :
    s.classReported t .airCheck (decide (s.params.airCheck ≤ t.air.garbledRun)) ∧ t.air.garbledRun = 0 := by
  obtain ⟨-, counts⟩ := h
  rw [light, up] at counts
  dsimp only at counts
  rw [if_neg (by rw [good]; exact Option.some_ne_none a)] at counts
  exact ⟨counts.2, counts.1.1⟩

/-- The window of a garbled frame, or of none, reports AIR_CHECK for a garbled frame alone. -/
theorem State.countWindow_classesIf (s : State) (light : s.air.light = .ready) {garbled : Bool}
    (absent : garbled = false → s.air.up = none) :
    s.onlyClasses (s.countWindow (s.air.judge decodeAnswer)) (if garbled then [.airCheck] else []) := by
  cases garbled with
  | false =>
      rw [Air.judge_absent light (absent rfl)]
      exact fun _ _ => rfl
  | true => exact s.countWindow_classes _

theorem State.countWindow_attention (s : State) (w : WindowResult Answer) :
    (s.countWindow w).host.attention = s.host.attention := by cases w <;> rfl

/-- What a window's count leaves alone. -/
theorem State.countWindow_kept (s : State) (w : WindowResult Answer) :
    (s.countWindow w).cells = s.cells ∧ (s.countWindow w).pool = s.pool ∧ (s.countWindow w).ports = s.ports ∧
      (s.countWindow w).inbound = s.inbound ∧ (s.countWindow w).params = s.params ∧ (s.countWindow w).roster = s.roster ∧
      (s.countWindow w).air.grants = s.air.grants ∧ (s.countWindow w).sweep = s.sweep := by
  cases w <;> exact ⟨rfl, rfl, rfl, rfl, rfl, rfl, rfl, rfl⟩

/-- The end of a ready turn slot whose exchange was not MATCHED and whose record keeps its turn, with no message and no
retune: what it counted is all. -/
theorem State.endsExchange.kept {s : State} {k : Fin 32} {x : Exchange} {soft : Option SoftFault} {mismatches : Nat}
    (h : s.endsExchange k x) (message : x.poll.message = none) (retune : x.poll.retune = none)
    (missed : s.missedBy x soft mismatches) (keeps : (s.record x.record).keepsTurn s.params x.role) :
    exec .slotEnd s = .next (s.missJudged x).turnLeft := by
  have execd := h.slotEnds
  obtain ⟨_, _, _, _, _, _, light, _, release, _⟩ := h
  obtain ⟨counted, outcome⟩ := missed.touches light
  have params : (s.missJudged x).params = s.params := counted.params.trans (s.countWindow_params _)
  obtain ⟨lapse, grant⟩ := keeps.stays (i := x.record) counted.record params rfl id rfl rfl
  rw [execd, State.judgeExchange_missed release outcome, State.missedExchange_kept message retune lapse grant]
  rfl

theorem State.lapseDue_hard {s : State} {i : Fin 48} (h : (s.record i).hard ≠ none) :
    s.lapseDue i = false ∧ s.grantLapseDue i = false := by
  rw [← Bool.not_eq_true (s.lapseDue i), State.lapseDue_iff, ← Bool.not_eq_true (s.grantLapseDue i), State.grantLapseDue_iff]
  exact ⟨fun e => h e.2.1, fun e => h e.2.1⟩

/-- The eighth mismatch of an exchange, with no message and no retune. -/
theorem State.endsExchange.eighth {s : State} {k : Fin 32} {x : Exchange} {u : UpFrame} {a : Answer} (h : s.endsExchange k x)
    (message : x.poll.message = none) (retune : x.poll.retune = none) (up : s.air.up = some u)
    (good : decodeAnswer u.bytes = some a) (other : a.carId ≠ x.poll.carId ∨ a.tag ≠ x.poll.tag)
    (seven : (s.record x.record).mismatchCount = 7) :
    ∃ v j : State, exec .slotEnd s = .next j.turnLeft ∧
      (s.countWindow (s.air.judge decodeAnswer)).touches v x.record
        { (s.record x.record).counted s.params x.role with mismatchCount := 8, soft := some .mismatch } [.softFault] ∧
      v.identityTaken j x.record := by
  have execd := h.slotEnds
  obtain ⟨_, _, _, _, _, _, light, _, release, _⟩ := h
  have counted := (s.countWindow (s.air.judge decodeAnswer)).countMiss_touches x.record x.role
  rw [State.countWindow_record, State.countWindow_params] at counted
  obtain ⟨v, mismatched, taken⟩ := State.countMismatch_eighth (i := x.record)
    (s := (s.countWindow (s.air.judge decodeAnswer)).countMiss x.record (x.role != .lent)) (by rw [counted.record]; exact seven)
  rw [counted.record] at mismatched
  have outcome : x.poll.outcome (s.air.judge decodeAnswer) = .mismatched := by
    rw [Air.judge_good light up good, Poll.outcome_mismatched other]
  obtain ⟨lapse, grant⟩ := State.lapseDue_hard (i := x.record)
    (s := ((s.countWindow (s.air.judge decodeAnswer)).countMiss x.record (x.role != .lent)).countMismatch x.record)
    (by rw [taken.record]; exact Option.some_ne_none _)
  refine ⟨v, _, ?_, counted.trans mismatched, taken⟩
  rw [execd, outcome, State.judgeExchange_missed release (.inr (.inr rfl)), State.missedExchange_kept message retune]
  · rfl
  · exact Bool.and_eq_false_iff.2 (.inr lapse)
  · exact Bool.and_eq_false_iff.2 (.inr grant)

/-- The end of a slot other than slot 31 in which nothing was judged but, perhaps, a garbled hail. -/
theorem State.unjudged {s : State} {k : Fin 32} {garbled : Bool}
    (kind : k.val = 1 ∨ (3 ≤ k.val ∧ k.val ≤ 30 ∧ s.air.exchange = none))
    (silent : garbled = false → k.val ≠ 1 ∨ s.air.light ≠ .ready ∨ s.air.up = none)
    (bad : garbled = true → k.val = 1 ∧ s.air.light = .ready ∧ ∃ u, s.air.up = some u ∧ decodeHail u.bytes = none) :
    s.endNotice k.val = if garbled then s.countGarbled else s := by
  obtain one | ⟨low, _, idle⟩ := kind
  · rw [one]
    show s.endEntry 1 = _
    unfold State.endEntry
    rw [if_neg (by decide)]
    cases garbled with
    | false =>
        by_cases light : s.air.light = .ready
        · have up : s.air.up = none := ((silent rfl).resolve_left (fun e => e one)).resolve_left (fun e => e light)
          rw [Air.judge_absent light up]
          rfl
        · rw [Air.judge_dark light]
          rfl
    | true =>
        obtain ⟨_, light, u, up, none⟩ := bad rfl
        rw [Air.judge_garbled light up none]
        rfl
  · rw [State.endNotice_turn _ low, State.endTurn_none idle]
    cases garbled with
    | false => rfl
    | true => exact absurd (bad rfl).1 (by omega)

/-- Settles O32: the counts of every turn slot by what its work is blind to; the record by the counts of a miss. -/
theorem exchangesWithoutAMatchAreCounted : Obligations.ExchangesWithoutAMatchAreCounted := by
  unfold Obligations.ExchangesWithoutAMatchAreCounted
  refine ⟨?_, ?_, ?_, ?_, ?_, ?_⟩
  · intro s k w begun x hr hp hs low high hw light hx release unheld
    have dark := s.countDarkEnd_frame
    obtain ⟨counted, classes⟩ := s.countDarkEnd_counted
    have judged : s.countDarkEnd.judged x k.val = s.countDarkEnd := by
      unfold State.judged
      have shade : s.countDarkEnd.air.light ≠ .ready := by rw [dark, light]; nofun
      rw [Air.judge_dark shade]
      unfold State.judgeExchange
      rw [release]
      rfl
    refine ⟨_, exec_slotEnd_turn hr hp hs low high (by rw [hw]; exact Option.some_ne_none w) hx unheld, ?_⟩
    rw [judged]
    have left := s.countDarkEnd.turnLeft_frame
    refine ⟨counted.congr (by rw [left]) (by simp), fun c hc => by rw [State.turnLeft_classFlags, classes c hc], ?_, by simp, ?_,
      ?_, ?_, ?_, ?_, ?_⟩
    · rw [State.turnLeft_garbledRun, dark]
    · rw [State.turnLeft_roster, dark]
      exact congrArg (fun l => { s.roster with held := l }) unheld.symm
    · rw [State.turnLeft_cells, dark]
    · rw [State.turnLeft_pool, dark]
    · rw [State.turnLeft_ports, dark]
    · rw [State.turnLeft_inbound, dark]
    · rw [State.turnLeft_host, dark]
  · intro s k w x garbled hr hp hs low high hw light hx release message retune role unheld contact keeps absent bad
    have ends : s.endsExchange k x := ⟨hr, hp, hs, low, high, by rw [hw]; exact Option.some_ne_none w, light, hx, release, unheld⟩
    have own : x.role ≠ .lent := by rw [role]; decide
    have missed : s.missedBy x (if garbled then some .garbled else (s.record x.record).soft) (s.record x.record).mismatchCount := by
      cases garbled with
      | false => exact .inl ⟨absent rfl, rfl, rfl⟩
      | true =>
          obtain ⟨u, up, none⟩ := bad rfl
          exact .inr (.inl ⟨u, up, none, by rw [if_neg own]; rfl, rfl⟩)
    have execd := ends.kept message retune missed (by rw [role]; exact keeps)
    obtain ⟨check, run, frames⟩ := (ends.windowCounted execd).garbled light absent bad
    obtain ⟨counted, _⟩ := missed.touches light
    have told := counted.tells
    rw [role] at counted
    obtain ⟨cells, pool, ports, inbound, params, _⟩ := s.countWindow_kept (s.air.judge decodeAnswer)
    refine ⟨_, execd, ?_, fun bad' => ?_, check, fun c hc => ?_, fun j e => ?_, run, frames, ?_, ?_, ?_, ?_, ?_⟩
    · rw [State.turnLeft_record, counted.record]
      rfl
    · obtain ⟨u, up, none⟩ := bad bad'
      have ownTurn : (x.role != .lent) = true := bne_iff_ne.2 own
      have said := (told.before params (s.countWindow_attention _)).after (congrArg HostPort.attention (State.turnLeft_host _))
      rw [Air.judge_garbled light up none, ownTurn] at said
      exact State.tells.told (earlier := []) (later := []) said (fun _ mem => absurd mem List.not_mem_nil)
    · rw [State.turnLeft_classFlags, counted.classes c List.not_mem_nil]
      exact s.countWindow_classesIf light absent c hc
    · rw [State.turnLeft_record, counted.others j e, State.countWindow_record]
    · rw [State.turnLeft_cells, counted.cells, cells]
    · rw [State.turnLeft_pool, counted.pool, pool]
    · rw [State.turnLeft_ports, counted.ports, ports]
    · rw [State.turnLeft_inbound, counted.inbound, inbound]
    · rw [State.turnLeft_params, counted.params, params]
  · intro s k x u a r counted ends message retune up good other record contact whole
    subst record whole
    have light : s.air.light = .ready := ends.2.2.2.2.2.2.1
    obtain ⟨cells, pool, ports, inbound, params, _, grants, _⟩ := s.countWindow_kept (s.air.judge decodeAnswer)
    have attention := s.countWindow_attention (s.air.judge decodeAnswer)
    have windowClasses := s.countWindow_classes (s.air.judge decodeAnswer)
    refine ⟨fun few keeps => ?_, fun seven => ?_⟩
    · have missed : s.missedBy x (some .mismatch) ((s.record x.record).mismatchCount + 1) :=
        .inr (.inr ⟨u, a, up, good, other, rfl, rfl, by omega⟩)
      have execd := ends.kept message retune missed keeps
      obtain ⟨check, run⟩ := (ends.windowCounted execd).good light up good
      obtain ⟨counted, _⟩ := missed.touches light
      have told := counted.tells
      refine ⟨_, execd, ?_, ?_, check, fun c hc => ?_, fun j e => ?_, run, ?_, ?_, ?_, ?_⟩
      · rw [State.turnLeft_record, counted.record]
        rfl
      · have said := (told.before params attention).after (congrArg HostPort.attention (State.turnLeft_host _))
        rw [Air.judge_good light up good, Poll.outcome_mismatched other] at said
        exact State.tells.told (earlier := []) (later := []) said (fun _ mem => absurd mem List.not_mem_nil)
      · rw [State.turnLeft_classFlags, counted.classes c List.not_mem_nil, windowClasses c hc]
      · rw [State.turnLeft_record, counted.others j e, State.countWindow_record]
      · rw [State.turnLeft_cells, counted.cells, cells]
      · rw [State.turnLeft_pool, counted.pool, pool]
      · rw [State.turnLeft_ports, counted.ports, ports]
      · rw [State.turnLeft_inbound, counted.inbound, inbound]
    · obtain ⟨v, j, execd, counted, taken⟩ := ends.eighth message retune up good other seven
      obtain ⟨check, run⟩ := (ends.windowCounted execd).good light up good
      have frame := taken.frame
      have told := (counted.tells.trans taken.tells counted.params).before params attention
      have said := told.after (congrArg HostPort.attention (State.turnLeft_host _))
      have vFlags (c : ConditionClass) : v.classFlags c = (s.countWindow (s.air.judge decodeAnswer)).classFlags c :=
        counted.classes c List.not_mem_nil
      refine ⟨_, execd, ?_, ?_, ?_, ?_, check, fun c hc => ?_, fun n e => ?_, run, ?_, ?_, ?_, ?_, ?_⟩
      · rw [State.turnLeft_record, taken.record, counted.record, seven]
        rfl
      · exact State.tells.told (earlier := []) (later := [.hardFault]) said fun r mem => by
          rw [List.mem_singleton.1 mem]
          exact .inr (by decide)
      · exact State.tells.told (earlier := [.softFault]) (later := []) said (fun _ mem => absurd mem List.not_mem_nil)
      · have reported := taken.reported
        unfold State.classReported at reported ⊢
        rw [State.turnLeft_classFlags]
        rw [vFlags, windowClasses .identity (by decide)] at reported
        exact reported
      · simp only [List.mem_cons, List.not_mem_nil, or_false, not_or] at hc
        obtain ⟨notCheck, notIdentity⟩ := hc
        rw [State.turnLeft_classFlags, taken.classes c (by simpa using notIdentity), vFlags,
          windowClasses c (by simpa using notCheck)]
      · rw [State.turnLeft_record, taken.others n e, counted.others n e, State.countWindow_record]
      · rw [State.turnLeft_grants, frame]
        exact (congrArg Air.grants counted.air).trans grants
      · rw [State.turnLeft_cells, frame]
        exact counted.cells.trans cells
      · rw [State.turnLeft_pool, frame]
        exact counted.pool.trans pool
      · rw [State.turnLeft_ports, frame]
        exact counted.ports.trans ports
      · rw [State.turnLeft_inbound, frame]
        exact counted.inbound.trans inbound
  · intro s k x garbled ends role message retune absent bad
    have light : s.air.light = .ready := ends.2.2.2.2.2.2.1
    have missed : s.missedBy x (s.record x.record).soft (s.record x.record).mismatchCount := by
      cases garbled with
      | false => exact .inl ⟨absent rfl, rfl, rfl⟩
      | true =>
          obtain ⟨u, up, none⟩ := bad rfl
          exact .inr (.inl ⟨u, up, none, by rw [if_pos role], rfl⟩)
    have execd := ends.kept message retune missed (.inl role)
    obtain ⟨check, run, frames⟩ := (ends.windowCounted execd).garbled light absent bad
    have judged : s.missJudged x = s.countWindow (s.air.judge decodeAnswer) := by
      unfold State.missJudged
      rw [role]
      cases garbled with
      | false => rw [Air.judge_absent light (absent rfl)]; rfl
      | true =>
          obtain ⟨u, up, none⟩ := bad rfl
          rw [Air.judge_garbled light up none]
          rfl
    rw [judged] at execd check run frames
    obtain ⟨cells, pool, ports, inbound, params, roster, _⟩ := s.countWindow_kept (s.air.judge decodeAnswer)
    refine ⟨_, execd, ?_, ?_, ?_, ?_, ?_, ?_, check, fun c hc => ?_, run, frames⟩
    · rw [State.turnLeft_roster, roster]
      exact congrArg (fun l => { s.roster with held := l }) ends.2.2.2.2.2.2.2.2.2.symm
    · rw [State.turnLeft_cells, cells]
    · rw [State.turnLeft_pool, pool]
    · rw [State.turnLeft_ports, ports]
    · rw [State.turnLeft_inbound, inbound]
    · rw [State.turnLeft_host, State.countWindow_attention]
    · rw [State.turnLeft_classFlags]
      exact s.countWindow_classesIf light absent c hc
  · intro s k garbled hr hp hs hw kind silent bad
    obtain ⟨w, working⟩ := Option.ne_none_iff_exists'.1 hw
    have dark := s.countDarkEnd_frame
    obtain ⟨counted, classes⟩ := s.countDarkEnd_counted
    have notice := State.unjudged (s := s.countDarkEnd) (k := k) (garbled := garbled) (by rw [dark]; exact kind)
      (by rw [dark]; exact silent) (by rw [dark]; exact bad)
    have early : k.val ≠ 31 := by omega
    have host : s.countDarkEnd.host = s.host := by rw [dark]
    refine ⟨_, exec_slotEnd hr hp hs working, ?_⟩
    rw [s.finishSlot_early early, notice, State.applyHalt_frame]
    obtain ⟨v, noticed⟩ : ∃ v : State, v = if garbled then s.countDarkEnd.countGarbled else s.countDarkEnd := ⟨_, rfl⟩
    have frame : v = { s with
        air := { s.air with darkCount := s.countDarkEnd.air.darkCount }, conditions := s.countDarkEnd.conditions,
        host := { s.host with garbledFrames := if garbled then
            (if s.host.garbledFrames < 65535 then s.host.garbledFrames + 1 else s.host.garbledFrames)
          else s.host.garbledFrames } } := by
      rw [noticed]
      cases garbled with
      | false => exact dark
      | true =>
          rw [if_pos rfl, if_pos rfl]
          unfold State.countGarbled satAdd
          rw [host, dark]
          rfl
    have flags (c : ConditionClass) : v.classFlags c = s.countDarkEnd.classFlags c := State.classFlags_congr (by rw [frame]) c
    rw [← noticed]
    refine ⟨by rw [frame]; rfl, counted.congr (by rw [frame]; rfl) (flags _), fun c hc => (flags c).trans (classes c hc), ?_⟩
    have free (pending : s.sweep.haltPending = false) : v.applyHalt.sweep = s.sweep := by
      have same : v.sweep = s.sweep := by rw [frame]
      rw [State.haltFree.applyHalt (.of_false (same ▸ pending)), same]
    refine ⟨?_, ?_, rfl, ?_, ?_, ?_, ?_, ?_, ?_, ?_, ?_, ?_, free⟩
    · rw [frame]
      rfl
    · rw [frame]
      exact hs
    all_goals
      rw [frame]
      rfl
  · intro s k x hr hp hs low hw hx
    obtain ⟨w, working⟩ := Option.ne_none_iff_exists'.1 hw
    exact ⟨_, exec_slotEnd hr hp hs working, State.finishSlot_windowCounted hx low⟩

end Sys2Proof.Machine

/-! A matched exchange -/

namespace Sys2Proof.Machine

/-! ## A MATCHED exchange (R75 to R77, R95 to R98, R158) -/

/-- `t` is `s` after record `i` became `r` and reasons were offered for it, but for the sweep and the counts of the roster. -/
structure State.meets (s t : State) (i : Fin 48) (r : Record) (reasons : List Reason) : Prop where
  record : t.record i = r
  others : ∀ j, j ≠ i → t.record j = s.record j
  tells : s.tells t i reasons
  cells : t.cells = s.cells
  pool : t.pool = s.pool
  ports : t.ports = s.ports
  inbound : t.inbound = s.inbound
  params : t.params = s.params
  conditions : t.conditions = s.conditions
  air : t.air = s.air

section
variable {s t u : State} {i : Fin 48} {r q : Record} {l m : List Reason}

theorem State.touches.meets (h : s.touches t i r l) : s.meets t i r l :=
  ⟨h.record, h.others, h.tells, h.cells, h.pool, h.ports, h.inbound, h.params, h.conditions, h.air⟩

theorem State.meets.trans (h : s.meets t i r l) (k : t.meets u i q m) : s.meets u i q (l ++ m) where
  record := k.record
  others j e := (k.others j e).trans (h.others j e)
  tells := h.tells.trans k.tells h.params
  cells := k.cells.trans h.cells
  pool := k.pool.trans h.pool
  ports := k.ports.trans h.ports
  inbound := k.inbound.trans h.inbound
  params := k.params.trans h.params
  conditions := k.conditions.trans h.conditions
  air := k.air.trans h.air

theorem State.meets.of_eq (h : s.meets t i r l) (record : r = q) (reasons : l = m) : s.meets t i q m :=
  record ▸ reasons ▸ h

theorem State.meets.classes (h : s.meets t i r l) (c : ConditionClass) : t.classFlags c = s.classFlags c :=
  State.classFlags_congr h.conditions c

end

/-- A summons ended, with its reason if there was one. -/
theorem State.endSummon_meets (s : State) (i : Fin 48) (o : SummonOutcome) :
    s.meets (s.endSummon i o) i { s.record i with summoned := false } (if (s.record i).summoned then [.summonEnded o] else []) := by
  have tells := s.endSummon_tells i o
  unfold State.endSummon at tells ⊢
  cases summoned : (s.record i).summoned with
  | false =>
      have same : { s.record i with summoned := false } = s.record i := by rw [← summoned]
      rw [same]
      exact (State.touches.refl s i).meets
  | true =>
      rw [summoned] at tells
      have modified := State.touches_modifyRecord { s with roster := { s.roster with summonCount := s.roster.summonCount - 1 } } i
        fun r => { r with summoned := false }
      have told := (modified.trans (State.touches_offerReason _ i (.summonEnded o))).of_eq modified.record rfl
      have whole := told.meets
      exact ⟨whole.record, whole.others, tells, whole.cells, whole.pool, whole.ports, whole.inbound, whole.params,
        whole.conditions, whole.air⟩

/-- A record in contact (R77). -/
def Record.inContact (r : Record) : Record :=
  if r.contact = .granted then { r with contact := .present, summoned := false } else r

/-- The reasons of contact. -/
def contactReasons (r : Record) : List Reason :=
  if r.contact = .granted then .contact :: (if r.summoned then [.summonEnded .contact] else []) else []

theorem State.makeContact_meets (s : State) (i : Fin 48) :
    s.meets (s.makeContact i) i (s.record i).inContact (contactReasons (s.record i)) := by
  unfold State.makeContact Record.inContact contactReasons
  by_cases granted : (s.record i).contact = .granted
  · rw [if_pos granted, if_pos granted, if_pos (beq_iff_eq.2 granted)]
    have modified := s.touches_modifyRecord i fun r => { r with contact := .present }
    have told := (modified.trans (State.touches_offerReason _ i .contact)).meets
    have whole := told.trans (State.endSummon_meets _ i .contact)
    rw [told.record, modified.record] at whole
    exact whole
  · rw [if_neg granted, if_neg granted, if_neg (by simpa using granted)]
    exact (State.touches.refl s i).meets

/-- The reasons of a reading. -/
def readingReasons (r : Record) (p : Params) (level : Nat) : List Reason :=
  if (r.withReading p level).fading && !r.fading then [.fading] else []

theorem State.applyReading_touches (s : State) (i : Fin 48) (level : Nat) :
    s.touches (s.applyReading i level) i ((s.record i).withReading s.params level)
      (readingReasons (s.record i) s.params level) := by
  have modified := s.touches_modifyRecord i fun r => r.withReading s.params level
  unfold State.applyReading readingReasons
  dsimp only
  rw [modified.record]
  split
  · exact (modified.trans (State.touches_offerReason _ i .fading)).of_eq modified.record rfl
  · exact modified

/-- A record whose exchange was MATCHED, before its message and its sweep mark. -/
def Record.met (r : Record) (p : Params) (level : Nat) : Record :=
  ({ r with missCount := 0, mismatchCount := 0, grantMisses := 0 } : Record).inContact.withReading p level

/-- The reasons of a MATCHED exchange, before its message. -/
def metReasons (r : Record) (p : Params) (level : Nat) : List Reason :=
  contactReasons r ++
    readingReasons (({ r with missCount := 0, mismatchCount := 0, grantMisses := 0 } : Record).inContact) p level

/-- A MATCHED exchange up to the acknowledgement of its message. -/
def State.contacted (s : State) (i : Fin 48) (level : Nat) : State := ((s.clearMisses i).makeContact i).applyReading i level

theorem State.contacted_meets (s : State) (i : Fin 48) (level : Nat) :
    s.meets (s.contacted i level) i ((s.record i).met s.params level) (metReasons (s.record i) s.params level) := by
  have cleared := (s.touches_modifyRecord i fun r => { r with missCount := 0, mismatchCount := 0, grantMisses := 0 }).meets
  have contact := cleared.trans (State.makeContact_meets _ i)
  rw [cleared.record] at contact
  have whole := contact.trans (State.applyReading_touches _ i level).meets
  rw [contact.record, contact.params] at whole
  exact whole

theorem State.makeContact_sweep (s : State) (i : Fin 48) : (s.makeContact i).sweep = s.sweep := by
  unfold State.makeContact
  split
  · rw [State.endSummon_sweep, State.offerReason_sweep]
    rfl
  · rfl

theorem State.contacted_sweep (s : State) (i : Fin 48) (level : Nat) : (s.contacted i level).sweep = s.sweep :=
  (State.applyReading_touches _ i level).sweep.trans (State.makeContact_sweep _ i)

/-- A MATCHED record credited to a sweep that is RUNNING (R158). -/
theorem State.creditSweep_meets (s : State) (i : Fin 48) :
    s.meets (s.creditSweep i) i
      { s.record i with mark := if s.sweep.state = .running ∧ (s.record i).mark = .marked then .answered else (s.record i).mark }
      [] := by
  unfold State.creditSweep
  by_cases credited : s.sweep.state = .running ∧ (s.record i).mark = .marked
  · have test : (s.sweep.state == .running && (s.record i).mark == .marked) = true := by
      rw [credited.1, credited.2]
      rfl
    rw [if_pos credited, if_pos test]
    have modified := State.touches_modifyRecord { s with sweep := { s.sweep with answered := s.sweep.answered + 1 } } i
      fun r => { r with mark := .answered }
    generalize State.modifyRecord { s with sweep := { s.sweep with answered := s.sweep.answered + 1 } } i
      (fun r => { r with mark := .answered }) = w at modified ⊢
    have ended : w.endIfAccounted = { w with
        sweep := w.endIfAccounted.sweep
        host := { w.host with sweepEnded := w.endIfAccounted.host.sweepEnded } } := by
      unfold State.endIfAccounted
      split <;> rfl
    rw [ended]
    obtain ⟨record, others, tells, cells, pool, ports, inbound, params, conditions, air⟩ := modified.meets
    exact ⟨record, others, tells, cells, pool, ports, inbound, params, conditions, air⟩
  · have test : ¬ (s.sweep.state == .running && (s.record i).mark == .marked) = true := by
      simpa [Bool.and_eq_true] using credited
    rw [if_neg credited, if_neg test]
    exact (State.touches.refl s i).meets

end Sys2Proof.Machine

/-! A matched answer makes contact -/

namespace Sys2Proof.Machine

/-! ## A MATCHED answer makes contact (R75 to R77, R96 to R98) -/

/-- FADING after a reading that brings S to a level (R98). -/
def Record.fades (r : Record) (p : Params) (level : Nat) : Bool :=
  if level < p.lo then r.fading || decide (p.fadeCount ≤ satAdd 15 r.lowCount)
  else if level < p.hi then r.fading else false

theorem Record.withReading_eq (r : Record) (p : Params) (reading : Nat) :
    r.withReading p reading =
      { r with
        level := smoothed r.level reading,
        lowCount := if smoothed r.level reading < p.lo then satAdd 15 r.lowCount else 0,
        fading := r.fades p (smoothed r.level reading) } := by
  unfold Record.withReading Record.fades
  dsimp only
  by_cases low : smoothed r.level reading < p.lo
  · rw [if_pos low, if_pos low, if_pos low]
  · rw [if_neg low, if_neg low, if_neg low]
    by_cases middle : smoothed r.level reading < p.hi
    · rw [if_pos middle, if_pos middle]
    · rw [if_neg middle, if_neg middle]

/-- A record in contact after a MATCHED exchange. -/
theorem Record.met_eq {r : Record} (h : r.contact = .present ∨ r.contact = .granted) (p : Params) (reading : Nat) :
    r.met p reading =
      { r with
        missCount := 0, mismatchCount := 0, grantMisses := 0, contact := .present,
        summoned := if r.contact = .granted then false else r.summoned,
        level := smoothed r.level reading,
        lowCount := if smoothed r.level reading < p.lo then satAdd 15 r.lowCount else 0,
        fading := r.fades p (smoothed r.level reading) } := by
  unfold Record.met
  rw [Record.withReading_eq]
  unfold Record.inContact
  dsimp only
  rcases h with present | granted
  · have other : r.contact ≠ .granted := by rw [present]; decide
    rw [if_neg other, if_neg other, ← present]
    rfl
  · rw [if_pos granted, if_pos granted]
    rfl

theorem State.endsExchange.light {s : State} {k : Fin 32} {x : Exchange} (h : s.endsExchange k x) : s.air.light = .ready := by
  obtain ⟨_, _, _, _, _, _, light, _⟩ := h
  exact light

theorem State.endsExchange.release {s : State} {k : Fin 32} {x : Exchange} (h : s.endsExchange k x) : x.poll.release = false := by
  obtain ⟨_, _, _, _, _, _, _, _, release, _⟩ := h
  exact release

/-- The end of a ready turn slot whose exchange was MATCHED. -/
theorem State.endsExchange.matched {s : State} {k : Fin 32} {x : Exchange} {a : Answer} {level : Nat} (h : s.endsExchange k x)
    (matched : s.matchedBy x a level) :
    exec .slotEnd s = .next ((s.setGarbledRun 0).matchedExchange x.record x.poll a level k.val).turnLeft := by
  obtain ⟨u, up, good, car, tag, rfl⟩ := matched
  have judged := Air.judge_good h.light up good
  rw [h.slotEnds, judged, Poll.outcome_matched car tag]
  unfold State.judgeExchange
  rw [h.release]
  rfl

/-- A MATCHED exchange with no message either way. -/
theorem State.answered_plain (s : State) (i : Fin 48) {poll : Poll} {a : Answer} (level : Nat) (message : poll.message = none)
    (answer : a.message = none) : s.answered i poll a level = (s.contacted i level).creditSweep i := by
  unfold State.answered State.judgeAck State.takeAnswerMessage
  rw [message, answer]
  rfl

theorem State.retuned_plain (s : State) (i : Fin 48) {poll : Poll} (a : Answer) (level : Nat) (retune : poll.retune = none) :
    s.retuned i poll a level = s.answered i poll a level := by
  unfold State.retuned
  rw [retune]
  rfl

theorem State.matchedExchange_still (s : State) (i : Fin 48) (poll : Poll) {a : Answer} (level slot : Nat) (more : a.more = false) :
    s.matchedExchange i poll a level slot = s.retuned i poll a level := by
  rw [State.matchedExchange_eq, more]
  rfl

/-- The mark of a record credited to a sweep that is RUNNING. -/
def creditedMark (w : Sweep) (r : Record) : SweepMark := if w.state = .running ∧ r.mark = .marked then .answered else r.mark

/-- A MATCHED exchange with no message either way, but for its retune and its loan. -/
theorem State.answered_meets {s : State} {i : Fin 48} {poll : Poll} {a : Answer} (level : Nat) (message : poll.message = none)
    (answer : a.message = none) (contact : (s.record i).contact = .present ∨ (s.record i).contact = .granted) :
    s.meets (s.answered i poll a level) i
      { (s.record i).met s.params level with mark := creditedMark s.sweep (s.record i) } (metReasons (s.record i) s.params level) := by
  have met := s.contacted_meets i level
  have whole := met.trans (State.creditSweep_meets _ i)
  rw [met.record, State.contacted_sweep, List.append_nil] at whole
  rw [State.answered_plain s i level message answer]
  refine whole.of_eq ?_ rfl
  rw [Record.met_eq contact]
  rfl

theorem readingReasons_fading {r : Record} {p : Params} {level : Nat} {reason : Reason} (h : reason ∈ readingReasons r p level) :
    reason = .fading := by
  unfold readingReasons at h
  split at h
  · exact List.mem_singleton.1 h
  · exact absurd h List.not_mem_nil

/-- FADING that a MATCHED exchange sets from clear is told (R98). -/
theorem State.told_met_fading {s t : State} {i : Fin 48} {r : Record} {level : Nat}
    (fades : (r.met s.params level).fading = true) (before : r.fading = false)
    (tells : s.tells t i (metReasons r s.params level)) : s.told t i .fading := by
  have clear : (({ r with missCount := 0, mismatchCount := 0, grantMisses := 0 } : Record).inContact).fading = false := by
    unfold Record.inContact
    split <;> exact before
  have reading : readingReasons (({ r with missCount := 0, mismatchCount := 0, grantMisses := 0 } : Record).inContact) s.params level =
      [.fading] := by
    unfold readingReasons
    rw [clear]
    unfold Record.met at fades
    rw [fades]
    rfl
  unfold metReasons at tells
  rw [reading] at tells
  exact State.tells.told (later := []) tells (fun _ mem => absurd mem List.not_mem_nil)

/-- Contact is told (R77). -/
theorem State.told_met_contact {s t : State} {i : Fin 48} {r : Record} {level : Nat} (granted : r.contact = .granted)
    (tells : s.tells t i (metReasons r s.params level)) : s.told t i .contact := by
  unfold metReasons contactReasons at tells
  rw [if_pos granted] at tells
  refine State.tells.told (earlier := []) tells fun other mem => ?_
  rcases List.mem_append.1 mem with summon | reading
  · cases summoned : r.summoned with
    | false =>
        rw [summoned] at summon
        exact absurd summon List.not_mem_nil
    | true =>
        rw [summoned] at summon
        rw [List.mem_singleton.1 summon]
        exact .inr (by decide)
  · rw [readingReasons_fading reading]
    exact .inr (by decide)

/-- The summons of a record that comes into contact is told (R77, R90). -/
theorem State.told_met_summon {s t : State} {i : Fin 48} {r : Record} {level : Nat} (granted : r.contact = .granted)
    (summoned : r.summoned = true) (tells : s.tells t i (metReasons r s.params level)) : s.told t i (.summonEnded .contact) := by
  unfold metReasons contactReasons at tells
  rw [if_pos granted, if_pos summoned] at tells
  refine State.tells.told (earlier := [.contact]) tells fun other reading => ?_
  rw [readingReasons_fading reading]
  exact .inr (by decide)

/-- Settles O33: the record and its reasons step by step through the exchange; S by its arithmetic. -/
theorem aMatchedAnswerMakesContact : Obligations.AMatchedAnswerMakesContact := by
  unfold Obligations.AMatchedAnswerMakesContact
  refine ⟨?_, ?_, ?_, ?_, ?_, ?_, ?_⟩
  · intro s k w x u a hr hp hs low high hw light hx release message retune unheld up good car tag more answer contact
    have ends : s.endsExchange k x := ⟨hr, hp, hs, low, high, by rw [hw]; exact Option.some_ne_none w, light, hx, release, unheld⟩
    have execd := ends.matched ⟨u, up, good, car, tag, rfl⟩
    rw [State.matchedExchange_still _ _ _ _ _ more, State.retuned_plain _ _ _ _ retune] at execd
    obtain ⟨check, run⟩ := (ends.windowCounted execd).good light up good
    have meets := State.answered_meets (s := s.setGarbledRun 0) (i := x.record) u.level message answer contact
    have record : ((s.setGarbledRun 0).answered x.record x.poll a u.level).turnLeft.record x.record = _ :=
      (State.turnLeft_record _ _).trans meets.record
    have base : (s.setGarbledRun 0).record x.record = s.record x.record := rfl
    have params : (s.setGarbledRun 0).params = s.params := rfl
    have sweep : (s.setGarbledRun 0).sweep = s.sweep := rfl
    rw [base, params, sweep, Record.met_eq contact] at record
    have said := (meets.tells.before params rfl).after (congrArg HostPort.attention (State.turnLeft_host _))
    rw [base, params] at said
    refine ⟨_, _, execd, rfl, ?_⟩
    rw [record]
    refine ⟨rfl, rfl, rfl, rfl, rfl, rfl, fun low => ?_, fun fades before => ?_, fun lo hi => ?_, fun lo hi => ?_,
      fun granted => ⟨?_, ?_, fun summoned => ?_⟩, rfl, rfl, rfl, rfl, rfl, rfl, rfl, check, fun c hc => ?_, fun j e => ?_, run,
      ?_, ?_, ?_, ?_, ?_⟩
    · have below : smoothed (s.record x.record).level u.level < s.params.lo := low
      unfold Record.fades
      dsimp only
      rw [if_pos below, if_pos below]
    · exact State.told_met_fading (by rw [Record.met_eq contact]; exact fades) before said
    · have least : ¬ smoothed (s.record x.record).level u.level < s.params.lo := Nat.not_lt.2 lo
      have most : smoothed (s.record x.record).level u.level < s.params.hi := hi
      unfold Record.fades
      dsimp only
      rw [if_neg least, if_pos most]
    · have least : ¬ smoothed (s.record x.record).level u.level < s.params.lo := Nat.not_lt.2 lo
      have most : ¬ smoothed (s.record x.record).level u.level < s.params.hi := Nat.not_lt.2 hi
      unfold Record.fades
      dsimp only
      rw [if_neg least, if_neg most]
    · exact if_pos granted
    · exact State.told_met_contact granted said
    · exact State.told_met_summon granted summoned said
    · rw [State.turnLeft_classFlags, meets.classes c]
      exact (s.setGarbledRun_reported 0).2 c hc
    · rw [State.turnLeft_record, meets.others j e]
      rfl
    · rw [State.turnLeft_cells, meets.cells]
      rfl
    · rw [State.turnLeft_pool, meets.pool]
      rfl
    · rw [State.turnLeft_ports, meets.ports]
      rfl
    · rw [State.turnLeft_inbound, meets.inbound]
      rfl
    · rw [State.turnLeft_params, meets.params]
      rfl
  · intro r p l
    rw [Record.withReading_eq]
    rfl
  all_goals
    intro old l
    unfold smoothed
    omega

end Sys2Proof.Machine

/-! Loans, and retunes confirmed or tried -/

namespace Sys2Proof.Machine

/-! ## Loans and retunes follow the answer (R65, R70 to R72) -/

theorem State.loanSlot_some {s : State} {slot m : Nat} (later : slot < m) (high : m ≤ 31) (free : s.cell m s.phase = none)
    (first : ∀ j, slot < j → j < m → s.cell j s.phase ≠ none) : s.loanSlot slot = some m := by
  have range : (List.range (31 - slot)).find? (fun n => s.cellFree (slot + 1 + n) s.phase) = some (m - slot - 1) := by
    rw [List.find?_range_eq_some]
    refine ⟨?_, List.mem_range.2 (by omega), fun j hj => ?_⟩
    · have index : slot + 1 + (m - slot - 1) = m := by omega
      unfold State.cellFree
      rw [index, free]
      rfl
    · have held := first (slot + 1 + j) (by omega) (by omega)
      unfold State.cellFree
      rw [Option.not_isNone]
      exact Option.isSome_iff_ne_none.2 held
  unfold State.loanSlot slotsAfter
  rw [List.find?_map]
  show Option.map _ ((List.range (31 - slot)).find? fun n => s.cellFree (slot + 1 + n) s.phase) = _
  rw [range]
  have index : slot + 1 + (m - slot - 1) = m := by omega
  exact congrArg some index

theorem State.loanSlot_none {s : State} {slot : Nat} (full : ∀ m, slot < m → m ≤ 31 → s.cell m s.phase ≠ none) :
    s.loanSlot slot = none := by
  unfold State.loanSlot
  rw [List.find?_eq_none]
  intro m mem
  unfold slotsAfter at mem
  obtain ⟨n, hn, rfl⟩ := List.mem_map.1 mem
  have bound := List.mem_range.1 hn
  have held := full (slot + 1 + n) (by omega) (by omega)
  simpa [State.cellFree] using held

/-! ## A retune confirmed (R71) -/

/-- The cells that a confirmed retune frees. -/
def turnOf (i : Fin 48) (c : Option CellHolding) : Bool :=
  c == some { holder := i, role := .turn } || c == some { holder := i, role := .waiting }

theorem turnOf_eq (i : Fin 48) :
    (Option.any fun h : CellHolding => h.holder == i && (h.role == .turn || h.role == .waiting)) = turnOf i := by
  funext c
  cases c with
  | none => rfl
  | some h =>
      obtain ⟨holder, role⟩ := h
      rw [Bool.eq_iff_iff]
      simp [turnOf, and_or_left]

/-- The retune of record `i` confirmed. -/
structure State.retuneConfirmed (s t : State) (i : Fin 48) (c : RetuneContext) : Prop where
  record : t.record i = { s.record i with turn := some c.target, retune := none }
  others : ∀ j, j ≠ i → t.record j = s.record j
  tells : s.tells t i [.retuneEnded .done]
  cells : ∀ n : Fin 232, t.cells[n] = confirmedCell i s.cells[n]
  plan : s.planFreed t (turnOf i)
  classes : s.onlyClasses t [.planFull]
  pool : t.pool = s.pool
  ports : t.ports = s.ports

theorem State.confirmRetune_confirmed {s : State} {i : Fin 48} {c : RetuneContext} (h : (s.record i).retune = some c) :
    s.retuneConfirmed (s.confirmRetune i) i c := by
  have cells := State.confirmRetune_cell h
  have freed := (s.cellsFreed_freeCellsWhere fun h => h.holder == i && (h.role == .turn || h.role == .waiting)).of_eq (turnOf_eq i)
  unfold State.confirmRetune at cells ⊢
  rw [h] at cells ⊢
  dsimp only at cells ⊢
  obtain ⟨w, hw⟩ : ∃ w, w = s.freeCellsWhere fun h => h.holder == i && (h.role == .turn || h.role == .waiting) := ⟨_, rfl⟩
  rw [← hw] at cells freed ⊢
  have roster : w.roster = s.roster := by rw [hw, State.freeCellsWhere_roster]
  have host : w.host = s.host := by rw [hw, State.freeCellsWhere_host]
  have pool : w.pool = s.pool := by rw [hw, State.freeCellsWhere_pool]
  have ports : w.ports = s.ports := by rw [hw, State.freeCellsWhere_ports]
  have params : w.params = s.params := by rw [hw]; exact State.params_of_calm (State.freeCellsWhere_calm _ _)
  have modified := State.touches_modifyRecord ({ w with cells := w.cells.map fun x => x.map (CellHolding.confirmed i) } : State) i
    fun r => { r with turn := some c.target, retune := none }
  have told := (modified.trans (State.touches_offerReason _ i (.retuneEnded .done))).of_eq modified.record rfl
  have flags (cl : ConditionClass) := (told.classes cl List.not_mem_nil).trans
    (show ({ w with cells := w.cells.map fun x => x.map (CellHolding.confirmed i) } : State).classFlags cl = w.classFlags cl from rfl)
  have record (j : Fin 48) : ({ w with cells := w.cells.map fun x => x.map (CellHolding.confirmed i) } : State).record j =
    s.record j := State.record_congr roster j
  refine ⟨?_, fun j e => (told.others j e).trans (record j), told.tells.before params (congrArg HostPort.attention host), cells, ?_,
    fun cl hc => (flags cl).trans (freed.classes cl hc), told.pool.trans pool, told.ports.trans ports⟩
  · rw [told.record, record]
  · unfold State.planFreed State.causeEnded
    rw [flags]
    exact freed.plan

/-! ## The tries of a retune (R70, R72) -/

theorem State.tryRetune_again {s : State} {i : Fin 48} {c : RetuneContext} (h : (s.record i).retune = some c) (few : c.tries < 2) :
    s.touches (s.tryRetune i) i { s.record i with retune := some { c with tries := c.tries + 1 } } [] := by
  have sum : satAdd Config.retuneTries c.tries = c.tries + 1 := if_pos (show c.tries < 3 by omega)
  unfold State.tryRetune
  rw [h]
  dsimp only
  rw [sum, if_neg (show ¬ Config.retuneTries ≤ c.tries + 1 by unfold Config.retuneTries; omega)]
  exact s.touches_modifyRecord i _

/-- The retune of record `i` failed after its tries. -/
structure State.retuneFailed (s t : State) (i : Fin 48) : Prop where
  record : t.record i = { s.record i with retune := none, soft := some .retuneFailed }
  others : ∀ j, j ≠ i → t.record j = s.record j
  tells : s.tells t i [.softFault, .retuneEnded .failed]
  freed : s.cellsFreed t fun cell => cell == some { holder := i, role := .pending }
  pool : t.pool = s.pool
  ports : t.ports = s.ports

theorem State.failRetune_failed (s : State) (i : Fin 48) : s.retuneFailed (s.failRetune i) i := by
  have freed := s.cellsFreed_freeRoleOf i .pending
  have roster : (s.freeRoleOf i .pending).roster = s.roster := State.freeCellsWhere_roster _ _
  have host : (s.freeRoleOf i .pending).host = s.host := State.freeCellsWhere_host _ _
  have pool : (s.freeRoleOf i .pending).pool = s.pool := State.freeCellsWhere_pool _ _
  have ports : (s.freeRoleOf i .pending).ports = s.ports := State.freeCellsWhere_ports _ _
  have params : (s.freeRoleOf i .pending).params = s.params := State.params_of_calm (State.freeCellsWhere_calm _ _)
  unfold State.failRetune State.cancelRetune
  generalize s.freeRoleOf i .pending = w at *
  have modified := w.touches_modifyRecord i fun r => { r with retune := none }
  have faulted := modified.trans (State.touches_setSoft _ i .retuneFailed)
  rw [modified.record] at faulted
  have told := faulted.trans (State.touches_offerReason _ i (.retuneEnded .failed))
  rw [faulted.record] at told
  refine ⟨?_, fun j e => (told.others j e).trans (State.record_congr roster j),
    told.tells.before params (congrArg HostPort.attention host), ?_, told.pool.trans pool, told.ports.trans ports⟩
  · rw [told.record, State.record_congr roster]
  · exact freed.congr rfl rfl told.cells told.conditions

theorem State.tryRetune_last {s : State} {i : Fin 48} {c : RetuneContext} (h : (s.record i).retune = some c) (two : c.tries = 2) :
    s.retuneFailed (s.tryRetune i) i := by
  have sum : satAdd Config.retuneTries c.tries = 3 := by rw [two]; rfl
  unfold State.tryRetune
  rw [h]
  dsimp only
  rw [sum, if_pos (show Config.retuneTries ≤ 3 from Nat.le_refl 3)]
  have tried := s.touches_modifyRecord i fun r => { r with retune := some { c with tries := 3 } }
  generalize (s.modifyRecord i fun r => { r with retune := some { c with tries := 3 } }) = w at *
  obtain ⟨record, others, tells, freed, pool, ports⟩ := w.failRetune_failed i
  refine ⟨?_, fun j e => (others j e).trans (tried.others j e), tells.before tried.params tried.tells,
    freed.congr tried.cells.symm tried.conditions.symm rfl rfl, pool.trans tried.pool, ports.trans tried.ports⟩
  rw [record, tried.record]

/-- A PRESENT record's exchange that was not MATCHED, with a retune and no message, when the record keeps its turn. -/
theorem State.missedExchange_retune {s : State} {i : Fin 48} {own : Bool} {poll : Poll} {o : ExchangeOutcome}
    (message : poll.message = none) (retune : poll.retune ≠ none)
    (lapse : (own && ((s.countMiss i own).noteOutcome i own o).lapseDue i) = false)
    (grant : ((((s.countMiss i own).noteOutcome i own o).tryRetune i).record i).contact ≠ .granted) :
    s.missedExchange i own poll o = ((s.countMiss i own).noteOutcome i own o).tryRetune i := by
  have due : (((s.countMiss i own).noteOutcome i own o).tryRetune i).grantLapseDue i = false := by
    rw [← Bool.not_eq_true, State.grantLapseDue_iff]
    exact fun e => grant e.1
  obtain ⟨target, standing⟩ := Option.ne_none_iff_exists'.1 retune
  unfold State.missedExchange
  rw [message, standing]
  dsimp only [Option.isSome]
  rw [if_neg Bool.false_ne_true, if_neg (by rw [lapse]; decide), if_pos rfl, due, Bool.and_false]
  rfl

end Sys2Proof.Machine

/-! Loans and retunes at the end of a slot -/

namespace Sys2Proof.Machine

/-! ## Loans and retunes at the end of a slot (R65, R70 to R72) -/

theorem State.endsExchange.slots {s : State} {k : Fin 32} {x : Exchange} (h : s.endsExchange k x) : 3 ≤ k.val ∧ k.val ≤ 30 := by
  obtain ⟨_, _, _, low, high, _⟩ := h
  exact ⟨low, high⟩

theorem State.setGarbledRun_classes (s : State) : s.onlyClasses (s.setGarbledRun 0) [.airCheck] := (s.setGarbledRun_reported 0).2

/-- The pieces of a MATCHED record that a loan and a retune read. -/
theorem Record.met_plan {r : Record} (h : r.contact = .present ∨ r.contact = .granted) (p : Params) (level : Nat) :
    (r.met p level).contact = .present ∧ (r.met p level).hard = r.hard ∧ (r.met p level).extensions = r.extensions ∧
      (r.met p level).turn = r.turn ∧ (r.met p level).retune = r.retune ∧ (r.met p level).soft = r.soft ∧
      (r.met p level).missCount = 0 := by
  rw [Record.met_eq h]
  exact ⟨rfl, rfl, rfl, rfl, rfl, rfl, rfl⟩

/-- A miss in no grant counts no grant miss. -/
theorem Record.counted_present {r : Record} (h : r.contact ≠ .granted) (p : Params) (role : CellRole) :
    r.counted p role = { r with missCount := (r.missed p role).1 } := by
  unfold Record.counted Record.missed
  split
  · rfl
  · rw [if_neg (show ¬ (r.contact = .granted ∧ r.grantMisses < p.grantLimit) from fun e => h e.1)]

/-- Settles O36: the loan and the retune of a MATCHED exchange on what its answer made of the record, and the tries of a
retune on what a miss made of it. -/
theorem loansAndRetunesFollowTheAnswer : Obligations.LoansAndRetunesFollowTheAnswer := by
  unfold Obligations.LoansAndRetunesFollowTheAnswer
  refine ⟨?_, ?_, ?_⟩
  · intro s k x a level phase r ends message retune matched more answer hr contact hphase
    subst hr hphase
    obtain ⟨low, _⟩ := ends.slots
    have execd := ends.matched matched
    rw [State.matchedExchange_eq, more, if_pos rfl, State.retuned_plain _ _ _ _ retune] at execd
    have meets := State.answered_meets (s := s.setGarbledRun 0) (i := x.record) (poll := x.poll) level message answer contact
    obtain ⟨present, hard, extensions, turn, _⟩ := Record.met_plan contact (s.setGarbledRun 0).params level
    have cells : ((s.setGarbledRun 0).answered x.record x.poll a level).cells = s.cells := meets.cells
    have cellsRead (slot f : Nat) : ((s.setGarbledRun 0).answered x.record x.poll a level).cell slot f = s.cell slot f :=
      State.cell_congr cells slot f
    have phase : ((s.setGarbledRun 0).answered x.record x.poll a level).phase = s.air.cycle.toNat % 8 := by
      unfold State.phase
      rw [meets.air]
      rfl
    have record := meets.record
    have others := meets.others
    have classes := fun c hc => (meets.classes c).trans (s.setGarbledRun_classes c hc)
    have pool := meets.pool
    have ports := meets.ports
    generalize (s.setGarbledRun 0).answered x.record x.poll a level = w at *
    refine ⟨fun m sound few later high free first => ?_, fun refused => ?_⟩
    · have found : w.loanSlot k.val = some m := by
        refine State.loanSlot_some later high ?_ fun j lower upper => ?_
        · rw [cellsRead, phase]
          exact free
        · rw [cellsRead, phase]
          exact first j lower upper
      have lent := State.lend_granted (s := w) (i := x.record) (by rw [record]; exact present) (by rw [record]; exact hard.trans sound)
        (by rw [record]; exact extensions.trans_lt few) found
      rw [lent] at execd
      refine ⟨_, execd, ?_, ?_, ?_, fun slot f => ?_, fun c hc => ?_, fun j e => ?_, ?_, ?_⟩
      · rw [State.turnLeft_record, State.record_modifyRecord]
        show (w.record x.record).extensions + 1 = _
        rw [record]
        exact congrArg (· + 1) extensions
      · rw [State.turnLeft_record, State.record_modifyRecord]
        show (w.record x.record).contact = _
        rw [record]
        exact present
      · rw [State.turnLeft_record, State.record_modifyRecord]
        show (w.record x.record).turn = _
        rw [record]
        exact turn
      · rw [State.cell_congr (State.turnLeft_cells _)]
        show (w.giveCell m w.phase { holder := x.record, role := .lent }).cell slot f = _
        have short : w.phase < 8 := Nat.mod_lt _ (by decide)
        rw [State.giveCell_cell w _ (by omega) high short, cellsRead, phase]
      · rw [State.turnLeft_classFlags]
        exact classes c hc
      · rw [State.turnLeft_record, State.record_modifyRecord_ne _ _ e.symm]
        exact others j e
      · rw [State.turnLeft_pool]
        exact pool
      · rw [State.turnLeft_ports]
        exact ports
    · have same : w.lend x.record k.val = w := by
        refine State.lend_refused (.inr ?_)
        rw [record]
        obtain faulted | many | full := refused
        · exact .inl fun sound => faulted (hard.symm.trans sound)
        · exact .inr (.inl (many.trans_eq extensions.symm))
        · refine .inr (.inr (State.loanSlot_none fun m later high => ?_))
          rw [cellsRead, phase]
          exact full m later high
      rw [same] at execd
      refine ⟨_, execd, ?_, ?_, ?_, ?_, fun c hc => ?_, fun j e => ?_, ?_, ?_⟩
      · rw [State.turnLeft_record, record]
        exact extensions
      · rw [State.turnLeft_record, record]
        exact present
      · rw [State.turnLeft_record, record]
        exact turn
      · rw [State.turnLeft_cells, cells]
      · rw [State.turnLeft_classFlags]
        exact classes c hc
      · rw [State.turnLeft_record, others j e]
        rfl
      · rw [State.turnLeft_pool, pool]
        rfl
      · rw [State.turnLeft_ports, ports]
        rfl
  · intro s k x a level r c ends message retune matched more answer hr contact hc
    subst hr
    have execd := ends.matched matched
    rw [State.matchedExchange_still _ _ _ _ _ more, State.retuned, if_pos (Option.isSome_iff_ne_none.2 retune)] at execd
    have meets := State.answered_meets (s := s.setGarbledRun 0) (i := x.record) (poll := x.poll) level message answer contact
    obtain ⟨present, _, _, _, standing, soft, misses⟩ := Record.met_plan contact (s.setGarbledRun 0).params level
    have record := meets.record
    have others := meets.others
    have cells := meets.cells
    have params := meets.params
    have classes := fun c hc => (meets.classes c).trans (s.setGarbledRun_classes c hc)
    have pool := meets.pool
    have ports := meets.ports
    generalize (s.setGarbledRun 0).answered x.record x.poll a level = w at *
    have confirmed := State.confirmRetune_confirmed (s := w) (i := x.record) (c := c) (by
      rw [record]
      exact standing.trans hc)
    generalize w.confirmRetune x.record = v at *
    have cellsW (n : Fin 232) : w.cells[n] = s.cells[n] := by rw [cells]; rfl
    have said := State.tells.told (earlier := []) (later := []) confirmed.tells (fun _ mem => absurd mem List.not_mem_nil)
    obtain ⟨ending, keeping⟩ := confirmed.plan
    have plan : w.classFlags .planFull = s.classFlags .planFull := classes .planFull (by decide)
    simp only [cellsW, plan] at ending keeping
    refine ⟨_, execd, ?_, ?_, ?_, ?_, ?_, ?_, fun n => ?_, ?_, fun cl hcl => ?_, fun j e => ?_, ?_, ?_⟩
    · rw [State.turnLeft_record, confirmed.record]
    · rw [State.turnLeft_record, confirmed.record]
    · rw [State.turnLeft_record, confirmed.record, record]
      exact present
    · rw [State.turnLeft_record, confirmed.record, record]
      exact misses
    · rw [State.turnLeft_record, confirmed.record, record]
      exact soft
    · exact (said.of_params params).attention (congrArg HostPort.attention (State.turnLeft_host _))
    · rw [State.turnLeft_cells, confirmed.cells, cellsW]
      rfl
    · unfold State.planFreed State.causeEnded
      rw [State.turnLeft_classFlags]
      exact ⟨ending, keeping⟩
    · simp only [List.mem_cons, List.not_mem_nil, or_false, not_or] at hcl
      obtain ⟨notPlan, notCheck⟩ := hcl
      rw [State.turnLeft_classFlags, confirmed.classes cl (by simpa using notPlan)]
      exact classes cl (by simpa using notCheck)
    · rw [State.turnLeft_record, confirmed.others j e, others j e]
      rfl
    · rw [State.turnLeft_pool, confirmed.pool, pool]
      rfl
    · rw [State.turnLeft_ports, confirmed.ports, ports]
      rfl
  · intro s k x r counted c soft mismatches ends role message retune missed hr contact hc keeps whole
    subst hr whole
    have execd := ends.slotEnds
    obtain ⟨touched, outcome⟩ := missed.touches ends.light
    obtain ⟨cells, pool, ports, _, params, _⟩ := s.countWindow_kept (s.air.judge decodeAnswer)
    have attention := s.countWindow_attention (s.air.judge decodeAnswer)
    have windowClasses := s.countWindow_classes (s.air.judge decodeAnswer)
    have windowRecord (j : Fin 48) := s.countWindow_record (s.air.judge decodeAnswer) j
    have mParams := touched.params.trans params
    obtain ⟨lapse, _⟩ := keeps.stays (i := x.record) touched.record mParams rfl id rfl rfl
    have standing : ((s.missJudged x).record x.record).retune = some c := by rw [touched.record]; exact hc
    have missExec (grant : (((s.missJudged x).tryRetune x.record).record x.record).contact ≠ .granted) :
        exec .slotEnd s = .next ((s.missJudged x).tryRetune x.record).turnLeft := by
      rw [execd, State.judgeExchange_missed ends.release outcome, State.missedExchange_retune message retune lapse grant]
      rfl
    have mCells := touched.cells.trans cells
    have mPool := touched.pool.trans pool
    have mPorts := touched.ports.trans ports
    have mClasses : s.onlyClasses (s.missJudged x) [.airCheck] := fun cl hcl =>
      (touched.classes cl List.not_mem_nil).trans (windowClasses cl hcl)
    have mOthers (j : Fin 48) (e : j ≠ x.record) : (s.missJudged x).record j = s.record j :=
      (touched.others j e).trans (windowRecord j)
    have record := touched.record
    generalize s.missJudged x = w at *
    have notGranted : (s.record x.record).contact ≠ .granted := by rw [contact]; decide
    refine ⟨fun few => ?_, fun two => ?_⟩
    · have tried := State.tryRetune_again standing few
      refine ⟨_, missExec ?_, ?_, ?_, fun cl hcl => ?_, fun j e => ?_, ?_, ?_⟩
      · rw [tried.record, record]
        exact notGranted
      · rw [State.turnLeft_record, tried.record, record, Record.counted_present notGranted]
      · rw [State.turnLeft_cells, tried.cells, mCells]
      · rw [State.turnLeft_classFlags, tried.classes cl List.not_mem_nil]
        exact mClasses cl hcl
      · rw [State.turnLeft_record, tried.others j e, mOthers j e]
      · rw [State.turnLeft_pool, tried.pool, mPool]
      · rw [State.turnLeft_ports, tried.ports, mPorts]
    · have failed := State.tryRetune_last standing two
      have plan : w.classFlags .planFull = s.classFlags .planFull := mClasses .planFull (by decide)
      obtain ⟨freedCells, ⟨ending, keeping⟩, freedClasses⟩ := failed.freed
      simp only [mCells, plan] at ending keeping freedCells
      have said (reason : Reason) (h : w.told (w.tryRetune x.record) x.record reason) :
          s.told (w.tryRetune x.record).turnLeft x.record reason :=
        (h.of_params mParams).attention (congrArg HostPort.attention (State.turnLeft_host _))
      refine ⟨_, missExec ?_, ?_, fun n => ?_, ?_, fun cl hcl => ?_, said _ ?_, said _ ?_, fun j e => ?_, ?_, ?_⟩
      · rw [failed.record, record]
        exact notGranted
      · rw [State.turnLeft_record, failed.record, record, Record.counted_present notGranted]
      · rw [State.turnLeft_cells, freedCells]
        simp only [beq_iff_eq]
      · unfold State.planFreed State.causeEnded
        rw [State.turnLeft_classFlags]
        exact ⟨ending, keeping⟩
      · simp only [List.mem_cons, List.not_mem_nil, or_false, not_or] at hcl
        obtain ⟨notPlan, notCheck⟩ := hcl
        rw [State.turnLeft_classFlags, freedClasses cl (by simpa using notPlan)]
        exact mClasses cl (by simpa using notCheck)
      · exact State.tells.told (earlier := []) (later := [.retuneEnded .failed]) failed.tells fun other mem => by
          rw [List.mem_singleton.1 mem]
          exact .inr (by decide)
      · exact State.tells.told (earlier := [.softFault]) (later := []) failed.tells (fun _ mem => absurd mem List.not_mem_nil)
      · rw [State.turnLeft_record, failed.others j e, mOthers j e]
      · rw [State.turnLeft_pool, failed.pool, mPool]
      · rw [State.turnLeft_ports, failed.ports, mPorts]

end Sys2Proof.Machine

/-! A frame offered, and a message that leaves its list -/

namespace Sys2Proof.Machine

/-! ## A frame offered to a port (R132, R133) -/

section
variable {s : State} {p : Port} {f : BackboneFrame}

theorem State.serveTraffic_holds (h : f ∈ (s.port p).traffic) :
    f ∈ ((s.serveTraffic p).port p).traffic ∨ ((s.serveTraffic p).port p).sending = some f := by
  cases queue : (s.port p).traffic with
  | nil =>
      rw [queue] at h
      exact absurd h List.not_mem_nil
  | cons g rest =>
      rw [queue] at h
      rw [State.serveTraffic_head queue, State.port_setPort]
      rcases List.mem_cons.1 h with rfl | later
      · exact .inr rfl
      · exact .inl later

theorem State.serveHandover_holds (h : f ∈ (s.port p).traffic) (i : Fin 48) :
    f ∈ ((s.serveHandover p i).port p).traffic := by
  unfold State.serveHandover
  cases (s.record i).handover with
  | none => exact h
  | some c => cases p <;> exact h

theorem State.chooseSource_holds (h : f ∈ (s.port p).traffic) :
    f ∈ ((s.chooseSource p).port p).traffic ∨ ((s.chooseSource p).port p).sending = some f := by
  unfold State.chooseSource
  cases s.handoverWaiting p with
  | none => exact State.serveTraffic_holds h
  | some i => cases queue : (s.port p).traffic with
    | nil => exact .inl (State.serveHandover_holds h i)
    | cons g rest => cases s.params.arbiterMode with
      | fixed => exact .inl (State.serveHandover_holds h i)
      | rotating => cases (s.port p).lastServed with
        | handover => exact State.serveTraffic_holds h
        | traffic => exact .inl (State.serveHandover_holds h i)

/-- A frame that waits on a port waits still after the arbiter's choice, or has begun. -/
theorem State.arbitrate_holds (h : f ∈ (s.port p).traffic) :
    f ∈ ((s.arbitrate p).port p).traffic ∨ ((s.arbitrate p).port p).sending = some f := by
  have kept : f ∈ ((s.modifyPort p fun q => { q with helloDue := false }).port p).traffic := by
    rw [State.port_modifyPort]
    exact h
  unfold State.arbitrate
  split
  · split
    · split
      · exact State.chooseSource_holds kept
      · refine .inl ?_
        unfold State.beginFrame
        rw [State.port_modifyPort]
        exact kept
    · exact State.chooseSource_holds h
  · exact .inl h

/-- A frame offered to a port's traffic queue. -/
theorem State.offerTraffic_offered (s : State) (p : Port) (f : BackboneFrame) : s.offered (s.offerTraffic p f) p f := by
  refine ⟨fun refused => ?_, fun use room => ?_, fun q ne => ?_⟩
  · rw [State.offerTraffic_refused f refused]
    unfold State.countTrafficFull
    rw [State.port_modifyPort]
    rfl
  · have queued := State.port_setPort s p { s.port p with traffic := (s.port p).traffic ++ [f] }
    have params := State.setPort_params s p { s.port p with traffic := (s.port p).traffic ++ [f] }
    rw [State.offerTraffic_taken f use room]
    refine ⟨fun busy => ?_, fun _ => ?_, fun idle hello empty nothing => ?_⟩
    · rw [State.arbitrate_idle_not (by rw [queued]; exact fun h => busy h.2), queued]
    · exact State.arbitrate_holds (by rw [queued]; simp)
    · have still : (s.setPort p { s.port p with traffic := (s.port p).traffic ++ [f] }).handoverWaiting p = none := by
        rw [State.handoverWaiting_none_iff] at nothing ⊢
        intro i
        rw [← nothing i]
        cases p <;> rfl
      rw [State.arbitrate_ready (by rw [params]; exact use) (by rw [queued]; exact idle) (by rw [queued]; exact hello)]
      unfold State.chooseSource
      rw [still]
      dsimp only
      rw [State.serveTraffic_head (f := f) (rest := []) (by rw [queued]; simp [empty]), State.port_setPort, queued, ← empty]
  · unfold State.offerTraffic
    split
    · rw [State.arbitrate_ports_ne _ ne, State.modifyPort_eq, State.port_setPort_ne _ _ ne.symm]
    · unfold State.countTrafficFull
      rw [State.modifyPort_eq, State.port_setPort_ne _ _ ne.symm]

end

/-- An offer reads the ports, the parameters and the handover contexts alone. -/
theorem State.offered.of_before {s s' t : State} {p : Port} {f : BackboneFrame} (h : s'.offered t p f)
    (ports : s'.ports = s.ports) (params : s'.params = s.params)
    (handovers : ∀ i, (s'.record i).handover = (s.record i).handover) : s.offered t p f := by
  have port (q : Port) : s'.port q = s.port q := State.port_congr ports q
  have waiting (nothing : s.handoverWaiting p = none) : s'.handoverWaiting p = none := by
    rw [State.handoverWaiting_none_iff] at nothing ⊢
    intro i
    rw [← nothing i]
    unfold State.dueThrough
    rw [handovers, params]
  obtain ⟨refused, taken, others⟩ := h
  rw [port, params] at refused taken
  refine ⟨refused, fun use room => ?_, fun q ne => (others q ne).trans (port q)⟩
  obtain ⟨busy, idle, alone⟩ := taken use room
  exact ⟨busy, idle, fun h1 h2 h3 h4 => alone h1 h2 h3 (waiting h4)⟩

theorem State.offered.after {s t u : State} {p : Port} {f : BackboneFrame} (h : s.offered t p f) (ports : u.ports = t.ports) :
    s.offered u p f := by
  have port (q : Port) : u.port q = t.port q := State.port_congr ports q
  unfold State.offered at h ⊢
  simp only [port]
  exact h

/-! ## A message leaves its list (R104, R111, R112) -/

/-- The NOTE of a message. -/
def Message.note (m : Message) (s : State) (car : Nat) (o : NoteOutcome) : BackboneFrame :=
  { source := s.params.station, dest := 255, hop := 255,
    payload := .note car (match m.source with
      | .host => 0
      | .dispatch number => number) o s.params.station }

/-- The NOTE of a message that left its list. -/
theorem State.noteFor_noteSent (s : State) (car : Nat) (m : Message) (o : NoteOutcome) :
    s.noteSent (s.noteFor car m.source m.receipt o) m (m.note s car o) := by
  unfold State.noteSent State.noteFor Message.note
  cases m.source with
  | host => exact ⟨fun _ => rfl, fun h => absurd rfl h⟩
  | dispatch number =>
      dsimp only
      refine ⟨fun silent => ?_, fun _ receipt => ?_⟩
      · rw [if_neg (by rw [silent.resolve_left nofun]; decide)]
      · rw [if_pos receipt]
        exact s.offerTraffic_offered .outbye _

theorem State.noteSent.of_before {s s' t : State} {m : Message} {note : BackboneFrame} (h : s'.noteSent t m note)
    (ports : s'.ports = s.ports) (params : s'.params = s.params)
    (handovers : ∀ i, (s'.record i).handover = (s.record i).handover) : s.noteSent t m note :=
  ⟨fun silent => (h.1 silent).trans ports, fun source receipt => (h.2 source receipt).of_before ports params handovers⟩

theorem State.noteSent.after {s t u : State} {m : Message} {note : BackboneFrame} (h : s.noteSent t m note)
    (ports : u.ports = t.ports) : s.noteSent u m note :=
  ⟨fun silent => ports.trans (h.1 silent), fun source receipt => (h.2 source receipt).after ports⟩

/-- No NOTE is sent for a message of the host, or without a receipt. -/
theorem State.noteFor_silent {m : Message} (h : m.source = .host ∨ m.receipt = false) (s : State) (car : Nat) (o : NoteOutcome) :
    s.noteFor car m.source m.receipt o = s := by
  unfold State.noteFor
  cases source : m.source with
  | host => rfl
  | dispatch number =>
      dsimp only
      rw [if_neg (by rw [h.resolve_left (by rw [source]; nofun)]; decide)]

/-- Buffer `b` of the pool set, and the free buffers reported. -/
structure State.bufferSet (s t : State) (b : Fin 64) (m : Option Message) : Prop where
  pool : t.pool = s.pool.set b m
  reported : s.poolReported t True
  classes : s.onlyClasses t [.poolLow]

theorem State.setBuffer_set (s : State) (b : Fin 64) (m : Option Message) : s.bufferSet (s.setBuffer b m) b m :=
  ⟨rfl, ⟨fun _ => State.setBuffer_reported b m (s := s) (a := false) (.inr rfl), fun no => absurd trivial no⟩,
    s.setBuffer_onlyClasses b m⟩

theorem State.bufferSet.congr {s s' t t' : State} {b : Fin 64} {m : Option Message} (h : s.bufferSet t b m)
    (pool : s'.pool = s.pool) (conditions : s'.conditions = s.conditions) (params : s'.params = s.params)
    (pool' : t'.pool = t.pool) (conditions' : t'.conditions = t.conditions) : s'.bufferSet t' b m := by
  obtain ⟨set, ⟨reported, _⟩, classes⟩ := h
  have flags (c : ConditionClass) : s'.classFlags c = s.classFlags c := State.classFlags_congr conditions c
  have flags' (c : ConditionClass) : t'.classFlags c = t.classFlags c := State.classFlags_congr conditions' c
  have free : t'.freeBuffers = t.freeBuffers := by
    unfold State.freeBuffers
    rw [pool']
  refine ⟨by rw [pool', set, pool], ⟨fun yes => ?_, fun no => absurd trivial no⟩, fun c hc => ?_⟩
  · have said := reported yes
    unfold State.classReported at said ⊢
    rw [flags, flags', free, params]
    exact said
  · rw [flags, flags', classes c hc]

/-- A record whose message in buffer `b` has left its list (R111). -/
def Record.retired (r : Record) (b : Fin 64) : Record :=
  { r with messages := r.messages.erase b, inFlight := none, downBit := !r.downBit }

/-- The message in buffer `b` off the list of record `i`. -/
theorem State.retireMessage_retired (s : State) (i : Fin 48) (b : Fin 64) :
    (s.retireMessage i b).record i = (s.record i).retired b ∧ (∀ j, j ≠ i → (s.retireMessage i b).record j = s.record j) ∧
      s.bufferSet (s.retireMessage i b) b none ∧
      s.retireMessage i b = { s with
        roster := { s.roster with records := (s.retireMessage i b).roster.records }, pool := (s.retireMessage i b).pool,
        conditions := (s.retireMessage i b).conditions } := by
  have removed := State.setBuffer_set (s.modifyRecord i fun r => { r with messages := r.messages.erase b, inFlight := none }) b none
  have first (j : Fin 48) : (s.removeMessage i b).record j =
    (s.modifyRecord i fun r => { r with messages := r.messages.erase b, inFlight := none }).record j := rfl
  unfold State.retireMessage
  refine ⟨?_, fun j e => ?_, removed.congr rfl rfl rfl rfl rfl, rfl⟩
  · rw [State.record_modifyRecord, first, State.record_modifyRecord]
    rfl
  · rw [State.record_modifyRecord_ne _ _ e.symm, first, State.record_modifyRecord_ne _ _ e.symm]

end Sys2Proof.Machine

/-! A message delivered, tried or dropped -/

namespace Sys2Proof.Machine

/-! ## A message delivered, tried or dropped (R111, R112) -/

/-- The message `m` in buffer `b` of record `i` left its list with an outcome, and the record became `r` but for a frame of
its context that the NOTE's port may have begun. -/
structure State.messageGone (s t : State) (i : Fin 48) (b : Fin 64) (m : Message) (r : Record) (o : NoteOutcome)
    (reasons : List Reason) : Prop where
  record : r.sameButSent (t.record i)
  others : ∀ j, j ≠ i → (s.record j).sameButSent (t.record j)
  tells : s.tells t i reasons
  buffer : s.bufferSet t b none
  note : s.noteSent t m (m.note s (s.record i).carId o)
  silent : m.source = .host ∨ m.receipt = false → t.record i = r ∧ ∀ j, j ≠ i → t.record j = s.record j
  cells : t.cells = s.cells
  inbound : t.inbound = s.inbound
  params : t.params = s.params
  air : t.air = s.air
  sweep : t.sweep = s.sweep

section
variable {s t u v : State} {i : Fin 48} {b : Fin 64} {m : Message} {r q : Record} {o : NoteOutcome} {l reasons : List Reason}

/-- Work on the record and its attention entry that the departure of a message follows. -/
theorem State.meets.gone (h : s.meets u i q l) (sweep : u.sweep = s.sweep) (k : u.messageGone t i b m r o reasons)
    (car : q.carId = (s.record i).carId) (handover : q.handover = (s.record i).handover) :
    s.messageGone t i b m r o (l ++ reasons) where
  record := k.record
  others j e := by
    have others := k.others j e
    rw [h.others j e] at others
    exact others
  tells := h.tells.trans k.tells h.params
  buffer := k.buffer.congr h.pool.symm h.conditions.symm h.params.symm rfl rfl
  note := by
    have note := k.note
    rw [h.record, car] at note
    unfold Message.note at note ⊢
    rw [h.params] at note
    refine note.of_before h.ports h.params fun j => ?_
    by_cases e : j = i
    · rw [e, h.record, handover]
    · rw [h.others j e]
  silent quiet := by
    obtain ⟨own, others⟩ := k.silent quiet
    exact ⟨own, fun j e => (others j e).trans (h.others j e)⟩
  cells := k.cells.trans h.cells
  inbound := k.inbound.trans h.inbound
  params := k.params.trans h.params
  air := k.air.trans h.air
  sweep := k.sweep.trans sweep

/-- A mark given after the departure of a message. -/
theorem Record.sameButSent.marked (h : r.sameButSent q) (mark : SweepMark) :
    ({ r with mark := mark } : Record).sameButSent { q with mark := mark } := by
  obtain rfl | ⟨c, hc, rfl⟩ := h
  · exact .inl rfl
  · exact .inr ⟨c, hc, rfl⟩

end

theorem State.noteFor_kept (s : State) (car : Nat) (source : Source) (receipt : Bool) (o : NoteOutcome) :
    let t := s.noteFor car source receipt o
    t.pool = s.pool ∧ t.host = s.host ∧ t.cells = s.cells ∧ t.conditions = s.conditions ∧ t.sweep = s.sweep ∧ t.air = s.air ∧
      t.params = s.params ∧ t.inbound = s.inbound :=
  ⟨State.noteFor_pool .., State.noteFor_host .., State.noteFor_cells .., State.noteFor_conditions .., State.noteFor_sweep ..,
    State.noteFor_air .., State.params_of_calm (State.noteFor_calm ..), State.inbound_of_quiet (State.noteFor_quiet ..)⟩

/-- A message off its list, work on its record and the NOTE. -/
theorem State.noteFor_gone {s u : State} {i : Fin 48} {b : Fin 64} {m : Message} {r : Record} {reasons : List Reason}
    (o : NoteOutcome) (touched : (s.retireMessage i b).touches u i r reasons) (handover : r.handover = (s.record i).handover) :
    s.messageGone (u.noteFor (s.record i).carId m.source m.receipt o) i b m r o reasons := by
  obtain ⟨own, others, buffer, frame⟩ := s.retireMessage_retired i b
  have params : (s.retireMessage i b).params = s.params := by rw [frame]
  have ports : (s.retireMessage i b).ports = s.ports := by rw [frame]
  have sent := u.noteFor_recordsSent (s.record i).carId m.source m.receipt o
  obtain ⟨npool, nhost, ncells, nconditions, nsweep, nair, nparams, ninbound⟩ :=
    u.noteFor_kept (s.record i).carId m.source m.receipt o
  have note := u.noteFor_noteSent (s.record i).carId m o
  have uParams := touched.params.trans params
  refine ⟨?_, fun j e => ?_, ?_, ?_, ?_, fun quiet => ?_, ?_, ?_, nparams.trans uParams, ?_, ?_⟩
  · have mine := sent i
    rw [touched.record] at mine
    exact mine
  · have theirs := sent j
    rw [touched.others j e, others j e] at theirs
    exact theirs
  · exact (touched.tells.after (congrArg HostPort.attention nhost)).before params (by rw [frame])
  · exact buffer.congr rfl rfl rfl (npool.trans touched.pool) (nconditions.trans touched.conditions)
  · unfold Message.note at note ⊢
    rw [uParams] at note
    refine note.of_before (touched.ports.trans ports) uParams fun j => ?_
    by_cases e : j = i
    · rw [e, touched.record, handover]
    · rw [touched.others j e, others j e]
  · rw [State.noteFor_silent quiet]
    exact ⟨touched.record, fun j e => (touched.others j e).trans (others j e)⟩
  · exact (ncells.trans touched.cells).trans (by rw [frame])
  · exact (ninbound.trans touched.inbound).trans (by rw [frame])
  · exact (nair.trans touched.air).trans (by rw [frame])
  · exact (nsweep.trans touched.sweep).trans (by rw [frame])

section
variable {s : State} {i : Fin 48} {b : Fin 64} {m : Message}

theorem State.deliverMessage_gone (flight : (s.record i).inFlight = some b) (held : s.pool[b] = some m) :
    s.messageGone (s.deliverMessage i) i b m ((s.record i).retired b) .delivered [] := by
  have own := (s.retireMessage_retired i b).1
  have delivered : s.deliverMessage i = (s.retireMessage i b).noteFor (s.record i).carId m.source m.receipt .delivered := by
    unfold State.deliverMessage
    rw [flight]
    dsimp only
    rw [held]
  rw [delivered]
  exact State.noteFor_gone .delivered ((State.touches.refl _ i).of_eq own rfl) rfl

theorem State.failMessage_eq (flight : (s.record i).inFlight = some b) (held : s.pool[b] = some m) :
    s.failMessage i = if s.params.attemptLimit ≤ m.tried.attempts then
        ((s.retireMessage i b).setSoft i .dropped).noteFor (s.record i).carId m.source m.receipt .dropped
      else s.setBuffer b (some m.tried) := by
  unfold State.failMessage
  rw [flight]
  dsimp only
  rw [held]
  rfl

theorem State.failMessage_gone (flight : (s.record i).inFlight = some b) (held : s.pool[b] = some m)
    (last : s.params.attemptLimit ≤ m.tried.attempts) :
    s.messageGone (s.failMessage i) i b m { (s.record i).retired b with soft := some .dropped } .dropped [.softFault] := by
  have own := (s.retireMessage_retired i b).1
  rw [State.failMessage_eq flight held, if_pos last]
  have faulted := State.touches_setSoft (s.retireMessage i b) i .dropped
  rw [own] at faulted
  exact State.noteFor_gone .dropped faulted rfl

theorem State.failMessage_tried (flight : (s.record i).inFlight = some b) (held : s.pool[b] = some m)
    (few : m.tried.attempts < s.params.attemptLimit) : s.failMessage i = s.setBuffer b (some m.tried) := by
  rw [State.failMessage_eq flight held, if_neg (Nat.not_le.2 few)]

end

/-! ## Messages of the POLL at the end of a slot -/

/-- What an exchange whose POLL carried a message makes of a record before it judges the message: its stay goes on as
before. -/
structure Record.ready (r q : Record) : Prop where
  carId : q.carId = r.carId
  handover : q.handover = r.handover
  messages : q.messages = r.messages
  inFlight : q.inFlight = r.inFlight
  downBit : q.downBit = r.downBit
  upBit : q.upBit = r.upBit

theorem Record.met_ready {r : Record} (h : r.contact = .present ∨ r.contact = .granted) (p : Params) (level : Nat) :
    r.ready (r.met p level) := by
  rw [Record.met_eq h]
  exact ⟨rfl, rfl, rfl, rfl, rfl, rfl⟩

/-- The end of a slot after the departure of a message, in terms of the slot before it: between lie the count of the window
and the work on the record, and after it, perhaps, a sweep mark. -/
theorem State.messageGone.atEnd {s c w u v : State} {i : Fin 48} {b : Fin 64} {m : Message} {q r : Record} {o : NoteOutcome}
    {l reasons after : List Reason} {mark : SweepMark} (window : ∃ result, c = s.countWindow result)
    (worked : c.meets w i q l) (sweep : w.sweep = c.sweep) (ready : (s.record i).ready q)
    (gone : w.messageGone u i b m r o reasons) (marked : u.meets v i { u.record i with mark := mark } after) :
    ({ r with mark := mark } : Record).sameButSent (v.turnLeft.record i) ∧
      (∀ j, j ≠ i → (s.record j).sameButSent (v.turnLeft.record j)) ∧ s.tells v.turnLeft i (l ++ reasons ++ after) ∧
      v.turnLeft.pool = s.pool.set b none ∧ s.poolReported v.turnLeft True ∧ s.onlyClasses v.turnLeft [.poolLow, .airCheck] ∧
      s.noteSent v.turnLeft m (m.note s (s.record i).carId o) ∧ v.turnLeft.cells = s.cells ∧ v.turnLeft.inbound = s.inbound := by
  obtain ⟨result, rfl⟩ := window
  obtain ⟨cells, pool, ports, inbound, params, _⟩ := s.countWindow_kept result
  have base (j : Fin 48) := s.countWindow_record result j
  have whole := worked.gone sweep gone (by rw [base]; exact ready.carId) (by rw [base]; exact ready.handover)
  have windowClasses := s.countWindow_classes result
  obtain ⟨set, ⟨reported, _⟩, classes⟩ := whole.buffer
  have flags (c : ConditionClass) : v.turnLeft.classFlags c = u.classFlags c := by
    rw [State.turnLeft_classFlags, marked.classes]
  have free : v.turnLeft.freeBuffers = u.freeBuffers := by
    unfold State.freeBuffers
    rw [State.turnLeft_pool, marked.pool]
  refine ⟨?_, fun j e => ?_, ?_, ?_, ⟨fun yes => ?_, fun no => absurd trivial no⟩, fun cl hcl => ?_, ?_, ?_, ?_⟩
  · rw [State.turnLeft_record, marked.record]
    exact whole.record.marked mark
  · rw [State.turnLeft_record, marked.others j e]
    have theirs := whole.others j e
    rw [base] at theirs
    exact theirs
  · have told := (whole.tells.trans marked.tells whole.params).before params (s.countWindow_attention result)
    exact told.after (congrArg HostPort.attention (State.turnLeft_host _))
  · rw [State.turnLeft_pool, marked.pool, set, pool]
  · have said := reported yes
    unfold State.classReported at said ⊢
    rw [flags, free]
    rw [windowClasses .poolLow (by decide), params] at said
    exact said
  · simp only [List.mem_cons, List.not_mem_nil, or_false, not_or] at hcl
    obtain ⟨notPool, notCheck⟩ := hcl
    rw [flags, classes cl (by simpa using notPool), windowClasses cl (by simpa using notCheck)]
  · have note := whole.note
    rw [base] at note
    unfold Message.note at note ⊢
    rw [params] at note
    refine (note.of_before ports params fun j => by rw [base]).after ?_
    rw [State.turnLeft_ports, marked.ports]
  · rw [State.turnLeft_cells, marked.cells, whole.cells, cells]
  · rw [State.turnLeft_inbound, marked.inbound, whole.inbound, inbound]

/-- The end of a slot after an attempt that was not the last. -/
theorem State.messageTried_atEnd {s c w v : State} {i : Fin 48} {b : Fin 64} {m : Message} {q : Record}
    {l after : List Reason} {mark : SweepMark} (window : ∃ result, c = s.countWindow result) (worked : c.meets w i q l)
    (ready : (s.record i).ready q)
    (marked : (w.setBuffer b (some m)).meets v i { (w.setBuffer b (some m)).record i with mark := mark } after) :
    (s.record i).ready (v.turnLeft.record i) ∧ v.turnLeft.pool = s.pool.set b (some m) ∧ s.poolReported v.turnLeft True ∧
      s.onlyClasses v.turnLeft [.poolLow, .airCheck] ∧ (∀ j, j ≠ i → v.turnLeft.record j = s.record j) ∧
      v.turnLeft.cells = s.cells ∧ v.turnLeft.ports = s.ports ∧ v.turnLeft.inbound = s.inbound := by
  obtain ⟨result, rfl⟩ := window
  obtain ⟨cells, pool, ports, inbound, params, _⟩ := s.countWindow_kept result
  have base (j : Fin 48) := s.countWindow_record result j
  have windowClasses := s.countWindow_classes result
  have set := (w.setBuffer_set b (some m)).congr worked.pool.symm worked.conditions.symm worked.params.symm rfl rfl
  obtain ⟨put, ⟨reported, _⟩, classes⟩ := set
  have record (j : Fin 48) : (w.setBuffer b (some m)).record j = w.record j := rfl
  have flags (c : ConditionClass) : v.turnLeft.classFlags c = (w.setBuffer b (some m)).classFlags c := by
    rw [State.turnLeft_classFlags, marked.classes]
  have free : v.turnLeft.freeBuffers = (w.setBuffer b (some m)).freeBuffers := by
    unfold State.freeBuffers
    rw [State.turnLeft_pool, marked.pool]
  refine ⟨?_, ?_, ⟨fun yes => ?_, fun no => absurd trivial no⟩, fun cl hcl => ?_, fun j e => ?_, ?_, ?_, ?_⟩
  · rw [State.turnLeft_record, marked.record, record, worked.record]
    obtain ⟨carId, handover, messages, inFlight, downBit, upBit⟩ := ready
    exact ⟨carId, handover, messages, inFlight, downBit, upBit⟩
  · rw [State.turnLeft_pool, marked.pool, put, pool]
  · have said := reported yes
    unfold State.classReported at said ⊢
    rw [flags, free]
    rw [windowClasses .poolLow (by decide), params] at said
    exact said
  · simp only [List.mem_cons, List.not_mem_nil, or_false, not_or] at hcl
    obtain ⟨notPool, notCheck⟩ := hcl
    rw [flags, classes cl (by simpa using notPool), windowClasses cl (by simpa using notCheck)]
  · rw [State.turnLeft_record, marked.others j e, record, worked.others j e, base]
  · rw [State.turnLeft_cells, marked.cells, State.setBuffer_cells, worked.cells, cells]
  · rw [State.turnLeft_ports, marked.ports, State.setBuffer_ports, worked.ports, ports]
  · rw [State.turnLeft_inbound, marked.inbound]
    exact worked.inbound.trans inbound

end Sys2Proof.Machine

/-! The judgement of a message -/

namespace Sys2Proof.Machine

/-! ## Messages delivered, dropped or taken (R108, R111 to R117) -/

/-- What decides whether a record keeps its turn. -/
def Record.stay (r : Record) : ContactState × Option HardFault × Nat × Nat := (r.contact, r.hard, r.missCount, r.grantMisses)

theorem Record.sameButSent.stay {r q : Record} (h : r.sameButSent q) : q.stay = r.stay := by
  obtain rfl | ⟨c, _, rfl⟩ := h <;> rfl

/-- What a frame of the context leaves of the message fields. -/
theorem Record.sameButSent.ready {r q : Record} (h : r.sameButSent q) :
    q.messages = r.messages ∧ q.inFlight = r.inFlight ∧ q.downBit = r.downBit ∧ q.contact = r.contact ∧ q.soft = r.soft ∧
      q.upBit = r.upBit := by
  obtain rfl | ⟨c, _, rfl⟩ := h <;> exact ⟨rfl, rfl, rfl, rfl, rfl, rfl⟩

theorem State.failMessage_stay {s : State} {i : Fin 48} {b : Fin 64} {m : Message} (flight : (s.record i).inFlight = some b)
    (held : s.pool[b] = some m) : ((s.failMessage i).record i).stay = (s.record i).stay := by
  by_cases last : s.params.attemptLimit ≤ m.tried.attempts
  · exact (State.failMessage_gone flight held last).record.stay
  · rw [State.failMessage_tried flight held (Nat.not_le.1 last)]
    rfl

theorem State.failMessage_params (s : State) (i : Fin 48) : (s.failMessage i).params = s.params :=
  (s.failMessage_stays i).params

/-- A record that keeps its turn keeps it beside the attempt of its message. -/
theorem State.missedExchange_message {s : State} {i : Fin 48} {own : Bool} {poll : Poll} {o : ExchangeOutcome}
    (message : poll.message ≠ none) (retune : poll.retune = none)
    (lapse : (own && (((s.countMiss i own).noteOutcome i own o).failMessage i).lapseDue i) = false)
    (grant : (own && (((s.countMiss i own).noteOutcome i own o).failMessage i).grantLapseDue i) = false) :
    s.missedExchange i own poll o = ((s.countMiss i own).noteOutcome i own o).failMessage i := by
  obtain ⟨sent, carried⟩ := Option.ne_none_iff_exists'.1 message
  unfold State.missedExchange
  rw [carried, retune]
  dsimp only [Option.isSome]
  rw [if_pos rfl, if_neg (by rw [lapse]; decide), if_neg Bool.false_ne_true, if_neg (by rw [grant]; decide)]

theorem State.judgeAck_message (s : State) (i : Fin 48) {poll : Poll} (ack : Bool) (h : poll.message ≠ none) :
    s.judgeAck i poll ack = if ack = poll.downBit then s.deliverMessage i else s.failMessage i := by
  unfold State.judgeAck
  rw [if_pos (Option.isSome_iff_ne_none.2 h)]
  by_cases acked : ack = poll.downBit
  · rw [if_pos acked, if_pos (beq_iff_eq.2 acked)]
  · rw [if_neg acked, beq_false_of_ne acked]
    rfl

/-- A MATCHED exchange that judged its message and took none. -/
theorem State.endsExchange.acknowledged {s : State} {k : Fin 32} {x : Exchange} {a : Answer} {level : Nat}
    (h : s.endsExchange k x) (message : x.poll.message ≠ none) (retune : x.poll.retune = none) (matched : s.matchedBy x a level)
    (more : a.more = false) :
    exec .slotEnd s = .next (((if a.downAck = x.poll.downBit then
        ((s.setGarbledRun 0).contacted x.record level).deliverMessage x.record
      else ((s.setGarbledRun 0).contacted x.record level).failMessage x.record).takeAnswerMessage x.record a).creditSweep
        x.record).turnLeft := by
  rw [h.matched matched, State.matchedExchange_still _ _ _ _ _ more, State.retuned_plain _ _ _ _ retune, ←
    State.judgeAck_message _ _ _ message]
  rfl

theorem State.takeAnswerMessage_none (s : State) (i : Fin 48) {a : Answer} (h : a.message = none) :
    s.takeAnswerMessage i a = s := by
  unfold State.takeAnswerMessage
  rw [h]

end Sys2Proof.Machine

/-! The messages of an exchange at the end of a slot -/

namespace Sys2Proof.Machine

/-! ## The messages of an exchange at the end of a slot (R111 to R117) -/

/-- The state in which an exchange judges the message of its POLL: the window counted and the record worked on, but not in
what the message reads. -/
def State.judging (s w : State) (i : Fin 48) (q : Record) (l : List Reason) : Prop :=
  ∃ c : State, (∃ result, c = s.countWindow result) ∧ c.meets w i q l ∧ w.sweep = c.sweep ∧ (s.record i).ready q

theorem State.judging_matched (s : State) (i : Fin 48) (level : Nat)
    (contact : (s.record i).contact = .present ∨ (s.record i).contact = .granted) :
    s.judging ((s.setGarbledRun 0).contacted i level) i ((s.record i).met s.params level)
      (metReasons (s.record i) s.params level) :=
  ⟨s.setGarbledRun 0, ⟨.good { carId := 0, tag := 0, more := false, downAck := false, message := none } level, rfl⟩,
    State.contacted_meets _ i level, State.contacted_sweep _ i level, Record.met_ready contact s.params level⟩

theorem State.judging_missed {s : State} {x : Exchange} {soft : Option SoftFault} {mismatches : Nat}
    (missed : s.missedBy x soft mismatches) (light : s.air.light = .ready) :
    ∃ l, s.judging (s.missJudged x) x.record
      { (s.record x.record).counted s.params x.role with mismatchCount := mismatches, soft := soft } l :=
  ⟨_, _, ⟨_, rfl⟩, (missed.touches light).1.meets, (missed.touches light).1.sweep, ⟨rfl, rfl, rfl, rfl, rfl, rfl⟩⟩

section
variable {s w : State} {i : Fin 48} {q : Record} {l : List Reason} {b : Fin 64} {m : Message}

theorem State.judging.record (h : s.judging w i q l) : w.record i = q := by
  obtain ⟨c, _, worked, _⟩ := h
  exact worked.record

theorem State.judging.pool (h : s.judging w i q l) : w.pool = s.pool := by
  obtain ⟨c, ⟨result, rfl⟩, worked, _⟩ := h
  rw [worked.pool, (s.countWindow_kept result).2.1]

theorem State.judging.params (h : s.judging w i q l) : w.params = s.params := by
  obtain ⟨c, ⟨result, rfl⟩, worked, _⟩ := h
  rw [worked.params, State.countWindow_params]

theorem State.judging.flight (h : s.judging w i q l) (flight : (s.record i).inFlight = some b) :
    (w.record i).inFlight = some b := by
  rw [h.record]
  obtain ⟨c, _, _, _, ready⟩ := h
  rw [ready.inFlight, flight]

/-- The exchange of a record that keeps its turn, and whose POLL carried a message, when it was not MATCHED. -/
theorem State.endsExchange.unacknowledged {s : State} {k : Fin 32} {x : Exchange} {soft : Option SoftFault} {mismatches : Nat}
    (h : s.endsExchange k x) (message : x.poll.message ≠ none) (retune : x.poll.retune = none)
    (missed : s.missedBy x soft mismatches) (keeps : (s.record x.record).keepsTurn s.params x.role)
    (flight : (s.record x.record).inFlight = some b) (held : s.pool[b] = some m) :
    exec .slotEnd s = .next ((s.missJudged x).failMessage x.record).turnLeft := by
  obtain ⟨touched, outcome⟩ := missed.touches h.light
  obtain ⟨l, judging⟩ := State.judging_missed missed h.light
  have stay := State.failMessage_stay (judging.flight flight) (by rw [judging.pool]; exact held)
  rw [touched.record] at stay
  simp only [Record.stay, Prod.mk.injEq] at stay
  obtain ⟨contact, hard, misses, grantMisses⟩ := stay
  obtain ⟨lapse, grant⟩ := keeps.stays (i := x.record) (s := (s.missJudged x).failMessage x.record) rfl
    ((State.failMessage_params _ _).trans judging.params) contact (fun faulted => by rw [hard]; exact faulted) misses grantMisses
  rw [h.slotEnds, State.judgeExchange_missed h.release outcome, State.missedExchange_message message retune lapse grant]
  rfl

/-- What an attempt of a message at the end of a slot shows. -/
structure State.attempted (s t : State) (i : Fin 48) (b : Fin 64) (m : Message) : Prop where
  ready : (s.record i).ready (t.record i)
  pool : t.pool = s.pool.set b (some m)
  reported : s.poolReported t True
  classes : s.onlyClasses t [.poolLow, .airCheck]
  others : ∀ j, j ≠ i → t.record j = s.record j
  cells : t.cells = s.cells
  ports : t.ports = s.ports
  inbound : t.inbound = s.inbound

/-- What the departure of a message at the end of a slot shows. -/
structure State.departed (s t : State) (i : Fin 48) (b : Fin 64) (m : Message) (r : Record) (o : NoteOutcome)
    (reasons : List Reason) : Prop where
  record : r.sameButSent (t.record i)
  others : ∀ j, j ≠ i → (s.record j).sameButSent (t.record j)
  tells : s.tells t i reasons
  pool : t.pool = s.pool.set b none
  reported : s.poolReported t True
  classes : s.onlyClasses t [.poolLow, .airCheck]
  note : s.noteSent t m (m.note s (s.record i).carId o)
  cells : t.cells = s.cells
  inbound : t.inbound = s.inbound

theorem State.judging.attempted (h : s.judging w i q l) {v : State} {mark : SweepMark} {after : List Reason}
    (marked : (w.setBuffer b (some m)).meets v i { (w.setBuffer b (some m)).record i with mark := mark } after) :
    s.attempted v.turnLeft i b m := by
  obtain ⟨c, window, worked, _, ready⟩ := h
  obtain ⟨h1, h2, h3, h4, h5, h6, h7, h8⟩ := State.messageTried_atEnd window worked ready marked
  exact ⟨h1, h2, h3, h4, h5, h6, h7, h8⟩

theorem State.judging.departed (h : s.judging w i q l) {u v : State} {r : Record} {o : NoteOutcome} {mark : SweepMark}
    {reasons after : List Reason} (gone : w.messageGone u i b m r o reasons)
    (marked : u.meets v i { u.record i with mark := mark } after) :
    s.departed v.turnLeft i b m { r with mark := mark } o (l ++ reasons ++ after) := by
  obtain ⟨c, window, worked, sweep, ready⟩ := h
  obtain ⟨h1, h2, h3, h4, h5, h6, h7, h8, h9⟩ := gone.atEnd window worked sweep ready marked
  exact ⟨h1, h2, h3, h4, h5, h6, h7, h8, h9⟩

end

/-- A state with nothing marked after it. -/
theorem State.meets_same (u : State) (i : Fin 48) : u.meets u i { u.record i with mark := (u.record i).mark } [] :=
  (State.touches.refl u i).meets

/-- The attempt of a message in an exchange that did not acknowledge it, with the sweep's credit after a MATCHED one. -/
theorem State.endsExchange.failed {s : State} {k : Fin 32} {x : Exchange} {b : Fin 64} {m : Message} (h : s.endsExchange k x)
    (message : x.poll.message ≠ none) (retune : x.poll.retune = none)
    (contact : (s.record x.record).contact = .present ∨ (s.record x.record).contact = .granted)
    (flight : (s.record x.record).inFlight = some b) (held : s.pool[b] = some m)
    (kind : (∃ a level, s.matchedBy x a level ∧ a.more = false ∧ a.message = none ∧ a.downAck ≠ x.poll.downBit) ∨
      (∃ soft mismatches, s.missedBy x soft mismatches ∧ (s.record x.record).keepsTurn s.params x.role)) :
    ∃ w v q l mark, s.judging w x.record q l ∧ exec .slotEnd s = .next v.turnLeft ∧
      (w.failMessage x.record).meets v x.record { (w.failMessage x.record).record x.record with mark := mark } [] := by
  obtain ⟨a, level, matched, more, answer, unacked⟩ | ⟨soft, mismatches, missed, keeps⟩ := kind
  · have execd := h.acknowledged message retune matched more
    rw [State.takeAnswerMessage_none _ _ answer, if_neg unacked] at execd
    exact ⟨_, _, _, _, _, s.judging_matched x.record level contact, execd, State.creditSweep_meets _ _⟩
  · obtain ⟨l, judging⟩ := State.judging_missed missed h.light
    exact ⟨_, _, _, l, _, judging, h.unacknowledged message retune missed keeps flight held, State.meets_same _ _⟩

/-! ## The message of the answer (R115 to R117) -/

theorem State.canUplink_iff {s : State} : s.canUplink = true ↔
    s.params.outbyeUse = true ∧ (s.port .outbye).neighbour = .up ∧ (s.port .outbye).traffic.length < 6 := by
  unfold State.canUplink
  rw [Bool.and_eq_true, Bool.and_eq_true, decide_eq_true_iff, beq_iff_eq, and_assoc]
  exact Iff.rfl

section
variable {s : State} {i : Fin 48} {am : AnswerMessage}

theorem State.takeInbound_repeat (h : am.upBit = (s.record i).upBit) : s.takeInbound i am = s := by
  unfold State.takeInbound
  rw [if_pos (beq_iff_eq.2 h)]

theorem State.takeInbound_here (new : am.upBit ≠ (s.record i).upBit) (here : am.addressee = .here) :
    s.takeInbound i am = if s.inbound.length < 32 then (s.queueInbound i am.body).acceptUpBit i am.upBit else s := by
  unfold State.takeInbound
  rw [beq_false_of_ne new, here]
  rfl

theorem State.takeInbound_dispatch (new : am.upBit ≠ (s.record i).upBit) (dispatch : am.addressee = .dispatch) :
    s.takeInbound i am = if s.canUplink then (s.placeUplink i am.body).acceptUpBit i am.upBit else s := by
  unfold State.takeInbound
  rw [beq_false_of_ne new, dispatch]
  rfl

theorem State.takeInbound_full (new : am.upBit ≠ (s.record i).upBit)
    (full : (am.addressee = .here ∧ 32 ≤ s.inbound.length) ∨ (am.addressee = .dispatch ∧
      (s.params.outbyeUse = false ∨ (s.port .outbye).neighbour ≠ .up ∨ 6 ≤ (s.port .outbye).traffic.length))) :
    s.takeInbound i am = s := by
  obtain ⟨here, full⟩ | ⟨dispatch, closed⟩ := full
  · rw [State.takeInbound_here new here, if_neg (Nat.not_lt.2 full)]
  · rw [State.takeInbound_dispatch new dispatch]
    refine if_neg fun able => ?_
    obtain ⟨use, up, room⟩ := State.canUplink_iff.1 able
    obtain unused | down | queue := closed
    · rw [unused] at use
      exact absurd use (by decide)
    · exact down up
    · omega

end

end Sys2Proof.Machine

/-! Messages delivered, dropped or taken -/

namespace Sys2Proof.Machine

/-! ## Settling the messages of an exchange -/

theorem State.told_of_tells_soft {s t : State} {i : Fin 48} {l after : List Reason}
    (tells : s.tells t i (l ++ [.softFault] ++ after)) (h : after = []) : s.told t i .softFault := by
  rw [h, List.append_nil] at tells
  exact State.tells.told (later := []) tells (fun _ mem => absurd mem List.not_mem_nil)

theorem Message.tried_below {m : Message} (h : m.attempts < 7) : m.tried = { m with attempts := m.attempts + 1 } := by
  unfold Message.tried
  rw [if_pos h]

theorem Message.tried_limit {m : Message} {limit : Nat} (last : limit ≤ m.attempts + 1) (small : limit ≤ 7) (few : m.attempts ≤ 7) :
    limit ≤ m.tried.attempts := by
  show limit ≤ if m.attempts < 7 then m.attempts + 1 else m.attempts
  split <;> omega

/-- A MATCHED exchange in which the record's message, if any, was judged: what is left but the answer's message. -/
theorem State.endsExchange.answers {s : State} {k : Fin 32} {x : Exchange} {a : Answer} {level : Nat}
    (h : s.endsExchange k x) (message : x.poll.message = none) (retune : x.poll.retune = none) (matched : s.matchedBy x a level)
    (more : a.more = false) :
    exec .slotEnd s = .next (((((s.setGarbledRun 0).contacted x.record level).takeAnswerMessage x.record a).creditSweep
      x.record).turnLeft) := by
  rw [h.matched matched, State.matchedExchange_still _ _ _ _ _ more, State.retuned_plain _ _ _ _ retune]
  unfold State.answered State.judgeAck
  rw [message]
  rfl

/-- A slot end after the answer's message was taken: what the sweep's credit and the slot leave alone. -/
theorem State.credited_left (u : State) (i : Fin 48) :
    (∀ c, (u.creditSweep i).turnLeft.classFlags c = u.classFlags c) ∧
      ((u.creditSweep i).turnLeft.record i).upBit = (u.record i).upBit ∧ (u.creditSweep i).turnLeft.inbound = u.inbound ∧
      (u.creditSweep i).turnLeft.ports = u.ports ∧ (u.creditSweep i).turnLeft.pool = u.pool := by
  have credited := u.creditSweep_meets i
  refine ⟨fun c => ?_, ?_, ?_, ?_, ?_⟩
  · rw [State.turnLeft_classFlags, credited.classes]
  · rw [State.turnLeft_record, credited.record]
  · rw [State.turnLeft_inbound, credited.inbound]
  · rw [State.turnLeft_ports, credited.ports]
  · rw [State.turnLeft_pool, credited.pool]

/-- Settles O37: a delivery and a failure by the departure of the message; an exchange by what it judged before, and by the
credit of the sweep after. -/
theorem messagesAreDeliveredDroppedOrTaken : Obligations.MessagesAreDeliveredDroppedOrTaken := by
  unfold Obligations.MessagesAreDeliveredDroppedOrTaken
  refine ⟨?_, ?_, ?_⟩
  · intro s i b m flight held few quiet
    have silent : m.source = .host ∨ m.receipt = false := .inr quiet
    refine ⟨?_, fun below notLast => ?_, fun last small => ?_⟩
    · have gone := State.deliverMessage_gone flight held
      obtain ⟨own, others⟩ := gone.silent silent
      exact ⟨own, gone.buffer.pool, gone.note.1 silent, gone.buffer.reported, gone.buffer.classes, others⟩
    · have tried := Message.tried_below below
      have again := State.failMessage_tried flight held (by rw [tried]; exact notLast)
      have set := s.setBuffer_set b (some m.tried)
      rw [again, ← tried]
      exact ⟨set.pool, set.reported, set.classes, rfl, rfl⟩
    · have gone := State.failMessage_gone flight held (Message.tried_limit last small few)
      obtain ⟨own, others⟩ := gone.silent silent
      exact ⟨own, gone.buffer.pool, gone.note.1 silent, gone.buffer.reported, gone.buffer.classes, others⟩
  · intro s k x r b m n noted ends message retune hr contact flight held hn hnoted
    subst hr hn
    have noteEq (o : NoteOutcome) : noted o = m.note s (s.record x.record).carId o := hnoted o
    refine ⟨fun a level matched more answer acked => ?_, fun kind => ?_⟩
    · have execd := ends.acknowledged message retune matched more
      rw [State.takeAnswerMessage_none _ _ answer, if_pos acked] at execd
      have judging := s.judging_matched x.record level contact
      have gone := State.deliverMessage_gone (judging.flight flight) (by rw [judging.pool]; exact held)
      rw [judging.record] at gone
      have departed := judging.departed gone (State.creditSweep_meets _ x.record)
      obtain ⟨messages, inFlight, downBit, still, soft, _⟩ := departed.record.ready
      obtain ⟨_, _, metMessages, _, metDown, _⟩ := Record.met_ready contact s.params level
      obtain ⟨present, _, _, _, _, metSoft, _⟩ := Record.met_plan contact s.params level
      refine ⟨_, execd, messages.trans (congrArg (List.erase · b) metMessages), inFlight, downBit.trans (congrArg not metDown),
        still.trans present, soft.trans metSoft, departed.pool, departed.reported, departed.classes, ?_, departed.others,
        departed.cells, departed.inbound⟩
      rw [noteEq]
      exact departed.note
    · obtain ⟨w, v, q, l, mark, judging, execd, marked⟩ := ends.failed message retune contact flight held kind
      have flight' := judging.flight flight
      have held' : w.pool[b] = some m := by rw [judging.pool]; exact held
      refine ⟨fun few => ?_, fun last => ?_⟩
      · rw [State.failMessage_tried flight' held' (by rw [judging.params]; exact few)] at marked
        have attempted := judging.attempted marked
        obtain ⟨_, _, messages, inFlight, downBit, _⟩ := attempted.ready
        exact ⟨_, execd, messages, inFlight.trans flight, downBit, attempted.pool, attempted.reported, attempted.classes,
          attempted.others, attempted.cells, attempted.ports, attempted.inbound⟩
      · have gone := State.failMessage_gone flight' held' (by rw [judging.params]; exact last)
        rw [judging.record] at gone
        have departed := judging.departed gone marked
        obtain ⟨_, _, _, _, ready⟩ := judging
        obtain ⟨messages, inFlight, downBit, _, soft, _⟩ := departed.record.ready
        refine ⟨_, execd, messages.trans (congrArg (List.erase · b) ready.messages), inFlight,
          downBit.trans (congrArg not ready.downBit), soft, State.told_of_tells_soft departed.tells rfl, departed.pool,
          departed.reported, departed.classes, ?_, departed.others, departed.cells, departed.inbound⟩
        rw [noteEq]
        exact departed.note
  · intro s k x a am level r q ends retune matched more answer hr contact hq
    subst hr hq
    have judging := s.judging_matched x.record level contact
    have record := judging.record
    have ready := Record.met_ready contact s.params level
    have worked := (s.setGarbledRun 0).contacted_meets x.record level
    have flags (c : ConditionClass) (hc : c ∉ [ConditionClass.airCheck]) := (worked.classes c).trans (s.setGarbledRun_classes c hc)
    have inbound : ((s.setGarbledRun 0).contacted x.record level).inbound = s.inbound := worked.inbound
    have ports : ((s.setGarbledRun 0).contacted x.record level).ports = s.ports := worked.ports
    have pool := judging.pool
    have params := judging.params
    have others (j : Fin 48) (e : j ≠ x.record) : ((s.setGarbledRun 0).contacted x.record level).record j = s.record j :=
      worked.others j e
    have taken (u : State) : u.takeAnswerMessage x.record a = u.takeInbound x.record am := by
      unfold State.takeAnswerMessage
      rw [answer]
    refine ⟨fun message => ?_, fun b m number message acked flight held source receipt dispatch new use up busy five => ?_⟩
    · have execd := ends.answers message retune matched more
      rw [taken] at execd
      clear worked taken
      generalize (s.setGarbledRun 0).contacted x.record level = w at *
      have upBit : (w.record x.record).upBit = (s.record x.record).upBit := by rw [record]; exact ready.upBit
      refine ⟨fun same => ?_, fun new => ⟨fun here room => ?_, fun dispatch use up room => ?_, fun full => ?_⟩⟩
      · rw [State.takeInbound_repeat (by rw [upBit]; exact same)] at execd
        obtain ⟨classes, bit, queue, port, buffers⟩ := w.credited_left x.record
        exact ⟨_, execd, fun c hc => (classes c).trans (flags c hc), bit.trans upBit, queue.trans inbound, port.trans ports,
          buffers.trans pool⟩
      · rw [State.takeInbound_here (by rw [upBit]; exact new) here, if_pos (by rw [inbound]; exact room)] at execd
        obtain ⟨classes, bit, queue, port, buffers⟩ :=
          ((w.queueInbound x.record am.body).acceptUpBit x.record am.upBit).credited_left x.record
        refine ⟨_, execd, fun c hc => (classes c).trans (flags c hc), bit.trans ?_, queue.trans ?_, port.trans ports,
          buffers.trans pool⟩
        · unfold State.acceptUpBit
          rw [State.record_modifyRecord]
        · show w.inbound ++ [{ carId := (w.record x.record).carId, record := x.record, body := am.body }] = _
          rw [inbound, record, ready.carId]
      · have able : w.canUplink = true := by
          rw [State.canUplink_iff, params, State.port_congr ports]
          exact ⟨use, up, room⟩
        rw [State.takeInbound_dispatch (by rw [upBit]; exact new) dispatch, if_pos able] at execd
        obtain ⟨classes, bit, queue, port, buffers⟩ :=
          ((w.placeUplink x.record am.body).acceptUpBit x.record am.upBit).credited_left x.record
        refine ⟨_, execd, fun c hc => (classes c).trans ?_, bit.trans ?_, queue.trans ?_, buffers.trans ?_, ?_⟩
        · exact (State.classFlags_congr (State.offerTraffic_conditions ..) c).trans (flags c hc)
        · unfold State.acceptUpBit
          rw [State.record_modifyRecord]
        · exact (State.inbound_of_quiet (State.offerTraffic_quiet ..)).trans inbound
        · exact (State.offerTraffic_pool ..).trans pool
        · have offered := w.offerTraffic_offered .outbye
            (w.originate Config.gateway (.uplink (w.record x.record).carId w.params.station am.body))
          unfold State.originate at offered
          rw [record, ready.carId, params] at offered
          refine (offered.of_before ports params fun j => ?_).after ?_
          · by_cases e : j = x.record
            · rw [e, record, ready.handover]
            · rw [others j e]
          · rw [port]
            unfold State.placeUplink State.originate
            rw [record, ready.carId, params]
            rfl
      · rw [State.takeInbound_full (by rw [upBit]; exact new) (by rw [inbound, params, State.port_congr ports]; exact full)] at execd
        obtain ⟨classes, bit, queue, port, buffers⟩ := w.credited_left x.record
        exact ⟨_, execd, fun c hc => (classes c).trans (flags c hc), bit.trans upBit, queue.trans inbound, port.trans ports,
          buffers.trans pool⟩
    · have execd := ends.acknowledged message retune matched more
      rw [taken, if_pos acked] at execd
      have gone := State.deliverMessage_gone (judging.flight flight) (by rw [pool]; exact held)
      rw [record] at gone
      have departed := judging.departed gone (State.creditSweep_meets _ x.record)
      have offered := departed.note.2 (by rw [source]; nofun) receipt
      obtain ⟨queued, _⟩ := offered.2.1 use (by rw [five]; decide)
      have port := queued busy
      have bit := gone.record.ready.2.2.2.2.2
      have metBit := ready.upBit
      have left (u : State) : (u.creditSweep x.record).turnLeft.port .outbye = u.port .outbye :=
        State.port_congr (u.credited_left x.record).2.2.2.1 .outbye
      rw [left] at port
      have full : (((s.setGarbledRun 0).contacted x.record level).deliverMessage x.record).takeInbound x.record am =
          ((s.setGarbledRun 0).contacted x.record level).deliverMessage x.record := by
        refine State.takeInbound_full (fun e => new (e.trans (bit.trans metBit))) (.inr ⟨dispatch, .inr (.inr ?_)⟩)
        rw [port]
        simp [five]
      rw [full] at execd
      refine ⟨_, execd, (departed.record.ready.2.2.2.2.2).trans metBit, departed.pool, departed.reported, departed.classes, ?_⟩
      rw [left, port]
      unfold Message.note
      rw [source]

end Sys2Proof.Machine

/-! A record gives up its turn, and returns to FREE that are alike -/

namespace Sys2Proof.Machine

/-! ## A record gives up its turn (R23, R64, R82) -/

/-- `t` is `s` after record `i` gave up its turn and became `r`, with reasons for it. -/
structure State.gaveUp (s t : State) (i : Fin 48) (r : Record) (reasons : List Reason) : Prop where
  record : t.record i = r
  others : ∀ j, j ≠ i → t.record j = s.record j
  tells : s.tells t i reasons
  freed : s.cellsFreed t (heldBy i)
  pool : t.pool = s.pool
  ports : t.ports = s.ports
  inbound : t.inbound = s.inbound
  sweep : t.sweep = s.sweep
  params : t.params = s.params
  air : t.air = s.air
  summonCount : t.roster.summonCount = s.roster.summonCount
  pinnedCount : t.roster.pinnedCount = s.roster.pinnedCount

section
variable {s t u : State} {i : Fin 48} {r q : Record} {l m : List Reason}

theorem State.giveUpTurn_gaveUp (s : State) (i : Fin 48) :
    s.gaveUp (s.giveUpTurn i) i { s.record i with turn := none, retune := none } [] := by
  have freed := s.cellsFreed_freeCellsOf i
  have roster : (s.freeCellsOf i).roster = s.roster := State.freeCellsWhere_roster _ _
  have host : (s.freeCellsOf i).host = s.host := State.freeCellsWhere_host _ _
  have pool : (s.freeCellsOf i).pool = s.pool := State.freeCellsWhere_pool _ _
  have ports : (s.freeCellsOf i).ports = s.ports := State.freeCellsWhere_ports _ _
  have sweep : (s.freeCellsOf i).sweep = s.sweep := State.freeCellsWhere_sweep _ _
  have air : (s.freeCellsOf i).air = s.air := State.freeCellsWhere_air _ _
  have params : (s.freeCellsOf i).params = s.params := State.params_of_calm (State.freeCellsWhere_calm _ _)
  have inbound : (s.freeCellsOf i).inbound = s.inbound := State.inbound_of_quiet (State.freeCellsWhere_quiet _ _)
  unfold State.giveUpTurn
  generalize s.freeCellsOf i = w at *
  have given := w.touches_modifyRecord i fun r => { r with turn := none, retune := none }
  refine ⟨?_, fun j e => (given.others j e).trans (State.record_congr roster j), congrArg HostPort.attention host,
    freed.congr rfl rfl rfl rfl, pool, ports, inbound, sweep, params, air, ?_, ?_⟩
  · rw [given.record, State.record_congr roster]
  · exact given.summonCount.trans (congrArg Roster.summonCount roster)
  · exact given.pinnedCount.trans (congrArg Roster.pinnedCount roster)

theorem State.gaveUp.touches (h : s.gaveUp t i r l) (k : t.touches u i q m) : s.gaveUp u i q (l ++ m) where
  record := k.record
  others j e := (k.others j e).trans (h.others j e)
  tells := h.tells.trans k.tells h.params
  freed := h.freed.congr rfl rfl k.cells k.conditions
  pool := k.pool.trans h.pool
  ports := k.ports.trans h.ports
  inbound := k.inbound.trans h.inbound
  sweep := k.sweep.trans h.sweep
  params := k.params.trans h.params
  air := k.air.trans h.air
  summonCount := k.summonCount.trans h.summonCount
  pinnedCount := k.pinnedCount.trans h.pinnedCount

end

/-- A lapse from PRESENT (R82). -/
theorem State.lapse_gaveUp (s : State) (i : Fin 48) :
    s.gaveUp (s.lapse i) i
      { s.record i with turn := none, retune := none, contact := .paging, pageCount := s.params.pageLimit } [.lapsed] := by
  have given := s.giveUpTurn_gaveUp i
  have paged := given.touches (State.touches_modifyRecord _ i fun r =>
    { r with contact := .paging, pageCount := (s.giveUpTurn i).params.pageLimit })
  rw [given.record, given.params] at paged
  have told := paged.touches (State.touches_offerReason _ i .lapsed)
  rw [paged.record] at told
  unfold State.lapse State.enterPaging
  rw [given.params]
  exact told

/-- A record that gives up its turn and becomes DORMANT (R23). -/
theorem State.dormant_gaveUp (s : State) (i : Fin 48) :
    s.gaveUp ((s.giveUpTurn i).becomeDormant i) i
      { s.record i with turn := none, retune := none, contact := .dormant, pageCount := 0, lastHanding := none } [.dormant] := by
  have given := s.giveUpTurn_gaveUp i
  have slept := given.touches (State.touches_modifyRecord _ i fun r =>
    { r with contact := .dormant, pageCount := 0, lastHanding := none })
  rw [given.record] at slept
  have told := slept.touches (State.touches_offerReason _ i .dormant)
  rw [slept.record] at told
  exact told

theorem State.dropClaim_touches (s : State) (i : Fin 48) :
    s.touches (s.dropClaim i) i { s.record i with handover := droppedClaim (s.record i).handover } [] := by
  have frame := s.dropClaim_records i
  have host : (s.dropClaim i).host = s.host := by rw [frame]
  refine ⟨?_, fun j e => ?_, State.tells_nothing i (congrArg HostPort.attention host), ?_⟩
  · rw [State.dropClaim_record, if_pos rfl]
  · rw [State.dropClaim_record, if_neg e]
  · rw [host]
    exact frame

/-! ## Returns to FREE that are alike (R39)

What a return to FREE makes of a state does not depend on what the return itself undoes: the record's summons, its pin, its
messages and their buffers. -/

/-- A return to FREE of record `i` from `u` shows the same of `s` as of `u`. -/
structure State.freesToo (s u : State) (i : Fin 48) : Prop where
  carId : (u.record i).carId = (s.record i).carId
  mark : (u.record i).mark = (s.record i).mark
  contact : (u.record i).contact = (s.record i).contact
  summons : u.roster.summonCount - (if (u.record i).summoned then 1 else 0) =
    s.roster.summonCount - (if (s.record i).summoned then 1 else 0)
  pinned : u.roster.pinnedCount - (if (u.record i).pinned then 1 else 0) =
    s.roster.pinnedCount - (if (s.record i).pinned then 1 else 0)
  others : ∀ j, j ≠ i → (s.record j).sameButSent (u.record j)
  cells : u.cells = s.cells
  pool : ∀ b : Fin 64, (if b ∈ (u.record i).messages then none else u.pool[b]) =
    if b ∈ (s.record i).messages then none else s.pool[b]
  low : ∀ t : State, (∀ b : Fin 64, t.pool[b] = if b ∈ (u.record i).messages then none else u.pool[b]) →
    u.poolReported t (∃ b ∈ (u.record i).messages, u.pool[b] ≠ none) →
    s.poolReported t (∃ b ∈ (s.record i).messages, s.pool[b] ≠ none)
  sweep : u.sweep = s.sweep
  slot : u.air.slot = s.air.slot
  work : u.air.work = s.air.work
  tagCounter : u.roster.tagCounter = s.roster.tagCounter
  pagePointer : u.roster.pagePointer = s.roster.pagePointer
  passedOver : u.roster.passedOver = s.roster.passedOver
  held : u.roster.held = s.roster.held
  classes : ∀ c, c ≠ .airCheck → c ≠ .airDark → c ≠ .poolLow → u.classFlags c = s.classFlags c
  params : u.params = s.params
  inbound : u.inbound = s.inbound
  clock : u.clock = s.clock
  resetPending : u.resetPending = s.resetPending
  resetHeld : u.resetHeld = s.resetHeld
  rfReady : u.rfReady = s.rfReady
  pending : u.pending = s.pending

theorem Record.sameButSent.hard {r q : Record} (h : r.sameButSent q) : q.hard = r.hard := by
  obtain rfl | ⟨c, _, rfl⟩ := h <;> rfl

theorem State.recordFreed.too {s u t : State} {i : Fin 48} (h : u.recordFreed t i) (k : s.freesToo u i) :
    s.recordFreed t i := by
  have awaits : u.sweepAwaits i = s.sweepAwaits i := State.sweepAwaits_congr k.sweep k.mark
  have identity : (∃ j, j ≠ i ∧ (u.record j).hard ≠ none) = (∃ j, j ≠ i ∧ (s.record j).hard ≠ none) :=
    propext (exists_congr fun j => and_congr_right fun e => by rw [(k.others j e).hard])
  have plan' := k.classes .planFull (by decide) (by decide) (by decide)
  have ident' := k.classes .identity (by decide) (by decide) (by decide)
  have full' := k.classes .rosterFull (by decide) (by decide) (by decide)
  have link' := k.classes .linkDown (by decide) (by decide) (by decide)
  have port' := k.classes .portCheck (by decide) (by decide) (by decide)
  obtain ⟨own, beside, cells, pool, summons, pins, left, tag, page, passed, ⟨plan, low, ident, full, link, port⟩, rest⟩ := h
  have low' := k.low t pool low
  simp only [State.passedOverIn, State.planFreed, State.causeEnded, State.classReported, identity, k.carId, k.mark, k.contact,
    k.summons, k.pinned, k.cells, k.pool, k.sweep, k.slot, k.work, k.tagCounter, k.pagePointer, k.passedOver, k.held, k.params,
    k.inbound, k.clock, k.resetPending, k.resetHeld, k.rfReady, k.pending, awaits, plan', ident', full', link', port'] at *
  exact ⟨own, fun j e => (k.others j e).trans (beside j e), cells, pool, summons, pins, left, tag, page, passed,
    ⟨plan, low', ident, full, link, port⟩, rest⟩

/-- A state whose messages and buffers are the same. -/
theorem State.poolReported.of_same {s u t : State} {p q : Prop} (h : u.poolReported t p) (same : p ↔ q)
    (params : u.params = s.params) (flags : u.classFlags .poolLow = s.classFlags .poolLow) : s.poolReported t q := by
  unfold State.poolReported State.classReported at h ⊢
  rw [params, flags, same] at h
  exact h

theorem State.freesAlike.too {s u : State} {i : Fin 48} (k : s.freesAlike u i) : s.freesToo u i where
  carId := k.carId
  mark := k.mark
  contact := k.contact
  summons := by rw [k.summonCount, k.summoned]
  pinned := k.pinned
  others j e := .inl (k.others j e)
  cells := k.cells
  pool b := by rw [k.messages, k.pool]
  low t _ h := h.of_same (by rw [k.messages, k.pool]) k.params (k.classes .poolLow (by decide) (by decide))
  sweep := k.sweep
  slot := k.slot
  work := k.work
  tagCounter := k.tagCounter
  pagePointer := k.pagePointer
  passedOver := k.passedOver
  held := k.held
  classes c check dark _ := k.classes c check dark
  params := k.params
  inbound := k.inbound
  clock := k.clock
  resetPending := k.resetPending
  resetHeld := k.resetHeld
  rfReady := k.rfReady
  pending := k.pending

theorem State.freesToo.trans {s u v : State} {i : Fin 48} (h : s.freesToo u i) (k : u.freesToo v i) : s.freesToo v i where
  carId := k.carId.trans h.carId
  mark := k.mark.trans h.mark
  contact := k.contact.trans h.contact
  summons := k.summons.trans h.summons
  pinned := k.pinned.trans h.pinned
  others j e := (h.others j e).trans (k.others j e)
  cells := k.cells.trans h.cells
  pool b := (k.pool b).trans (h.pool b)
  low t pool low := h.low t (fun b => (pool b).trans (k.pool b)) (k.low t pool low)
  sweep := k.sweep.trans h.sweep
  slot := k.slot.trans h.slot
  work := k.work.trans h.work
  tagCounter := k.tagCounter.trans h.tagCounter
  pagePointer := k.pagePointer.trans h.pagePointer
  passedOver := k.passedOver.trans h.passedOver
  held := k.held.trans h.held
  classes c check dark pool := (k.classes c check dark pool).trans (h.classes c check dark pool)
  params := k.params.trans h.params
  inbound := k.inbound.trans h.inbound
  clock := k.clock.trans h.clock
  resetPending := k.resetPending.trans h.resetPending
  resetHeld := k.resetHeld.trans h.resetHeld
  rfReady := k.rfReady.trans h.rfReady
  pending := k.pending.trans h.pending

/-- Work on the record that a return to FREE undoes, or that it does not see. -/
theorem State.touches.freesToo {s t : State} {i : Fin 48} {r : Record} {l : List Reason} (h : s.touches t i r l)
    (carId : r.carId = (s.record i).carId) (mark : r.mark = (s.record i).mark) (contact : r.contact = (s.record i).contact)
    (summoned : r.summoned = (s.record i).summoned) (pinned : r.pinned = (s.record i).pinned)
    (messages : r.messages = (s.record i).messages) : s.freesToo t i := by
  have frame := h.frame
  have record := h.record
  have others := h.others
  have classes := h.classes
  generalize t.roster.records = records at frame
  generalize t.host.attention = attention at frame
  refine ⟨by rw [record, carId], by rw [record, mark], by rw [record, contact], ?_, ?_, fun j e => .inl (others j e), by rw [frame],
    fun b => by rw [record, messages, h.pool], fun t' _ low => low.of_same (by rw [record, messages, h.pool]) h.params
      (classes .poolLow List.not_mem_nil), h.sweep, by rw [h.air], by rw [h.air], by rw [frame], by rw [frame], by rw [frame],
    by rw [frame], fun c _ _ _ => classes c List.not_mem_nil, h.params, h.inbound, by rw [frame], by rw [frame], by rw [frame],
    by rw [frame], by rw [frame]⟩
  · rw [record, summoned, h.summonCount]
  · rw [record, pinned, h.pinnedCount]

/-- The end of a summons, which a return to FREE ends if it stands (R90). -/
theorem State.endSummon_freesToo (s : State) (i : Fin 48) (o : SummonOutcome) : s.freesToo (s.endSummon i o) i := by
  obtain ⟨own, others, tail⟩ := s.endSummon_spec i o
  simp only [State.tail, Prod.mk.injEq] at tail
  obtain ⟨tag, page, count, pins, held, passed⟩ := tail
  have calm := s.endSummon_calm i o
  have quiet := s.endSummon_quiet i o
  have air := s.endSummon_air i o
  have pool := s.endSummon_pool i o
  have classes (c : ConditionClass) := State.classFlags_congr (s.endSummon_conditions i o) c
  refine ⟨by rw [own], by rw [own], by rw [own], by rw [own, count]; rfl, by rw [own, pins], fun j e => .inl (others j e),
    s.endSummon_cells i o, fun b => by rw [own, pool], fun t _ low => low.of_same (by rw [own, pool]) (State.params_of_calm calm)
      (classes .poolLow), s.endSummon_sweep i o, by rw [air], by rw [air], tag, page, passed, held, fun c _ _ _ => classes c,
    State.params_of_calm calm, State.inbound_of_quiet quiet, State.clock_of_calm calm, State.resetPending_of_calm calm,
    State.resetHeld_of_calm calm, State.rfReady_of_quiet quiet, State.pending_of_calm calm⟩

end Sys2Proof.Machine

/-! An attempt before a return to FREE -/

namespace Sys2Proof.Machine

/-! ## A message's attempt before a return to FREE (R39, R111, R113) -/

section
variable {s : State} {i : Fin 48} {b : Fin 64} {m : Message}

theorem State.failMessage_tail (s : State) (i : Fin 48) : (s.failMessage i).tail = s.tail := by
  unfold State.failMessage
  cases (s.record i).inFlight with
  | none => rfl
  | some b =>
      dsimp only
      cases s.pool[b] with
      | none => rfl
      | some m =>
          dsimp only
          split
          · rw [State.noteFor_tail, State.setSoft_tail]
            rfl
          · rfl

theorem State.freeBuffers_congr {s t : State} (h : ∀ b : Fin 64, t.pool[b] = s.pool[b]) : t.freeBuffers = s.freeBuffers := by
  have same : t.pool = s.pool := Vector.ext fun n hn => h ⟨n, hn⟩
  unfold State.freeBuffers
  rw [same]

/-- POOL_LOW after a change of a buffer of the record's list and its return to FREE. -/
theorem State.bufferSet.low {s u t : State} {i : Fin 48} {b : Fin 64} {m : Option Message} (set : s.bufferSet u b m)
    (mem : b ∈ (s.record i).messages) (held : s.pool[b] ≠ none) (params : u.params = s.params)
    (pool : ∀ c : Fin 64, t.pool[c] = if c ∈ (u.record i).messages then none else u.pool[c])
    (low : u.poolReported t (∃ c ∈ (u.record i).messages, u.pool[c] ≠ none)) :
    s.poolReported t (∃ c ∈ (s.record i).messages, s.pool[c] ≠ none) := by
  have first := set.reported.1 trivial
  refine ⟨fun _ => ?_, fun none => absurd ⟨b, mem, held⟩ none⟩
  by_cases more : ∃ c ∈ (u.record i).messages, u.pool[c] ≠ none
  · have second := low.1 more
    rw [params] at second
    exact first.trans second
  · have same := low.2 more
    have free : t.freeBuffers = u.freeBuffers := by
      refine State.freeBuffers_congr fun c => ?_
      rw [pool]
      split
      next listed =>
        by_contra other
        exact more ⟨c, listed, fun e => other e.symm⟩
      next => rfl
    unfold State.classReported at first ⊢
    rw [same, free]
    exact first

/-- A message that failed before a return to FREE (R111). -/
theorem State.failMessage_freesToo (flight : (s.record i).inFlight = some b) (held : s.pool[b] = some m)
    (mem : b ∈ (s.record i).messages) : s.freesToo (s.failMessage i) i := by
  have tail := s.failMessage_tail i
  have quiet := s.failMessage_quiet i
  have calm := State.calm_of_quiet quiet
  simp only [State.tail, Prod.mk.injEq] at tail
  obtain ⟨tag, page, count, pins, works, passed⟩ := tail
  have some_ : s.pool[b] ≠ none := by rw [held]; exact Option.some_ne_none m
  by_cases last : s.params.attemptLimit ≤ m.tried.attempts
  · have gone := State.failMessage_gone flight held last
    generalize s.failMessage i = u at *
    have own : (u.record i).carId = (s.record i).carId ∧ (u.record i).mark = (s.record i).mark ∧
        (u.record i).contact = (s.record i).contact ∧ (u.record i).summoned = (s.record i).summoned ∧
        (u.record i).pinned = (s.record i).pinned ∧ (u.record i).messages = (s.record i).messages.erase b := by
      obtain e | ⟨c, _, e⟩ := gone.record <;> rw [e] <;> exact ⟨rfl, rfl, rfl, rfl, rfl, rfl⟩
    obtain ⟨carId, mark, contact, summoned, pinned, messages⟩ := own
    have set := gone.buffer.pool
    refine ⟨carId, mark, contact, by rw [summoned, count], by rw [pinned, pins], gone.others, gone.cells, fun c => ?_,
      fun t pool low => gone.buffer.low mem some_ gone.params pool low, gone.sweep, by rw [gone.air], by rw [gone.air], tag, page,
      passed, works, fun c _ _ notPool => gone.buffer.classes c (by simpa using notPool), gone.params, gone.inbound,
      State.clock_of_calm calm, State.resetPending_of_calm calm, State.resetHeld_of_calm calm, State.rfReady_of_quiet quiet,
      State.pending_of_calm calm⟩
    have read : u.pool[c] = if b = c then none else s.pool[c] := by
      rw [set]
      show (s.pool.set b.val none)[c.val] = _
      rw [Vector.getElem_set]
      simp only [Fin.ext_iff]
      rfl
    rw [messages, read]
    by_cases e : b = c
    · subst e
      rw [if_pos mem, if_pos rfl, ite_self]
    · rw [if_neg e]
      exact if_congr (List.mem_erase_of_ne (Ne.symm e)) rfl rfl
  · have again := State.failMessage_tried flight held (Nat.not_le.1 last)
    have set := s.setBuffer_set b (some m.tried)
    rw [again] at tag page count pins works passed quiet calm ⊢
    refine ⟨rfl, rfl, rfl, rfl, rfl, fun j _ => .inl rfl, rfl, fun c => ?_,
      fun t pool low => set.low mem some_ rfl pool low, rfl, rfl, rfl, rfl, rfl, rfl, rfl,
      fun c _ _ notPool => set.classes c (by simpa using notPool), rfl, rfl, rfl, rfl, rfl, rfl, rfl⟩
    show (if c ∈ (s.record i).messages then none else (s.pool.set b.val (some m.tried))[c.val]) = _
    rw [Vector.getElem_set]
    by_cases e : b.val = c.val
    · have same : b = c := Fin.ext e
      subst same
      rw [if_pos mem, if_pos mem]
    · rw [if_neg e]
      rfl

end

end Sys2Proof.Machine

/-! The lapse of a grant, and the other returns to FREE at a slot end -/

namespace Sys2Proof.Machine

/-! ## The lapse of a grant, and the other returns to FREE at a slot end (R56, R86, R93) -/

/-- A reason among those offered is told, if none of the others takes its place. -/
theorem State.tells.told_mem {s t : State} {i : Fin 48} {l : List Reason} {reason : Reason} (h : s.tells t i l)
    (mem : reason ∈ l) (kept : ∀ other ∈ l, reason.keptBy other) : s.told t i reason := by
  obtain ⟨earlier, later, split⟩ := List.append_of_mem mem
  rw [split] at h kept
  exact State.tells.told h fun other later => kept other (by simp [later])

/-- Record `i` returned to FREE with the reason RETIRED, its summons ended with an outcome if it had one. -/
structure State.retiredFree (s t : State) (i : Fin 48) (o : SummonOutcome) : Prop where
  freed : s.recordFreed t i
  tells : s.tells t i ((if (s.record i).summoned then [.summonEnded o] else []) ++ [.retired])
  grants : t.air.grants = s.air.grants.filter fun j => j != i
  ports : ∀ w : State, w.transmittersServed → s.transmittersServed → s.ports = w.ports → s.params = w.params →
    (s.record i).messages.Nodup →
    t.ports = (w.noteEachDropped (s.record i).carId (s.listed (s.record i))).ports

theorem State.becomeFree_portsFrom {w u : State} (served : w.transmittersServed) (served' : u.transmittersServed)
    (ports : u.ports = w.ports) (params : u.params = w.params) (i : Fin 48) (reason : Option Reason)
    (nodup : (u.record i).messages.Nodup) :
    (u.becomeFree i true reason).ports = (w.noteEachDropped (u.record i).carId (u.listed (u.record i))).ports := by
  rw [State.becomeFree_ports u i reason served' nodup]
  exact State.noteEachDropped_served served served' ports params _ _

theorem State.becomeFree_retired (s : State) (i : Fin 48) :
    s.retiredFree (s.becomeFree i true (some .retired)) i .cancelled := by
  obtain ⟨freed, air, _⟩ := s.becomeFree_freed i true (some .retired)
  exact ⟨freed, s.becomeFree_tells i true (some .retired), congrArg Air.grants air,
    fun w served served' ports params nodup => State.becomeFree_portsFrom served served' ports params i _ nodup⟩

/-- A return to FREE after the failure of the summons and, perhaps, work on the record that the return undoes. -/
theorem State.becomeFree_failed {s u : State} {i : Fin 48}
    (k : (s.endSummon i .failed).touches u i { (s.endSummon i .failed).record i with handover := (u.record i).handover } [])
    (keeps : s.transmittersServed → u.transmittersServed) : s.retiredFree (u.becomeFree i true (some .retired)) i .failed := by
  obtain ⟨own, others, _⟩ := s.endSummon_spec i .failed
  have too := k.freesToo rfl rfl rfl rfl rfl rfl
  have record := k.record
  rw [own] at record
  obtain ⟨freed, air, _⟩ := u.becomeFree_freed i true (some .retired)
  have summoned : (u.record i).summoned = false := by rw [record]
  have ended := (s.endSummon_tells i .failed).trans k.tells (State.params_of_calm (s.endSummon_calm i .failed))
  have params := k.params.trans (State.params_of_calm (s.endSummon_calm i .failed))
  have freeTells := u.becomeFree_tells i true (some .retired)
  rw [summoned] at freeTells
  have uAir := k.air.trans (s.endSummon_air i .failed)
  have ports := k.ports.trans (s.endSummon_ports i .failed)
  have pool := k.pool.trans (s.endSummon_pool i .failed)
  refine ⟨(freed.too too).too (s.endSummon_freesToo i .failed), ?_, ?_, fun w served served' hports hparams nodup => ?_⟩
  · have told := ended.trans freeTells params
    rw [List.append_nil] at told
    exact told
  · rw [air, uAir]
  · have uServed := keeps served'
    have listed : u.listed (u.record i) = s.listed (s.record i) := by
      unfold State.listed
      rw [pool, record]
    have rest := State.becomeFree_portsFrom served uServed (ports.trans hports) (params.trans hparams) i (some .retired)
      (by rw [record]; exact nodup)
    rw [listed, record] at rest
    exact rest

/-- An unpinned record's grant lapses (R56). -/
theorem State.lapseGrant_free {s : State} {i : Fin 48} (h : (s.record i).pinned = false) :
    s.retiredFree (s.lapseGrant i) i .failed := by
  have dropped := (s.endSummon i .failed).dropClaim_touches i
  have same : (((s.endSummon i .failed).dropClaim i).record i).pinned = false := by
    obtain ⟨own, _⟩ := s.endSummon_spec i .failed
    rw [dropped.record, own]
    exact h
  have free : s.lapseGrant i = ((s.endSummon i .failed).dropClaim i).becomeFree i true (some .retired) := by
    unfold State.lapseGrant
    dsimp only
    rw [same]
    rfl
  rw [free]
  refine State.becomeFree_failed (dropped.of_eq ?_ rfl) fun served => ?_
  · rw [dropped.record]
  · exact (State.dropClaim_stays _ i).served ((s.endSummon_stays i .failed).served served)

/-- Record `i` is DORMANT after its stay ended, its grant withdrawn, and became `r`, with reasons for it. -/
structure State.slept (s t : State) (i : Fin 48) (r : Record) (reasons : List Reason) : Prop where
  record : t.record i = r
  others : ∀ j, j ≠ i → t.record j = s.record j
  tells : s.tells t i reasons
  freed : s.cellsFreed t (heldBy i)
  pool : t.pool = s.pool
  ports : t.ports = s.ports
  inbound : t.inbound = s.inbound
  params : t.params = s.params
  grants : t.air.grants = s.air.grants.filter fun j => j != i
  pinnedCount : t.roster.pinnedCount = s.roster.pinnedCount

/-- A record that gives up its turn after its grant was withdrawn. -/
theorem State.gaveUp.withdrawn {s t : State} {i : Fin 48} {r : Record} {l : List Reason} (h : (s.withdrawGrant i).gaveUp t i r l) :
    s.slept t i r l :=
  ⟨h.record, h.others, h.tells, h.freed.congr rfl rfl rfl rfl, h.pool, h.ports, h.inbound, h.params, congrArg Air.grants h.air,
    h.pinnedCount⟩

/-- A pinned record's grant lapses (R23, R56). -/
theorem State.lapseGrant_dormant {s : State} {i : Fin 48} (h : (s.record i).pinned = true) :
    s.slept (s.lapseGrant i) i
        { s.record i with
          turn := none, retune := none, contact := .dormant, pageCount := 0, lastHanding := none, summoned := false,
          handover := droppedClaim (s.record i).handover }
        ((if (s.record i).summoned then [.summonEnded .failed] else []) ++ [.dormant]) ∧
      (s.lapseGrant i).roster.summonCount = s.roster.summonCount - (if (s.record i).summoned then 1 else 0) ∧
      (s.lapseGrant i).sweep = s.sweep := by
  have ended := s.endSummon_meets i .failed
  have dropped := (s.endSummon i .failed).dropClaim_touches i
  obtain ⟨_, _, tail⟩ := s.endSummon_spec i .failed
  simp only [State.tail, Prod.mk.injEq] at tail
  obtain ⟨_, _, count, pins, _⟩ := tail
  have before := ended.trans dropped.meets
  rw [ended.record, List.append_nil] at before
  have dropCount : ((s.endSummon i .failed).dropClaim i).roster.summonCount =
      s.roster.summonCount - (if (s.record i).summoned then 1 else 0) := dropped.summonCount.trans count
  have dropPins := dropped.pinnedCount.trans pins
  have dropSweep := dropped.sweep.trans (s.endSummon_sweep i .failed)
  have lapsed : s.lapseGrant i = ((((s.endSummon i .failed).dropClaim i).withdrawGrant i).giveUpTurn i).becomeDormant i := by
    unfold State.lapseGrant
    dsimp only
    rw [before.record, h]
    rfl
  rw [lapsed]
  clear lapsed dropped count pins ended
  generalize (s.endSummon i .failed).dropClaim i = u at *
  have given := (u.withdrawGrant i).dormant_gaveUp i
  have slept := given.withdrawn
  refine ⟨⟨?_, fun j e => (slept.others j e).trans (before.others j e), before.tells.trans slept.tells before.params,
    slept.freed.congr before.cells.symm before.conditions.symm rfl rfl, slept.pool.trans before.pool,
    slept.ports.trans before.ports, slept.inbound.trans before.inbound, slept.params.trans before.params, ?_,
    slept.pinnedCount.trans dropPins⟩, given.summonCount.trans dropCount, given.sweep.trans dropSweep⟩
  · rw [slept.record]
    show { u.record i with turn := none, retune := none, contact := .dormant, pageCount := 0, lastHanding := none } = _
    rw [before.record]
  · rw [slept.grants, before.air]

/-! ## An exchange whose miss ends the turn (R56, R80 to R82) -/

/-- The message of a POLL that drew no acknowledgement. -/
def State.attempt (s : State) (i : Fin 48) (poll : Poll) : State := if poll.message.isSome then s.failMessage i else s

theorem State.missedExchange_lapse {s : State} {i : Fin 48} {poll : Poll} {o : ExchangeOutcome}
    (due : (((s.countMiss i true).noteOutcome i true o).attempt i poll).lapseDue i = true) :
    s.missedExchange i true poll o = (((s.countMiss i true).noteOutcome i true o).attempt i poll).lapse i := by
  unfold State.missedExchange
  exact if_pos (Bool.and_eq_true _ _ ▸ ⟨rfl, due⟩)

theorem State.missedExchange_lapseGrant {s : State} {i : Fin 48} {poll : Poll} {o : ExchangeOutcome} (retune : poll.retune = none)
    (still : (((s.countMiss i true).noteOutcome i true o).attempt i poll).lapseDue i = false)
    (due : (((s.countMiss i true).noteOutcome i true o).attempt i poll).grantLapseDue i = true) :
    s.missedExchange i true poll o = (((s.countMiss i true).noteOutcome i true o).attempt i poll).lapseGrant i := by
  unfold State.attempt at *
  unfold State.missedExchange
  rw [retune]
  dsimp only [Option.isSome] at *
  rw [if_neg (by rw [still]; decide), if_neg Bool.false_ne_true, due]
  rfl

end Sys2Proof.Machine

/-! What a lost turn leaves at the end of a slot -/

namespace Sys2Proof.Machine

/-! ## What a lost turn leaves at the end of a slot -/

/-- The cells and the classes after a turn was given up in a judged exchange. -/
theorem State.cellsFreed.atEnd {s c w v : State} {i : Fin 48} (freed : w.cellsFreed v (heldBy i))
    (window : ∃ result, c = s.countWindow result) (cells : w.cells = c.cells) (conditions : w.conditions = c.conditions) :
    (∀ n : Fin 232, v.turnLeft.cells[n] = if heldBy i s.cells[n] then none else s.cells[n]) ∧
      s.planFreed v.turnLeft (heldBy i) ∧ s.onlyClasses v.turnLeft [.planFull, .airCheck] := by
  obtain ⟨result, rfl⟩ := window
  have windowCells := (s.countWindow_kept result).1
  have windowClasses := s.countWindow_classes result
  have flags (cl : ConditionClass) : w.classFlags cl = (s.countWindow result).classFlags cl := State.classFlags_congr conditions cl
  obtain ⟨freedCells, ⟨ending, keeping⟩, classes⟩ := freed
  rw [flags, windowClasses .planFull (by decide)] at ending keeping
  simp only [cells, windowCells] at freedCells ending keeping
  refine ⟨fun n => ?_, ?_, fun cl hcl => ?_⟩
  · rw [State.turnLeft_cells]
    exact freedCells n
  · unfold State.planFreed State.causeEnded
    rw [State.turnLeft_classFlags]
    exact ⟨ending, keeping⟩
  · simp only [List.mem_cons, List.not_mem_nil, or_false, not_or] at hcl
    obtain ⟨notPlan, notCheck⟩ := hcl
    rw [State.turnLeft_classFlags, classes cl (by simpa using notPlan), flags, windowClasses cl (by simpa using notCheck)]

/-- A window counted before a return to FREE. -/
theorem State.countWindow_freesToo (s : State) (result : WindowResult Answer) (i : Fin 48) :
    s.freesToo (s.countWindow result) i := by
  have frame := s.countWindow_frame result
  have classes := s.countWindow_classes result
  generalize s.countWindow result = c at *
  have record (j : Fin 48) : c.record j = s.record j := by rw [frame]; rfl
  refine ⟨by rw [record], by rw [record], by rw [record], by rw [record, frame], by rw [record, frame],
    fun j _ => .inl (record j), by rw [frame], fun b => by rw [record, frame], fun t _ low => low.of_same ?_ (by rw [frame])
      (classes .poolLow (by decide)), by rw [frame], by rw [frame], by rw [frame], by rw [frame], by rw [frame], by rw [frame],
    by rw [frame], fun cl check _ _ => classes cl (by simpa using check), by rw [frame], by rw [frame], by rw [frame],
    by rw [frame], by rw [frame], by rw [frame], by rw [frame]⟩
  rw [record, frame]

/-- The counts of a miss before a return to FREE. -/
theorem State.missedBy.freesToo {s : State} {x : Exchange} {soft : Option SoftFault} {mismatches : Nat}
    (missed : s.missedBy x soft mismatches) (light : s.air.light = .ready) : s.freesToo (s.missJudged x) x.record := by
  have record := s.countWindow_record (s.air.judge decodeAnswer) x.record
  refine (s.countWindow_freesToo (s.air.judge decodeAnswer) x.record).trans ((missed.touches light).1.freesToo ?_ ?_ ?_ ?_ ?_ ?_) <;>
    rw [record] <;> rfl

theorem State.missJudged_served {s : State} (x : Exchange) (served : s.transmittersServed) :
    (s.missJudged x).transmittersServed :=
  (((s.countWindow_stays _).trans (State.countMiss_stays _ _ _)).trans (State.noteOutcome_stays _ _ _ _)).served served

/-- A return to FREE whose state the slot then leaves. -/
theorem State.recordFreed.turnLeft {s t : State} {i : Fin 48} (h : s.recordFreed t i) (unheld : s.roster.held = []) :
    s.recordFreed t.turnLeft i := by
  obtain ⟨own, beside, cells, pool, summons, pins, left, tag, page, passed, ⟨plan, low, ident, full, link, port⟩, held, params,
    inbound, clock, pending, resetHeld, rf, waiting⟩ := h
  have frame := t.turnLeft_frame
  have flags (c : ConditionClass) : t.turnLeft.classFlags c = t.classFlags c := State.turnLeft_classFlags t c
  have free : t.turnLeft.freeBuffers = t.freeBuffers := State.freeBuffers_congr fun b => by rw [State.turnLeft_pool]
  have listed : t.turnLeft.onAttention i = t.onAttention i := by
    unfold State.onAttention
    rw [State.turnLeft_host]
  simp only [State.planFreed, State.poolReported, State.causeEnded, State.classReported] at plan low ident full
  refine ⟨by rw [State.turnLeft_record]; exact own, fun j e => by rw [State.turnLeft_record]; exact beside j e, fun k => ?_,
    fun b => ?_, by rw [State.turnLeft_summonCount, summons], by rw [State.turnLeft_pinnedCount, pins],
    by rw [State.turnLeft_left, left], ?_, ?_, ?_, ⟨?_, ?_, ?_, ?_, (flags _).trans link, (flags _).trans port⟩, ?_, ?_, ?_, ?_, ?_,
    ?_, ?_, ?_⟩
  · rw [State.turnLeft_cells]
    exact cells k
  · rw [State.turnLeft_pool]
    exact pool b
  · rw [State.turnLeft_roster]
    exact tag
  · rw [State.turnLeft_roster]
    exact page
  · unfold State.passedOverIn
    rw [State.turnLeft_roster]
    exact passed
  · simp only [State.planFreed, State.causeEnded, flags]
    exact plan
  · simp only [State.poolReported, State.classReported, flags, free]
    exact low
  · simp only [State.classReported, flags]
    exact ident
  · simp only [State.causeEnded, flags, listed]
    exact full
  · rw [State.turnLeft_roster, unheld]
  · rw [State.turnLeft_params, params]
  · rw [State.turnLeft_inbound, inbound]
  · rw [frame]
    exact clock
  · rw [frame]
    exact pending
  · rw [frame]
    exact resetHeld
  · rw [frame]
    exact rf
  · rw [frame]
    exact waiting

/-- The reasons of an exchange that ends a turn. -/
def endReasons : List Reason := [.softFault, .lapsed, .retired, .dormant, .summonEnded .failed]

/-- They stand beside each other on a record's entry. -/
theorem keptBy_ends : ∀ reason ∈ endReasons, ∀ other ∈ endReasons, reason.keptBy other := by
  unfold Reason.keptBy
  decide

theorem missReasons_ends {own : Bool} {o : ExchangeOutcome} {r : Reason} (h : r ∈ missReasons own o) : r ∈ endReasons := by
  rw [missReasons_soft h]
  decide

/-! ## The exchanges that end a turn -/

section
variable {s : State} {k : Fin 32} {x : Exchange} {soft : Option SoftFault} {mismatches : Nat}

theorem State.endsExchange.lapses (h : s.endsExchange k x) (role : x.role = .turn) (missed : s.missedBy x soft mismatches)
    (due : ((s.missJudged x).attempt x.record x.poll).lapseDue x.record = true) :
    exec .slotEnd s = .next (((s.missJudged x).attempt x.record x.poll).lapse x.record).turnLeft := by
  obtain ⟨_, outcome⟩ := missed.touches h.light
  unfold State.missJudged at *
  rw [h.slotEnds, State.judgeExchange_missed h.release outcome]
  rw [role] at *
  exact congrArg (fun t => Host.Outcome.next (State.turnLeft t)) (State.missedExchange_lapse due)

theorem State.endsExchange.lapsesGrant (h : s.endsExchange k x) (role : x.role = .turn) (retune : x.poll.retune = none)
    (missed : s.missedBy x soft mismatches) (still : ((s.missJudged x).attempt x.record x.poll).lapseDue x.record = false)
    (due : ((s.missJudged x).attempt x.record x.poll).grantLapseDue x.record = true) :
    exec .slotEnd s = .next (((s.missJudged x).attempt x.record x.poll).lapseGrant x.record).turnLeft := by
  obtain ⟨_, outcome⟩ := missed.touches h.light
  unfold State.missJudged at *
  rw [h.slotEnds, State.judgeExchange_missed h.release outcome]
  rw [role] at *
  exact congrArg (fun t => Host.Outcome.next (State.turnLeft t)) (State.missedExchange_lapseGrant retune still due)

end

end Sys2Proof.Machine

/-! The end of a slot in which a turn ended -/

namespace Sys2Proof.Machine

/-! ## The end of a slot in which a turn ended (R23, R56, R64, R82) -/

/-- `t` is `s` after record `i` gave up its turn and its cells and became `r`, with reasons for it: what the ends of a stay
share. -/
structure State.turnGone (s t : State) (i : Fin 48) (r : Record) (reasons : List Reason) : Prop where
  record : t.record i = r
  others : ∀ j, j ≠ i → t.record j = s.record j
  tells : s.tells t i reasons
  freed : s.cellsFreed t (heldBy i)
  pool : t.pool = s.pool
  ports : t.ports = s.ports
  inbound : t.inbound = s.inbound
  params : t.params = s.params

section
variable {s c w v t u : State} {i : Fin 48} {r q : Record} {l m : List Reason}

theorem State.gaveUp.gone (h : s.gaveUp t i r l) : s.turnGone t i r l :=
  ⟨h.record, h.others, h.tells, h.freed, h.pool, h.ports, h.inbound, h.params⟩

theorem State.slept.gone (h : s.slept t i r l) : s.turnGone t i r l :=
  ⟨h.record, h.others, h.tells, h.freed, h.pool, h.ports, h.inbound, h.params⟩

/-- `t` is `s` after a slot end in which record `i` gave up its turn and became `r`, and the window was counted. -/
structure State.turnEnded (s t : State) (i : Fin 48) (r : Record) (reasons : List Reason) : Prop where
  record : t.record i = r
  others : ∀ j, j ≠ i → t.record j = s.record j
  tells : s.tells t i reasons
  cells : ∀ n : Fin 232, t.cells[n] = if heldBy i s.cells[n] then none else s.cells[n]
  plan : s.planFreed t (heldBy i)
  classes : s.onlyClasses t [.planFull, .airCheck]
  pool : t.pool = s.pool
  ports : t.ports = s.ports
  inbound : t.inbound = s.inbound

theorem State.turnGone.atEnd (gone : w.turnGone v i r m) (window : ∃ result, c = s.countWindow result)
    (touched : c.touches w i q l) : s.turnEnded v.turnLeft i r (l ++ m) := by
  obtain ⟨cells, plan, classes⟩ := gone.freed.atEnd window touched.cells touched.conditions
  obtain ⟨result, rfl⟩ := window
  obtain ⟨_, pool, ports, inbound, params, _⟩ := s.countWindow_kept result
  refine ⟨(State.turnLeft_record ..).trans gone.record, fun j e => ?_, ?_, cells, plan, classes, ?_, ?_, ?_⟩
  · rw [State.turnLeft_record, gone.others j e, touched.others j e, State.countWindow_record]
  · have told := (touched.tells.trans gone.tells touched.params).before params (s.countWindow_attention result)
    exact told.after (congrArg HostPort.attention (State.turnLeft_host _))
  · rw [State.turnLeft_pool, gone.pool, touched.pool, pool]
  · rw [State.turnLeft_ports, gone.ports, touched.ports, ports]
  · rw [State.turnLeft_inbound, gone.inbound, touched.inbound, inbound]

end

/-! ## The message of a POLL in an exchange without a match, before the turn ends (R111, R112) -/

/-- `t` is `s` after the message `m` in buffer `b` of record `i` was tried, or dropped, in an exchange that was not MATCHED,
and the record became `r`, but for a frame of its context that the NOTE's port may have begun. -/
structure State.messageJudged (s t : State) (i : Fin 48) (b : Fin 64) (m : Message) (dropped : Bool) (r : Record)
    (reasons : List Reason) : Prop where
  record : r.sameButSent (t.record i)
  others : ∀ j, j ≠ i → (s.record j).sameButSent (t.record j)
  tells : s.tells t i reasons
  faulted : dropped = true → Reason.softFault ∈ reasons
  pool : t.pool = s.pool.set b (if dropped then none else some m.tried)
  ports : dropped = false → t.ports = s.ports
  note : dropped = true → s.noteSent t m (m.note s (s.record i).carId .dropped)
  reported : s.poolReported t True
  classes : s.onlyClasses t [.poolLow, .airCheck]
  cells : t.cells = s.cells
  inbound : t.inbound = s.inbound
  params : t.params = s.params
  grants : t.air.grants = s.air.grants
  left : t.sweep.left = s.sweep.left

section
variable {s w u v : State} {i : Fin 48} {b : Fin 64} {m : Message} {q r : Record} {l after : List Reason} {dropped : Bool}

theorem State.poolReported_turnLeft {p : Prop} : s.poolReported u.turnLeft p ↔ s.poolReported u p := by
  have free : u.turnLeft.freeBuffers = u.freeBuffers := State.freeBuffers_congr fun c => by rw [State.turnLeft_pool]
  unfold State.poolReported State.classReported
  rw [State.turnLeft_classFlags, free]

theorem State.judging.tells (h : s.judging w i q l) : s.tells w i l := by
  obtain ⟨c, ⟨result, rfl⟩, worked, _⟩ := h
  exact worked.tells.before (State.countWindow_params ..) (State.countWindow_attention ..)

/-- The message of a POLL that failed, after the counts of the exchange. -/
theorem State.judging.judged (h : s.judging w i q l) (air : w.air.grants = s.air.grants) (left : w.sweep.left = s.sweep.left)
    (flight : (s.record i).inFlight = some b) (held : s.pool[b] = some m)
    (drop : dropped = decide (s.params.attemptLimit ≤ m.tried.attempts)) :
    s.messageJudged (w.failMessage i) i b m dropped
      (if dropped then { q.retired b with soft := some .dropped } else q)
      (l ++ if dropped then [.softFault] else []) := by
  have flight' := h.flight flight
  have held' : w.pool[b] = some m := by rw [h.pool]; exact held
  have params := h.params
  subst drop
  by_cases last : s.params.attemptLimit ≤ m.tried.attempts
  · rw [decide_eq_true last]
    have gone := State.failMessage_gone flight' held' (by rw [params]; exact last)
    rw [h.record] at gone
    have departed := h.departed gone (State.meets_same _ i)
    generalize w.failMessage i = u at *
    obtain ⟨_, others, tells, pool, reported, classes, note, cells, inbound⟩ := departed
    simp only [State.turnLeft_record, State.turnLeft_pool, State.turnLeft_cells, State.turnLeft_inbound] at others pool cells inbound
    rw [List.append_nil] at tells
    exact ⟨gone.record, others, tells.after (congrArg HostPort.attention (State.turnLeft_host u).symm),
      fun _ => List.mem_append_right _ (List.mem_singleton_self _), pool, nofun, fun _ => note.after (State.turnLeft_ports u).symm,
      State.poolReported_turnLeft.1 reported, fun cl hcl => (State.turnLeft_classFlags u cl).symm.trans (classes cl hcl), cells, inbound,
      gone.params.trans params, (congrArg Air.grants gone.air).trans air, (congrArg Sweep.left gone.sweep).trans left⟩
  · rw [decide_eq_false last]
    have attempted := h.attempted (State.meets_same (w.setBuffer b (some m.tried)) i)
    rw [State.failMessage_tried flight' held' (by rw [params]; exact Nat.not_le.1 last)]
    obtain ⟨_, pool, reported, classes, others, cells, ports, inbound⟩ := attempted
    simp only [State.turnLeft_record, State.turnLeft_pool, State.turnLeft_cells, State.turnLeft_inbound, State.turnLeft_ports]
      at others pool cells inbound ports
    refine ⟨.inl h.record, fun j e => .inl (others j e), ?_, nofun, pool, fun _ => ports, nofun, State.poolReported_turnLeft.1 reported,
      fun cl hcl => (State.turnLeft_classFlags _ cl).symm.trans (classes cl hcl), cells, inbound, params, air, left⟩
    rw [if_neg Bool.false_ne_true, List.append_nil]
    exact h.tells

/-- A turn that ends after the message of the POLL was judged. -/
theorem State.messageJudged.turnLost (h : s.messageJudged u i b m dropped q l) (gone : u.turnGone v i r after)
    (left : v.sweep.left = u.sweep.left) (ends : ∀ reason ∈ l ++ after, reason ∈ endReasons) :
    s.turnLost v.turnLeft i b m dropped ∧ s.tells v.turnLeft i (l ++ after) := by
  have tells := (h.tells.trans gone.tells h.params).after (congrArg HostPort.attention (State.turnLeft_host v))
  obtain ⟨freed, ⟨ending, keeping⟩, classes⟩ := gone.freed
  have plan : u.classFlags .planFull = s.classFlags .planFull := h.classes .planFull (by decide)
  rw [plan] at ending keeping
  simp only [h.cells] at freed ending keeping
  refine ⟨⟨?_, fun kept => ?_, fun drop => ⟨?_, ?_⟩, fun j e => ?_, fun n => ?_, ?_, ?_, fun cl hcl => ?_, ?_, ?_⟩, tells⟩
  · rw [State.turnLeft_pool, gone.pool, h.pool]
  · rw [State.turnLeft_ports, gone.ports, h.ports kept]
  · exact tells.told_mem (List.mem_append_left _ (h.faulted drop)) fun other mem => keptBy_ends _ (by decide) _ (ends other mem)
  · exact (h.note drop).after ((State.turnLeft_ports v).trans gone.ports)
  · rw [State.turnLeft_record, gone.others j e]
    exact h.others j e
  · rw [State.turnLeft_cells]
    exact freed n
  · unfold State.planFreed State.causeEnded
    rw [State.turnLeft_classFlags]
    exact ⟨ending, keeping⟩
  · refine State.poolReported_turnLeft.2 ?_
    have low := classes .poolLow (by decide)
    have free : v.freeBuffers = u.freeBuffers := State.freeBuffers_congr fun c => by rw [gone.pool]
    have reported := h.reported
    unfold State.poolReported State.classReported at reported ⊢
    rw [low, free]
    exact reported
  · simp only [List.mem_cons, List.not_mem_nil, or_false, not_or] at hcl
    obtain ⟨notPlan, notPool, notCheck⟩ := hcl
    rw [State.turnLeft_classFlags, classes cl (by simpa using notPlan), h.classes cl (by simp [notPool, notCheck])]
  · rw [State.turnLeft_left, left, h.left]
  · rw [State.turnLeft_inbound, gone.inbound, h.inbound]

end

end Sys2Proof.Machine

/-! The NOTEs of a return to FREE after an attempt -/

namespace Sys2Proof.Machine

/-! ## The NOTEs of a return to FREE after an attempt (R39, R111, R113) -/

/-- What a message's NOTE depends on. -/
def Message.notice (m : Message) : Source × Bool := (m.source, m.receipt)

theorem State.noteEachDropped_congr {l m : List Message} (h : l.map Message.notice = m.map Message.notice) (s : State) (car : Nat) :
    s.noteEachDropped car l = s.noteEachDropped car m := by
  have folded (l : List Message) : s.noteEachDropped car l =
      (l.map Message.notice).foldl (fun w n => w.noteFor car n.1 n.2 .dropped) s := by
    rw [List.foldl_map]
    rfl
  rw [folded, folded, h]

section
variable {s w t : State} {i : Fin 48} {b : Fin 64} {m : Message} {o : SummonOutcome}

/-- The messages of a record after an attempt of one of them send the NOTEs they would have sent. -/
theorem State.listed_setBuffer (held : s.pool[b] = some m) (r : Record) :
    ((s.setBuffer b (some m.tried)).listed r).map Message.notice = (s.listed r).map Message.notice := by
  unfold State.listed
  rw [List.map_filterMap, List.map_filterMap]
  refine List.filterMap_congr fun c _ => ?_
  show ((s.pool.set b.val (some m.tried))[c.val]).map _ = _
  rw [Vector.getElem_set]
  split
  next same =>
    have e : b = c := Fin.ext same
    subst e
    rw [held]
    rfl
  next => rfl

/-- The messages of a record whose list one of them has left. -/
theorem State.listed_erase {u : State} {r q : Record} (messages : q.messages = r.messages.erase b) (nodup : r.messages.Nodup)
    (pool : u.pool = s.pool.set b none) : u.listed q = s.listed { r with messages := r.messages.erase b } := by
  unfold State.listed
  rw [messages, pool]
  refine List.filterMap_congr fun c mem => ?_
  show (s.pool.set b.val none)[c.val] = _
  rw [Vector.getElem_set, if_neg fun same => nodup.not_mem_erase (Fin.ext same ▸ mem)]
  rfl

/-- The NOTEs of a return to FREE after the message of the POLL failed. -/
theorem State.retiredFree.portsFailed {r : Record} (free : (w.failMessage i).retiredFree t i o) (served : s.transmittersServed)
    (served' : w.transmittersServed) (ports : w.ports = s.ports) (params : w.params = s.params) (pool : w.pool = s.pool)
    (carId : (w.record i).carId = r.carId) (messages : (w.record i).messages = r.messages)
    (flight : (w.record i).inFlight = some b) (held : s.pool[b] = some m) (nodup : r.messages.Nodup) :
    t.ports = (s.noteEachDropped r.carId (if s.params.attemptLimit ≤ m.tried.attempts then
      m :: s.listed { r with messages := r.messages.erase b } else s.listed r)).ports := by
  have held' : w.pool[b] = some m := by rw [pool]; exact held
  have after := (w.failMessage_stays i).served served'
  by_cases last : s.params.attemptLimit ≤ m.tried.attempts
  · rw [if_pos last]
    have gone := State.failMessage_gone flight held' (by rw [params]; exact last)
    have faulted := State.touches_setSoft (w.retireMessage i b) i .dropped
    obtain ⟨_, _, _, frame⟩ := w.retireMessage_retired i b
    have calm : ((w.retireMessage i b).setSoft i .dropped).transmittersServed :=
      ((State.retireMessage_stays flight).trans (State.setSoft_stays _ i .dropped)).served served'
    obtain ⟨same, sent, _⟩ := State.noteFor_served served calm ((faulted.ports.trans (by rw [frame])).trans ports)
      ((faulted.params.trans (by rw [frame])).trans params) r.carId m.source m.receipt .dropped
    have failed := State.failMessage_eq flight held'
    rw [if_pos (by rw [params]; exact last), carId] at failed
    have own : ((w.failMessage i).record i).carId = r.carId ∧ ((w.failMessage i).record i).messages = r.messages.erase b := by
      rw [← carId, ← messages]
      obtain e | ⟨c, _, e⟩ := gone.record <;> rw [e] <;> exact ⟨rfl, rfl⟩
    obtain ⟨car, list⟩ := own
    have whole := free.ports _ sent after (by rw [failed]; exact same)
      (by rw [State.failMessage_params, State.noteFor_params, params]) (by rw [list]; exact nodup.erase b)
    rw [car, State.listed_erase (s := s) list nodup (by rw [gone.buffer.pool, pool])] at whole
    exact whole
  · rw [if_neg last]
    rw [State.failMessage_tried flight held' (by rw [params]; exact Nat.not_le.1 last)] at free after
    have whole := free.ports s served after ports params (by rw [← messages] at nodup; exact nodup)
    have same : ((w.setBuffer b (some m.tried)).listed ((w.setBuffer b (some m.tried)).record i)).map Message.notice =
        (s.listed r).map Message.notice := by
      refine (State.listed_setBuffer held' _).trans (congrArg (List.map Message.notice) ?_)
      show (w.record i).messages.filterMap _ = r.messages.filterMap _
      rw [messages, pool]
    rw [State.noteEachDropped_congr same] at whole
    rw [← carId]
    exact whole

end

end Sys2Proof.Machine

/-! Exchanges whose miss ends the turn -/

namespace Sys2Proof.Machine

/-! ## Exchanges whose miss ends the turn (R56, R80 to R82) -/

section
variable {s : State} {i : Fin 48} {k : Fin 32} {x : Exchange} {soft : Option SoftFault} {mismatches : Nat}

theorem State.attempt_none {p : Poll} (h : p.message = none) : s.attempt i p = s := by
  unfold State.attempt
  rw [h]
  rfl

theorem State.attempt_some {p : Poll} (h : p.message ≠ none) : s.attempt i p = s.failMessage i := by
  unfold State.attempt
  rw [if_pos (Option.isSome_iff_ne_none.2 h)]

/-- A record at the limit of its stay, in PRESENT. -/
theorem State.lapseDue_of_stay {r : Record} (record : (s.record i).stay = r.stay) (contact : r.contact = .present)
    (hard : r.hard = none) (limit : s.params.lapseLimit ≤ r.missCount) : s.lapseDue i = true := by
  simp only [Record.stay, Prod.mk.injEq] at record
  obtain ⟨c, h, misses, _⟩ := record
  exact State.lapseDue_iff.2 ⟨c.trans contact, h.trans hard, by rw [misses]; exact limit⟩

/-- A record at the limit of its grant. -/
theorem State.grantDue_of_stay {r : Record} (record : (s.record i).stay = r.stay) (contact : r.contact = .granted)
    (hard : r.hard = none) (limit : s.params.grantLimit ≤ r.grantMisses) :
    s.lapseDue i = false ∧ s.grantLapseDue i = true := by
  simp only [Record.stay, Prod.mk.injEq] at record
  obtain ⟨c, h, _, misses⟩ := record
  refine ⟨?_, State.grantLapseDue_iff.2 ⟨c.trans contact, h.trans hard, by rw [misses]; exact limit⟩⟩
  rw [← Bool.not_eq_true, State.lapseDue_iff, c, contact]
  exact fun e => absurd e.1 (by decide)

/-- A reason among those of an exchange that ended a turn, told at the end of the slot. -/
theorem State.tells.told_end {t : State} {own : Bool} {o : ExchangeOutcome} {l : List Reason} {reason : Reason}
    (h : s.tells t i (missReasons own o ++ l)) (ends : ∀ r ∈ l, r ∈ endReasons) (mem : reason ∈ l) : s.told t i reason := by
  refine h.told_mem (List.mem_append_right _ mem) fun other among => keptBy_ends _ (ends _ mem) _ ?_
  exact (List.mem_append.1 among).elim missReasons_ends (ends other)

theorem summonReasons_ends (b : Bool) (o : Reason) (h : o ∈ endReasons) :
    ∀ r ∈ (if b then [Reason.summonEnded .failed] else []) ++ [o], r ∈ endReasons := by
  intro r mem
  obtain ended | rfl : r ∈ (if b then [Reason.summonEnded .failed] else []) ∨ r = o := by simpa using mem
  · cases b with
    | true => rw [List.mem_singleton.1 ended]; decide
    | false => exact absurd ended List.not_mem_nil
  · exact h

theorem mem_summonReasons {b : Bool} {r : Reason} (h : b = true) : r ∈ if b then [r] else [] := by
  rw [if_pos h]
  exact List.mem_singleton_self r

theorem State.endsExchange.unheld (h : s.endsExchange k x) : s.roster.held = [] := by
  obtain ⟨_, _, _, _, _, _, _, _, _, held⟩ := h
  exact held

theorem State.missedBy.kept (missed : s.missedBy x soft mismatches) (light : s.air.light = .ready) :
    (s.missJudged x).air.grants = s.air.grants ∧ (s.missJudged x).sweep = s.sweep ∧ (s.missJudged x).params = s.params ∧
      (s.missJudged x).ports = s.ports ∧ (s.missJudged x).roster.summonCount = s.roster.summonCount ∧
      (s.missJudged x).roster.pinnedCount = s.roster.pinnedCount := by
  obtain ⟨touched, _⟩ := missed.touches light
  obtain ⟨_, _, ports, _, params, roster, grants, sweep⟩ := s.countWindow_kept (s.air.judge decodeAnswer)
  exact ⟨(congrArg Air.grants touched.air).trans grants, touched.sweep.trans sweep, touched.params.trans params,
    touched.ports.trans ports, touched.summonCount.trans (congrArg Roster.summonCount roster),
    touched.pinnedCount.trans (congrArg Roster.pinnedCount roster)⟩

/-- The first part of O34: a lapse from PRESENT, without a message. -/
theorem State.endsExchange.lapsed (ends : s.endsExchange k x) (role : x.role = .turn) (message : x.poll.message = none)
    (missed : s.missedBy x soft mismatches) (contact : (s.record x.record).contact = .present)
    (hard : (s.record x.record).hard = none) (limit : s.params.lapseLimit ≤ ((s.record x.record).missed s.params .turn).1) :
    ∃ t, exec .slotEnd s = .next t ∧
      s.turnEnded t x.record
        { s.record x.record with
          missCount := ((s.record x.record).missed s.params .turn).1, mismatchCount := mismatches, soft := soft,
          contact := .paging, turn := none, retune := none, pageCount := s.params.pageLimit }
        (missReasons (x.role != .lent) (x.poll.outcome (s.air.judge decodeAnswer)) ++ [.lapsed]) ∧
      t.air.grants = s.air.grants ∧ t.roster.summonCount = s.roster.summonCount ∧ t.sweep.left = s.sweep.left := by
  obtain ⟨touched, _⟩ := missed.touches ends.light
  obtain ⟨grants, sweep, params, _, count, _⟩ := missed.kept ends.light
  have record := touched.record
  rw [role, Record.counted_present (by rw [contact]; decide)] at record
  have due : ((s.missJudged x).attempt x.record x.poll).lapseDue x.record = true := by
    rw [State.attempt_none message]
    exact State.lapseDue_of_stay (congrArg Record.stay record) contact hard (by rw [params]; exact limit)
  have execd := ends.lapses role missed due
  rw [State.attempt_none message] at execd
  have given := (s.missJudged x).lapse_gaveUp x.record
  have ended := given.gone.atEnd ⟨_, rfl⟩ touched
  rw [record, params] at ended
  refine ⟨_, execd, ended, ?_, ?_, ?_⟩
  · rw [State.turnLeft_grants, given.air, grants]
  · rw [State.turnLeft_summonCount, given.summonCount, count]
  · rw [State.turnLeft_left, given.sweep, sweep]

/-- A grant lapses, without a message (R56). -/
theorem State.endsExchange.grantLapsed (ends : s.endsExchange k x) (role : x.role = .turn) (message : x.poll.message = none)
    (retune : x.poll.retune = none) (missed : s.missedBy x soft mismatches) (contact : (s.record x.record).contact = .granted)
    (hard : (s.record x.record).hard = none) (limit : s.params.grantLimit ≤ ((s.record x.record).missed s.params .turn).2) :
    exec .slotEnd s = .next ((s.missJudged x).lapseGrant x.record).turnLeft := by
  obtain ⟨touched, _⟩ := missed.touches ends.light
  obtain ⟨_, _, params, _⟩ := missed.kept ends.light
  have record := touched.record
  rw [role] at record
  obtain ⟨still, due⟩ : (s.missJudged x).lapseDue x.record = false ∧ (s.missJudged x).grantLapseDue x.record = true :=
    State.grantDue_of_stay (congrArg Record.stay record) contact hard (by rw [params]; exact limit)
  have execd := ends.lapsesGrant role retune missed (by rw [State.attempt_none message]; exact still)
    (by rw [State.attempt_none message]; exact due)
  rw [State.attempt_none message] at execd
  exact execd

end

end Sys2Proof.Machine

/-! Turns that end after a message failed -/

namespace Sys2Proof.Machine

/-! ## Turns that end after a message failed -/

/-- A record in PAGING after it gave up its turn. -/
def Record.paged (r : Record) (pages : Nat) : Record :=
  { r with turn := none, retune := none, contact := .paging, pageCount := pages }

/-- A record that is DORMANT after its grant lapsed. -/
def Record.asleep (r : Record) : Record :=
  { r with
    turn := none, retune := none, contact := .dormant, pageCount := 0, lastHanding := none, summoned := false,
    handover := droppedClaim r.handover }

theorem Record.sameButSent.paged {q r : Record} (h : q.sameButSent r) (pages : Nat) :
    (q.paged pages).sameButSent (r.paged pages) := by
  obtain rfl | ⟨c, hc, rfl⟩ := h
  · exact .inl rfl
  · exact .inr ⟨c, hc, rfl⟩

theorem Record.sameButSent.asleep {q r : Record} (h : q.sameButSent r) : q.asleep.sameButSent r.asleep := by
  obtain rfl | ⟨c, hc, rfl⟩ := h
  · exact .inl rfl
  · have same (d : HandoverContext) : droppedClaim (some d) = if d.role = .claiming then none else some d := rfl
    by_cases claiming : c.role = .claiming
    · have own : droppedClaim q.handover = none := by rw [hc, same, if_pos claiming]
      refine .inl ?_
      unfold Record.asleep
      rw [own, same, if_pos (by exact claiming)]
    · have own : droppedClaim q.handover = some c := by rw [hc, same, if_neg claiming]
      refine .inr ⟨c, own, ?_⟩
      unfold Record.asleep
      rw [same, if_neg (by exact claiming)]

section
variable {s w : State} {k : Fin 32} {x : Exchange} {soft : Option SoftFault} {mismatches : Nat} {b : Fin 64} {m : Message}
  {dropped : Bool}

/-- The record of O34's third part, as the exchange leaves it before the turn ends. -/
theorem Record.tried_eq (r : Record) (p : Params) (soft : Option SoftFault) (mismatches : Nat) (b : Fin 64) (dropped : Bool) :
    (if dropped then
        { ({ r.counted p .turn with mismatchCount := mismatches, soft := soft } : Record).retired b with soft := some .dropped }
      else { r.counted p .turn with mismatchCount := mismatches, soft := soft }) =
    ({ r.tried p b dropped with mismatchCount := mismatches, soft := if dropped then some .dropped else soft } : Record) := by
  cases dropped <;> rfl

/-- The exchange of a POLL with a message whose record may not keep its turn, up to the judgement of the message. -/
theorem State.endsExchange.judges (ends : s.endsExchange k x) (role : x.role = .turn) (missed : s.missedBy x soft mismatches)
    (flight : (s.record x.record).inFlight = some b) (held : s.pool[b] = some m)
    (drop : dropped = decide (s.params.attemptLimit ≤ m.tried.attempts)) :
    let tried : Record :=
      { (s.record x.record).tried s.params b dropped with
        mismatchCount := mismatches, soft := if dropped then some .dropped else soft }
    ∃ l, s.messageJudged ((s.missJudged x).failMessage x.record) x.record b m dropped tried l ∧
      (∀ reason ∈ l, reason ∈ endReasons) ∧
      (((s.missJudged x).failMessage x.record).record x.record).stay = tried.stay := by
  obtain ⟨touched, _⟩ := missed.touches ends.light
  obtain ⟨grants, sweep, _⟩ := missed.kept ends.light
  have judging : s.judging (s.missJudged x) x.record _ _ :=
    ⟨_, ⟨_, rfl⟩, touched.meets, touched.sweep, ⟨rfl, rfl, rfl, rfl, rfl, rfl⟩⟩
  have judged := judging.judged grants (congrArg Sweep.left sweep) flight held drop
  rw [role] at judged
  have record := judged.record
  rw [Record.tried_eq] at judged record
  refine ⟨_, judged, fun reason mem => ?_, record.stay⟩
  obtain counted | dropping := List.mem_append.1 mem
  · exact missReasons_ends counted
  · cases dropped with
    | true => rw [List.mem_singleton.1 dropping]; decide
    | false => exact absurd dropping List.not_mem_nil

/-- The reasons of a turn's end beside those of the message. -/
theorem State.tells.told_after {t : State} {i : Fin 48} {l after : List Reason} {reason : Reason} (h : s.tells t i (l ++ after))
    (before : ∀ r ∈ l, r ∈ endReasons) (ends : ∀ r ∈ after, r ∈ endReasons) (mem : reason ∈ l ++ after) : s.told t i reason :=
  h.told_mem mem fun _ among =>
    have all (r : Reason) (e : r ∈ l ++ after) : r ∈ endReasons := (List.mem_append.1 e).elim (before r) (ends r)
    keptBy_ends _ (all _ mem) _ (all _ among)

end

end Sys2Proof.Machine

/-! Lapses end the turn -/

namespace Sys2Proof.Machine

/-! ## Turns ended by misses (R56, R80 to R82) -/

theorem State.failMessage_counts (s : State) (i : Fin 48) :
    (s.failMessage i).roster.summonCount = s.roster.summonCount ∧ (s.failMessage i).roster.pinnedCount = s.roster.pinnedCount := by
  have tail := s.failMessage_tail i
  simp only [State.tail, Prod.mk.injEq] at tail
  obtain ⟨_, _, count, pins, _⟩ := tail
  exact ⟨count, pins⟩

/-- Settles O34: the counts of the miss, the attempt of the message, and the lapse or the end of the grant, each by what it
leaves. -/
theorem lapsesEndTheTurn : Obligations.LapsesEndTheTurn := by
  unfold Obligations.LapsesEndTheTurn
  refine ⟨?_, ?_, ?_⟩
  · intro s k x r soft mismatches ends role message missed hr contact hard limit
    subst hr
    obtain ⟨t, execd, ended, grants, count, left⟩ := ends.lapsed role message missed contact hard limit
    obtain ⟨record, others, tells, cells, plan, classes, pool, ports, inbound⟩ := ended
    exact ⟨t, execd, record, tells.told_end (by decide) (by decide), others, cells, plan, classes, grants, count, left, pool, ports,
      inbound⟩
  · intro s k x r soft mismatches ends role message retune missed hr contact hard limit
    subst hr
    have execd := ends.grantLapsed role message retune missed contact hard limit
    obtain ⟨touched, _⟩ := missed.touches ends.light
    obtain ⟨grants, sweep, params, ports, count, pins⟩ := missed.kept ends.light
    have record := touched.record
    have judged := touched.tells.before (s.countWindow_params _) (s.countWindow_attention _)
    rw [role] at record
    refine ⟨fun unpinned => ?_, fun pinned => ?_⟩
    · have free := State.lapseGrant_free (s := s.missJudged x) (i := x.record) (by rw [record]; exact unpinned)
      have told := (judged.trans free.tells params).after (congrArg HostPort.attention (State.turnLeft_host _))
      rw [record] at told
      have ending := summonReasons_ends (s.record x.record).summoned .retired (by decide)
      refine ⟨_, execd, (free.freed.too (missed.freesToo ends.light)).turnLeft ends.unheld, fun pool served => ?_, ?_,
        told.told_end ending (List.mem_append_right _ (List.mem_singleton_self _)),
        fun summoned => told.told_end ending (List.mem_append_left _ (mem_summonReasons summoned))⟩
      · have sent := free.ports s served (State.missJudged_served x served) ports params (by rw [record]; exact (pool.2.1 _).1)
        rw [State.turnLeft_ports, sent, record]
        unfold State.listed
        rw [touched.pool, (s.countWindow_kept _).2.1]
        rfl
      · rw [State.turnLeft_grants, free.grants, grants]
    · obtain ⟨slept, fewer, swept⟩ := State.lapseGrant_dormant (s := s.missJudged x) (i := x.record) (by rw [record]; exact pinned)
      obtain ⟨own, others, told, cells, plan, classes, pool, ports', inbound⟩ := slept.gone.atEnd ⟨_, rfl⟩ touched
      rw [record] at own told fewer
      have ending := summonReasons_ends (s.record x.record).summoned .dormant (by decide)
      refine ⟨_, execd, own, told.told_end ending (List.mem_append_right _ (List.mem_singleton_self _)),
        fun summoned => told.told_end ending (List.mem_append_left _ (mem_summonReasons summoned)), ?_, ?_, others, cells, plan,
        classes, ?_, ?_, pool, ports', inbound⟩
      · rw [State.turnLeft_summonCount, fewer, count]
        rfl
      · rw [State.turnLeft_pinnedCount, slept.pinnedCount, pins]
      · rw [State.turnLeft_grants, slept.grants, grants]
      · rw [State.turnLeft_left, swept, sweep]
  · intro s k x r tried soft mismatches b m dropped ends role missed hr hard message flight listed held drop htried
    subst hr htried
    obtain ⟨l, judged, before, stay⟩ := ends.judges role missed flight held drop
    have attempt : (s.missJudged x).attempt x.record x.poll = (s.missJudged x).failMessage x.record := State.attempt_some message
    obtain ⟨touched, _⟩ := missed.touches ends.light
    obtain ⟨_, _, wParams, wPorts, count, pins⟩ := missed.kept ends.light
    have wPool : (s.missJudged x).pool = s.pool := touched.pool.trans (s.countWindow_kept _).2.1
    obtain ⟨counted, pinsKept⟩ := (s.missJudged x).failMessage_counts x.record
    have params := judged.params
    have triedFlags : ((s.record x.record).tried s.params b dropped).contact = (s.record x.record).contact ∧
        ((s.record x.record).tried s.params b dropped).hard = (s.record x.record).hard := by cases dropped <;> exact ⟨rfl, rfl⟩
    obtain ⟨triedContact, triedHard⟩ := triedFlags
    have same : (((s.missJudged x).failMessage x.record).record x.record).pinned = (s.record x.record).pinned ∧
        (((s.missJudged x).failMessage x.record).record x.record).summoned = (s.record x.record).summoned := by
      obtain e | ⟨c, _, e⟩ := judged.record <;> rw [e] <;> cases dropped <;> exact ⟨rfl, rfl⟩
    obtain ⟨samePin, sameSummons⟩ := same
    refine ⟨fun contact limit => ?_, fun contact limit retune => ⟨fun unpinned => ?_, fun pinned => ?_⟩⟩
    · have due := State.lapseDue_of_stay stay (triedContact.trans contact) (triedHard.trans hard) (by rw [params]; exact limit)
      rw [← attempt] at due
      have execd := ends.lapses role missed due
      rw [attempt] at execd
      have given := ((s.missJudged x).failMessage x.record).lapse_gaveUp x.record
      obtain ⟨lost, told⟩ := judged.turnLost given.gone (congrArg Sweep.left given.sweep) fun reason mem =>
        (List.mem_append.1 mem).elim (before reason) fun e => by rw [List.mem_singleton.1 e]; decide
      refine ⟨_, execd, lost, ?_, told.told_after before (by decide) (by simp), ?_, ?_⟩
      · rw [State.turnLeft_record, given.record, params]
        exact judged.record.paged _
      · rw [State.turnLeft_grants, given.air, judged.grants]
      · rw [State.turnLeft_summonCount, given.summonCount, counted, count]
    all_goals
      obtain ⟨still, due⟩ :=
        State.grantDue_of_stay stay (triedContact.trans contact) (triedHard.trans hard) (by rw [params]; exact limit)
      rw [← attempt] at still due
      have execd := ends.lapsesGrant role retune missed still due
      rw [attempt] at execd
    · have free := State.lapseGrant_free (s := (s.missJudged x).failMessage x.record) (i := x.record) (samePin.trans unpinned)
      have told := (judged.tells.trans free.tells params).after (congrArg HostPort.attention (State.turnLeft_host _))
      have ending := summonReasons_ends (((s.missJudged x).failMessage x.record).record x.record).summoned .retired (by decide)
      have flight' : ((s.missJudged x).record x.record).inFlight = some b := by rw [touched.record]; exact flight
      have too := (missed.freesToo ends.light).trans (State.failMessage_freesToo flight' (by rw [wPool]; exact held)
        (by rw [touched.record]; exact listed))
      refine ⟨_, execd, (free.freed.too too).turnLeft ends.unheld, fun pool served => ?_, ?_, ?_, fun drop => ?_, fun summoned => ?_⟩
      · have sent := free.portsFailed (r := s.record x.record) served (State.missJudged_served x served) wPorts wParams wPool
          (by rw [touched.record]; rfl) (by rw [touched.record]; rfl) flight' held (pool.2.1 _).1
        rw [State.turnLeft_ports, sent, drop]
        simp only [decide_eq_true_eq]
      · rw [State.turnLeft_grants, free.grants, judged.grants]
      · exact told.told_after before ending (List.mem_append_right _ (List.mem_append_right _ (List.mem_singleton_self _)))
      · exact told.told_after before ending (List.mem_append_left _ (judged.faulted drop))
      · refine told.told_after before ending (List.mem_append_right _ (List.mem_append_left _ (mem_summonReasons ?_)))
        exact sameSummons.trans summoned
    · obtain ⟨slept, fewer, swept⟩ :=
        State.lapseGrant_dormant (s := (s.missJudged x).failMessage x.record) (i := x.record) (samePin.trans pinned)
      have ending := summonReasons_ends (((s.missJudged x).failMessage x.record).record x.record).summoned .dormant (by decide)
      obtain ⟨lost, told⟩ := judged.turnLost slept.gone (congrArg Sweep.left swept) fun reason mem =>
        (List.mem_append.1 mem).elim (before reason) (ending reason)
      refine ⟨_, execd, lost, ?_, ?_, fun summoned => ?_, ?_, ?_, ?_⟩
      · rw [State.turnLeft_record, slept.record]
        have asleep := judged.record.asleep
        cases dropped with
        | true => exact asleep
        | false => exact asleep
      · exact told.told_after before ending (List.mem_append_right _ (List.mem_append_right _ (List.mem_singleton_self _)))
      · refine told.told_after before ending (List.mem_append_right _ (List.mem_append_left _ (mem_summonReasons ?_)))
        exact sameSummons.trans summoned
      · rw [State.turnLeft_grants, slept.grants, judged.grants]
      · rw [State.turnLeft_summonCount, fewer, counted, count, sameSummons]
      · rw [State.turnLeft_pinnedCount, slept.pinnedCount, pinsKept, pins]

end Sys2Proof.Machine

/-! A claim asked for -/

namespace Sys2Proof.Machine

/-! ## A claim asked for (R49) -/

/-- The context that a hail opens toward its previous station, before its CLAIM is begun. -/
def State.claiming (s : State) (peer level : Nat) : HandoverContext :=
  { role := .claiming, peer := peer, tries := 1, deadline := s.deadlineNow, due := true, claimLevel := some level }

/-- `t` is `s` after the previous station of a hail was heard for record `i`, which was `r`. -/
structure State.claimOpened (s t : State) (i : Fin 48) (peer level : Nat) (r : Record) (reasons : List Reason) : Prop where
  claim : s.claimAsked t i peer level r
  own : (t.record i).contact = r.contact ∧ (t.record i).tag = r.tag
  others : ∀ j, j ≠ i → (s.record j).sameButSent (t.record j)
  silent : peer = 0 ∨ peer = s.params.station → ∀ j, j ≠ i → t.record j = s.record j
  tells : s.tells t i reasons
  soft : ∀ reason ∈ reasons, reason = .softFault
  air : t.air = s.air
  cells : t.cells = s.cells
  pool : t.pool = s.pool
  sweep : t.sweep = s.sweep
  conditions : t.conditions = s.conditions
  tagCounter : t.roster.tagCounter = s.roster.tagCounter
  summonCount : t.roster.summonCount = s.roster.summonCount

section
variable {s : State} {i : Fin 48} {peer level : Nat}

theorem State.openClaim_silent (h : peer = 0 ∨ peer = s.params.station ∨ (s.record i).handover ≠ none) :
    s.openClaim i peer level = s := by
  unfold State.openClaim
  refine if_pos ?_
  rw [Bool.or_eq_true, Bool.or_eq_true, beq_iff_eq, beq_iff_eq, Option.isSome_iff_ne_none, or_assoc]
  exact h

theorem State.openClaim_toward {p : Port} (nonzero : peer ≠ 0) (other : peer ≠ s.params.station)
    (none : (s.record i).handover = none) (toward : portToward s.params.station peer = some p) :
    s.openClaim i peer level =
      if s.params.inUse p = false ∨ (s.port p).neighbour = .down then s.setSoft i .noRoute
      else s.openContext i .claiming peer (some level) := by
  unfold State.openClaim
  rw [none, beq_false_of_ne nonzero, beq_false_of_ne other, toward]
  dsimp only [Option.isSome]
  rw [if_neg (show ¬ (false || false || false) = true by decide)]
  refine if_congr ?_ rfl rfl
  rw [Bool.or_eq_true, Bool.not_eq_true', beq_iff_eq]

/-- The claim's context, with its frame due or begun. -/
theorem State.openContext_opened {p : Port} (nonzero : peer ≠ 0) (other : peer ≠ s.params.station)
    (none : (s.record i).handover = none) (toward : portToward s.params.station peer = some p)
    (use : s.params.inUse p = true) (up : (s.port p).neighbour ≠ .down) :
    s.claimOpened (s.openContext i .claiming peer (some level)) i peer level (s.record i) [] := by
  have given := s.touches_modifyRecord i fun r => { r with handover := some (s.claiming peer level) }
  have opened : s.openContext i .claiming peer (some level) =
    (s.modifyRecord i fun r => { r with handover := some (s.claiming peer level) }).arbitrateToward peer := rfl
  rw [opened]
  clear opened
  generalize s.modifyRecord i (fun r => { r with handover := some (s.claiming peer level) }) = u at given ⊢
  have sent := u.arbitrateToward_recordsSent peer
  have tail := u.arbitrateToward_tail peer
  simp only [State.tail, Prod.mk.injEq] at tail
  obtain ⟨tag, _, count, _⟩ := tail
  obtain ⟨due, (own : (u.arbitrateToward peer).record i = _), begun⟩ :=
    u.arbitrateToward_due (i := i) (congrArg Record.handover given.record) rfl
  have port (q : Port) : u.port q = s.port q := State.port_congr given.ports q
  refine ⟨⟨?_, fun q _ _ _ hq => ⟨?_, fun _ _ => ⟨due, ?_, ?_⟩⟩⟩, ?_, fun j e => ?_, ?_, ?_, fun _ mem => absurd mem List.not_mem_nil,
    (State.arbitrateToward_air ..).trans given.air, (State.arbitrateToward_cells ..).trans given.cells,
    (State.arbitrateToward_pool ..).trans given.pool, (State.arbitrateToward_sweep ..).trans given.sweep,
    (State.arbitrateToward_conditions ..).trans given.conditions, tag.trans (by rw [given.frame]), count.trans given.summonCount⟩
  · rintro (zero | same | standing)
    · exact absurd zero nonzero
    · exact absurd same other
    · exact absurd none standing
  · have same : q = p := Option.some.inj (hq.symm.trans toward)
    subst same
    rintro (unused | down)
    · rw [unused] at use
      exact absurd use (by decide)
    · exact absurd down up
  · rw [own, given.record]
    rfl
  · refine State.dueOrBegun.of_before (s := u) ?_ given.params port fun j e => congrArg Record.handover (given.others j e)
    have frame : u.handoverFrame (u.record i) (s.claiming peer level) =
        { source := s.params.station, dest := peer, hop := 255,
          payload := .claim (s.record i).carId ((s.record i).tag.getD 0) level 1 } := by
      unfold State.handoverFrame State.originate
      rw [given.record, given.params]
      rfl
    rw [← frame]
    exact begun
  · rw [own, given.record]
    exact ⟨rfl, rfl⟩
  · have theirs := sent j
    rw [given.others j e] at theirs
    exact theirs
  · rintro (zero | same)
    · exact absurd zero nonzero
    · exact absurd same other
  · exact given.tells.after (congrArg HostPort.attention (State.arbitrateToward_host ..))

/-- What the previous station of a hail makes of its record. -/
theorem State.openClaim_opened (s : State) (i : Fin 48) (peer level : Nat) :
    ∃ reasons, s.claimOpened (s.openClaim i peer level) i peer level (s.record i) reasons := by
  have unchanged (asks : s.claimAsked s i peer level (s.record i)) : s.claimOpened s i peer level (s.record i) [] :=
    ⟨asks, ⟨rfl, rfl⟩, fun j _ => .inl rfl, fun _ _ _ => rfl, rfl, fun _ mem => absurd mem List.not_mem_nil, rfl, rfl, rfl, rfl,
      rfl, rfl, rfl⟩
  by_cases quiet : peer = 0 ∨ peer = s.params.station ∨ (s.record i).handover ≠ none
  · rw [State.openClaim_silent quiet]
    refine ⟨[], unchanged ⟨fun _ => ⟨rfl, rfl⟩, fun p nonzero other none => ?_⟩⟩
    obtain zero | same | standing := quiet
    · exact absurd zero nonzero
    · exact absurd same other
    · exact absurd none standing
  · obtain ⟨nonzero, other, none⟩ := not_or.1 quiet |>.imp id not_or.1
    rw [not_not] at none
    cases toward : portToward s.params.station peer with
    | none =>
        have same : s.openClaim i peer level = s := by
          unfold State.openClaim
          rw [toward]
          exact ite_self s
        rw [same]
        exact ⟨[], unchanged ⟨fun asks => absurd asks quiet, fun p _ _ _ hp => by rw [toward] at hp; exact absurd hp nofun⟩⟩
    | some p =>
        rw [State.openClaim_toward nonzero other none toward]
        by_cases closed : s.params.inUse p = false ∨ (s.port p).neighbour = .down
        · rw [if_pos closed]
          have faulted := s.touches_setSoft i .noRoute
          refine ⟨[.softFault], ⟨fun asks => absurd asks quiet, fun q _ _ _ hq => ⟨fun _ => ⟨faulted.record, ?_, faulted.ports⟩, ?_⟩⟩,
            ?_, fun j e => .inl (faulted.others j e), fun _ => faulted.others, faulted.tells, fun _ mem => List.mem_singleton.1 mem,
            faulted.air, faulted.cells, faulted.pool, faulted.sweep, faulted.conditions, by rw [faulted.frame],
            faulted.summonCount⟩
          · exact State.tells.told (earlier := []) (later := []) faulted.tells (fun _ mem => absurd mem List.not_mem_nil)
          · have same : q = p := Option.some.inj (hq.symm.trans toward)
            subst same
            intro use up
            obtain unused | down := closed
            · rw [unused] at use
              exact absurd use (by decide)
            · exact absurd down up
          · rw [faulted.record]
            exact ⟨rfl, rfl⟩
        · rw [if_neg closed]
          obtain ⟨use, up⟩ := not_or.1 closed
          exact ⟨[], State.openContext_opened nonzero other none toward (Bool.not_eq_false _ ▸ use) up⟩

end

end Sys2Proof.Machine

/-! A turn allocated to a hailing car -/

namespace Sys2Proof.Machine

/-! ## A turn allocated to a hailing car (R45, R52, R60, R61) -/

theorem State.placeGrant_eq (s : State) (i : Fin 48) : s.placeGrant i =
    { s with air := { s.air with grants := if i ∈ s.air.grants then s.air.grants else s.air.grants ++ [i] } } := by
  unfold State.placeGrant
  by_cases listed : i ∈ s.air.grants
  · rw [if_pos (by simpa using listed), if_pos listed]
  · rw [if_neg (by simpa using listed), if_neg listed]

section
variable {s u t : State} {i : Fin 48} {turn : Turn} {asked : Period} {peer level : Nat} {r : Record}

/-- A record with the turn allocated to it. -/
def Record.allotted (r : Record) (turn : Turn) (asked : Period) : Record :=
  { r with turn := some turn, soft := if turn.period = asked then r.soft else some .degraded }

/-- `t` is `s` after a turn was allocated to record `i`, which was `r`, its grant placed, and its previous station heard. -/
structure State.admitted (s t : State) (i : Fin 48) (turn : Turn) (asked : Period) (peer level : Nat) (r : Record) : Prop where
  claim : s.claimAsked t i peer level (r.allotted turn asked)
  own : (t.record i).contact = r.contact ∧ (t.record i).tag = r.tag
  others : ∀ j, j ≠ i → (s.record j).sameButSent (t.record j)
  silent : peer = 0 ∨ peer = s.params.station → ∀ j, j ≠ i → t.record j = s.record j
  degraded : turn.period ≠ asked → s.told t i .softFault
  cell : ∀ slot phase, t.cell slot phase =
    if slot = turn.slot ∧ phase ∈ turn.phases then some { holder := i, role := .waiting } else s.cell slot phase
  air : t.air = { s.air with grants := if i ∈ s.air.grants then s.air.grants else s.air.grants ++ [i] }
  pool : t.pool = s.pool
  sweep : t.sweep = s.sweep
  classes : s.onlyClasses t []
  summonCount : t.roster.summonCount = s.roster.summonCount

theorem State.claimAsked.of_before (h : u.claimAsked t i peer level r) (ports : u.ports = s.ports) (params : u.params = s.params)
    (clock : u.clock = s.clock) (handovers : ∀ j, j ≠ i → (u.record j).handover = (s.record j).handover) :
    s.claimAsked t i peer level r := by
  obtain ⟨silent, toward⟩ := h
  have port (p : Port) : u.port p = s.port p := State.port_congr ports p
  have told : u.told t i .softFault = s.told t i .softFault := by
    unfold State.told
    rw [params]
  simp only [State.claimAsked, params, port, ports, clock, told] at silent toward ⊢
  refine ⟨silent, fun p nonzero other none hp => ?_⟩
  obtain ⟨closed, opened⟩ := toward p nonzero other none hp
  refine ⟨closed, fun use up => ?_⟩
  obtain ⟨due, record, begun⟩ := opened use up
  exact ⟨due, record, begun.of_before params port handovers⟩

theorem State.claimAsked.after {v : State} (h : s.claimAsked t i peer level r) (record : v.record i = t.record i)
    (ports : v.ports = t.ports) (host : v.host = t.host) : s.claimAsked v i peer level r := by
  have told : s.told v i .softFault = s.told t i .softFault := by
    unfold State.told
    rw [host]
  obtain ⟨silent, toward⟩ := h
  refine ⟨fun quiet => ?_, fun p nonzero other none hp => ?_⟩
  · rw [record, ports]
    exact silent quiet
  · obtain ⟨closed, opened⟩ := toward p nonzero other none hp
    refine ⟨fun off => ?_, fun use up => ?_⟩
    · rw [record, ports, told]
      exact closed off
    · obtain ⟨due, own, begun⟩ := opened use up
      exact ⟨due, record.trans own, begun.after ports⟩

theorem State.admitted.of_before (h : u.admitted t i turn asked peer level r) (others : ∀ j, j ≠ i → u.record j = s.record j)
    (frame : u = { s with roster := u.roster }) (count : u.roster.summonCount = s.roster.summonCount) :
    s.admitted t i turn asked peer level r := by
  have params : u.params = s.params := by rw [frame]
  have station : u.params.station = s.params.station := by rw [params]
  refine ⟨h.claim.of_before (by rw [frame]) params (by rw [frame]) fun j e => congrArg _ (others j e), h.own, fun j e => ?_,
    fun quiet j e => ?_, fun longer => ?_, fun slot phase => ?_, ?_, ?_, ?_, fun c hc => ?_, h.summonCount.trans count⟩
  · rw [← others j e]
    exact h.others j e
  · rw [← others j e]
    exact h.silent (by rw [station]; exact quiet) j e
  · have told := h.degraded longer
    unfold State.told at told ⊢
    rw [params] at told
    exact told
  · rw [h.cell, frame]
    rfl
  · rw [h.air, frame]
  · rw [h.pool, frame]
  · rw [h.sweep, frame]
  · rw [h.classes c hc, frame]
    rfl

/-- DEGRADED, and its reason, when the period granted is longer than the period asked. -/
theorem State.noteDegrade_touches (s : State) (i : Fin 48) (asked granted : Period) :
    s.touches (s.noteDegrade i asked granted) i
      { s.record i with soft := if granted = asked then (s.record i).soft else some .degraded }
      (if granted = asked then [] else [.softFault]) := by
  unfold State.noteDegrade
  by_cases same : granted = asked
  · rw [if_pos same, if_pos same, if_pos (beq_iff_eq.2 same)]
    exact .refl s i
  · rw [if_neg same, if_neg same, if_neg (by simpa using same)]
    exact s.touches_setSoft i .degraded

/-- A turn given, its grant placed and its previous station heard. -/
theorem State.allocate_admitted (s : State) (i : Fin 48) {turn : Turn} (plan : turn.inPlan) (asked : Period) (peer level : Nat) :
    let t := (((s.allocateTurn i turn).noteDegrade i asked turn.period).placeGrant i).openClaim i peer level
    s.admitted t i turn asked peer level (s.record i) ∧ t.roster.tagCounter = s.roster.tagCounter := by
  obtain ⟨low, high, phase⟩ := plan
  have cell := s.giveTurnCells_cell i turn .waiting low high phase
  have cells := s.giveTurnCells_frame i turn .waiting
  unfold State.allocateTurn
  generalize s.giveTurnCells i turn .waiting = g at *
  have rows (j : Fin 48) : g.record j = s.record j := by rw [cells]; rfl
  have given := (g.touches_modifyRecord i fun r => { r with turn := some turn }).trans (State.noteDegrade_touches _ i asked turn.period)
  rw [State.record_modifyRecord, rows, List.nil_append] at given
  generalize State.noteDegrade _ i asked turn.period = v at *
  rw [State.placeGrant_eq]
  have vAir : v.air = s.air := given.air.trans (by rw [cells])
  rw [vAir]
  obtain ⟨w, hw⟩ : ∃ w : State, w = { v with air :=
    { s.air with grants := if i ∈ s.air.grants then s.air.grants else s.air.grants ++ [i] } } := ⟨_, rfl⟩
  have wRecord (j : Fin 48) : w.record j = v.record j := by rw [hw]; rfl
  rw [← hw]
  obtain ⟨reasons, opened⟩ := w.openClaim_opened i peer level
  rw [wRecord, given.record] at opened
  generalize w.openClaim i peer level = t at *
  have params : w.params = s.params := by rw [hw]; exact given.params.trans (by rw [cells])
  have ports : w.ports = s.ports := by rw [hw]; exact given.ports.trans (by rw [cells])
  have clock : w.clock = s.clock := by rw [hw]; exact congrArg State.clock given.frame |>.trans (by rw [cells])
  have beside (j : Fin 48) (e : j ≠ i) : w.record j = s.record j := by rw [wRecord, given.others j e, rows]
  have counter : t.roster.tagCounter = s.roster.tagCounter := by
    rw [opened.tagCounter, hw]
    show v.roster.tagCounter = _
    rw [given.frame, cells]
  refine ⟨⟨opened.claim.of_before ports params clock fun j e => congrArg _ (beside j e), opened.own, fun j e => ?_, fun quiet j e => ?_,
    fun longer => ?_, fun slot f => ?_, ?_, ?_, ?_, fun c _ => ?_, ?_⟩, counter⟩
  · rw [← beside j e]
    exact opened.others j e
  · rw [← beside j e]
    exact opened.silent (by rw [params]; exact quiet) j e
  · have gTells : s.tells v i [.softFault] := by
      have told := given.tells
      rw [if_neg longer] at told
      exact told.before (by rw [cells]) (by rw [cells])
    have told := gTells.trans (opened.tells.before (s := v) (by rw [hw]) (by rw [hw])) (given.params.trans (by rw [cells]))
    refine told.told_mem (by simp) fun other mem => ?_
    obtain first | later := List.mem_append.1 mem
    · rw [List.mem_singleton.1 first]
      exact Reason.keptBy_softFault _
    · rw [opened.soft other later]
      exact Reason.keptBy_softFault _
  · rw [← cell]
    unfold State.cell
    rw [opened.cells, hw]
    rw [given.cells]
  · rw [opened.air, hw]
  · rw [opened.pool, hw]
    exact given.pool.trans (by rw [cells])
  · rw [opened.sweep, hw]
    exact given.sweep.trans (by rw [cells])
  · exact State.classFlags_congr (opened.conditions.trans (by rw [hw]; exact given.conditions.trans (by rw [cells]))) c
  · rw [opened.summonCount, hw]
    exact given.summonCount.trans (by rw [cells])

end

end Sys2Proof.Machine

/-! Hails decided -/

namespace Sys2Proof.Machine

/-! ## Hails decided (R42 to R52) -/

section
variable {s u t : State} {i : Fin 48} {h : Hail} {level : Nat}

/-- A counter moved is moved also where the other fields of the records differ. -/
theorem State.tagMoved.congr {s' t' : State} (moved : s.tagMoved t) (before : s'.roster.tagCounter = s.roster.tagCounter)
    (after : t'.roster.tagCounter = t.roster.tagCounter)
    (held : ∀ j, ((t'.record j).contact = .free ↔ (t.record j).contact = .free) ∧ (t'.record j).tag = (t.record j).tag) :
    s'.tagMoved t' := by
  unfold State.tagMoved at moved ⊢
  simp only [ne_eq, before, after, (held _).1, (held _).2]
  exact moved

theorem Record.sameButSent.tagged {r q : Record} (e : r.sameButSent q) : (q.contact = .free ↔ r.contact = .free) ∧ q.tag = r.tag := by
  obtain rfl | ⟨c, _, rfl⟩ := e <;> exact ⟨Iff.rfl, rfl⟩

theorem State.decideHail_unknown (unknown : s.lookup h.carId = none) :
    s.decideHail h level = if s.air.entryOpen then s.admitCar h level else s.countHeld := by
  unfold State.decideHail
  rw [unknown]

theorem State.decideHail_known (known : s.lookup h.carId = some i) (hard : (s.record i).hard = none) :
    s.decideHail h level = match (s.record i).contact with
      | .granted => if s.air.entryOpen then s.regrant i level else s.countHeld
      | .present => if s.air.entryOpen then s.reenter i h level else s.countHeld
      | .paging | .dormant => if s.air.entryOpen || h.paged then s.revive i h level else s.countHeld
      | .free | .outbound | .releasing => s.countHeld := by
  unfold State.decideHail
  rw [known]
  dsimp only
  rw [hard]
  exact if_neg Bool.false_ne_true

/-- A hail that is held: the car is unknown and entry closed, or its record takes no hail. -/
def State.holdsHail (s : State) (h : Hail) : Prop :=
  (s.lookup h.carId = none ∧ s.air.entryOpen = false) ∨
    (∃ i, s.lookup h.carId = some i ∧
      ((s.record i).hard ≠ none ∨ (s.record i).contact = .outbound ∨ (s.record i).contact = .releasing ∨
        (s.air.entryOpen = false ∧ ((s.record i).contact = .granted ∨ (s.record i).contact = .present ∨ h.paged = false))))

theorem State.decideHail_held (holds : s.holdsHail h) : s.decideHail h level = s.countHeld := by
  obtain ⟨unknown, closed⟩ | ⟨i, known, kind⟩ := holds
  · rw [State.decideHail_unknown unknown, closed]
    rfl
  · by_cases hard : (s.record i).hard = none
    · rw [State.decideHail_known known hard]
      obtain faulted | out | leaving | ⟨closed, granted | present | unpaged⟩ := kind
      · exact absurd hard faulted
      · rw [out]
      · rw [leaving]
      · rw [granted, closed]
        rfl
      · rw [present, closed]
        rfl
      · rw [closed, unpaged]
        cases (s.record i).contact <;> rfl
    · unfold State.decideHail
      rw [known]
      exact if_pos (Option.isSome_iff_ne_none.2 hard)

/-- A tag given and the record rewritten, which stays in contact and keeps the tag. -/
theorem State.giveTag_modified {f : Record → Record} (s : State) (i : Fin 48) :
    let t := (s.giveTag i).modifyRecord i f
    t.record i = f { s.record i with tag := some s.roster.tagCounter } ∧ (∀ j, j ≠ i → t.record j = s.record j) ∧
      t = { s with roster := t.roster } ∧ t.roster.summonCount = s.roster.summonCount ∧
      t.roster.tagCounter = (s.giveTag i).roster.tagCounter := by
  have others (j : Fin 48) (e : j ≠ i) : (s.giveTag i).record j = s.record j :=
    State.record_modifyRecord_ne s (fun r => { r with tag := some s.roster.tagCounter }) e.symm
  refine ⟨?_, fun j e => ?_, rfl, rfl, rfl⟩
  · rw [State.record_modifyRecord, State.giveTag_record]
  · rw [State.record_modifyRecord_ne _ _ e.symm, others j e]

/-- The tag counter after an admission or a revival. -/
theorem State.admitted.tagMoved {turn : Turn} {asked : Period} {peer : Nat} (a : u.admitted t i turn asked peer level (u.record i))
    (moved : s.tagMoved u) (counter : t.roster.tagCounter = u.roster.tagCounter) : s.tagMoved t := by
  refine moved.congr rfl counter fun j => ?_
  by_cases e : j = i
  · rw [e, a.own.1, a.own.2]
    exact ⟨Iff.rfl, rfl⟩
  · exact (a.others j e).tagged

end

end Sys2Proof.Machine

/-! Hails of held cars -/

namespace Sys2Proof.Machine

/-! ## Hails of held cars (R50 to R52) -/

section
variable {s : State} {i : Fin 48} {h : Hail} {level : Nat} {turn : Turn}

/-- A revival with the turn that is found. -/
theorem State.revive_admitted (found : s.findTurn (s.askedPeriod h) = some turn) :
    s.admitted (s.revive i h level) i turn (s.askedPeriod h) h.previousStation level
        { ({ s.record i with tag := some s.roster.tagCounter } : Record).takenAfresh h level with
          pageCount := 0, lastHanding := none } ∧
      ((s.record i).contact ≠ .free → s.tagMoved (s.revive i h level)) := by
  have plan := (State.findTurn_inPlan found).1
  obtain ⟨own, others, frame, count, counter⟩ := s.giveTag_modified (f := fun r =>
    { r.takenAfresh h level with pageCount := 0, lastHanding := none }) i
  have moved := s.giveTag_moved i
  have tagged (j : Fin 48) (e : j ≠ i) : (s.giveTag i).record j = s.record j :=
    State.record_modifyRecord_ne s (fun r => { r with tag := some s.roster.tagCounter }) e.symm
  have revived : s.revive i h level = ((((((s.giveTag i).modifyRecord i fun r =>
      { r.takenAfresh h level with pageCount := 0, lastHanding := none }).allocateTurn i turn).noteDegrade i (s.askedPeriod h)
        turn.period).placeGrant i).openClaim i h.previousStation level) := by
    unfold State.revive
    rw [found]
    rfl
  rw [revived]
  clear revived
  generalize (s.giveTag i).modifyRecord i _ = u at *
  obtain ⟨admitted, kept⟩ := u.allocate_admitted i plan (s.askedPeriod h) h.previousStation level
  refine ⟨?_, fun taken => admitted.tagMoved (moved.congr rfl counter fun j => ?_) kept⟩
  · have whole := admitted.of_before others frame count
    rw [own] at whole
    exact whole
  · by_cases e : j = i
    · rw [e, own, State.giveTag_record]
      exact ⟨⟨fun free => absurd free nofun, fun free => absurd free taken⟩, rfl⟩
    · rw [others j e, tagged j e]
      exact ⟨Iff.rfl, rfl⟩

/-- What a re-entry makes of a record. -/
def Record.reentered (r : Record) (h : Hail) (level tag : Nat) : Record :=
  { r with
    contact := .granted, tag := some tag, cls := some h.cls.val, retune := none, missCount := 0, grantMisses := 0,
    mismatchCount := 0, level := level, lowCount := 0, fading := false, downBit := false, upBit := true, soft := some .reentry }

/-- `t` is `s` after the re-entry of record `i`. -/
structure State.reentered (s t : State) (i : Fin 48) (h : Hail) (level : Nat) : Prop where
  record : t.record i = (s.record i).reentered h level s.roster.tagCounter
  others : ∀ j, j ≠ i → t.record j = s.record j
  tells : s.tells t i [.softFault]
  freed : s.cellsFreed t (lentOrPendingOf i)
  air : t.air = { s.air with grants := if i ∈ s.air.grants then s.air.grants else s.air.grants ++ [i] }
  pool : t.pool = s.pool
  ports : t.ports = s.ports
  sweep : t.sweep = s.sweep
  summonCount : t.roster.summonCount = s.roster.summonCount
  moved : (s.record i).contact ≠ .free → s.tagMoved t

theorem State.reenter_reentered (s : State) (i : Fin 48) (h : Hail) (level : Nat) :
    s.reentered (s.reenter i h level) i h level := by
  obtain ⟨own, others, frame, count, counter⟩ := s.giveTag_modified (f := fun r => r.takenAfresh h level) i
  have moved := s.giveTag_moved i
  have tagged (j : Fin 48) (e : j ≠ i) : (s.giveTag i).record j = s.record j :=
    State.record_modifyRecord_ne s (fun r => { r with tag := some s.roster.tagCounter }) e.symm
  unfold State.reenter
  dsimp only
  generalize (s.giveTag i).modifyRecord i _ = u at *
  have freed := ((u.cellsFreed_freeRoleOf i .lent).trans ((u.freeRoleOf i .lent).cellsFreed_freeRoleOf i .pending)).of_eq
    (lentOrPending_eq i)
  have roster : ((u.freeRoleOf i .lent).freeRoleOf i .pending).roster = u.roster := by
    rw [State.freeRoleOf_roster, State.freeRoleOf_roster]
  have host : ((u.freeRoleOf i .lent).freeRoleOf i .pending).host = u.host := by
    rw [State.freeRoleOf_host, State.freeRoleOf_host]
  have air : ((u.freeRoleOf i .lent).freeRoleOf i .pending).air = u.air := by
    rw [State.freeRoleOf_air, State.freeRoleOf_air]
  have pool : ((u.freeRoleOf i .lent).freeRoleOf i .pending).pool = u.pool := by
    rw [State.freeRoleOf_pool, State.freeRoleOf_pool]
  have ports : ((u.freeRoleOf i .lent).freeRoleOf i .pending).ports = u.ports := by
    rw [State.freeRoleOf_ports, State.freeRoleOf_ports]
  have sweep : ((u.freeRoleOf i .lent).freeRoleOf i .pending).sweep = u.sweep := by
    rw [State.freeRoleOf_sweep, State.freeRoleOf_sweep]
  have params : ((u.freeRoleOf i .lent).freeRoleOf i .pending).params = u.params :=
    State.params_of_calm ((State.freeRoleOf_calm ..).trans (State.freeRoleOf_calm ..))
  unfold State.cancelRetune
  generalize (u.freeRoleOf i .lent).freeRoleOf i .pending = v at *
  have cleared := v.touches_modifyRecord i fun r => { r with retune := none }
  have faulted := cleared.trans (State.touches_setSoft _ i .reentry)
  rw [cleared.record, State.record_congr roster, own] at faulted
  generalize State.setSoft _ i .reentry = w at *
  have tag : w.roster.tagCounter = v.roster.tagCounter := by
    have same := congrArg (fun t : State => t.roster.tagCounter) faulted.frame
    exact same
  rw [State.placeGrant_eq]
  have wAir : w.air = s.air := (faulted.air.trans air).trans (by rw [frame])
  have beside (j : Fin 48) (e : j ≠ i) : w.record j = s.record j := by
    rw [faulted.others j e, State.record_congr roster, others j e]
  refine ⟨faulted.record, beside, ?_, ?_, ?_, ?_, ?_, ?_, ?_, fun taken => moved.congr rfl ?_ fun j => ?_⟩
  · exact faulted.tells.before (params.trans (by rw [frame])) (congrArg HostPort.attention (host.trans (by rw [frame])))
  · exact freed.congr (by rw [frame]) (by rw [frame]) faulted.cells faulted.conditions
  · rw [wAir]
  · exact (faulted.pool.trans pool).trans (by rw [frame])
  · exact (faulted.ports.trans ports).trans (by rw [frame])
  · exact (faulted.sweep.trans sweep).trans (by rw [frame])
  · exact (faulted.summonCount.trans (congrArg Roster.summonCount roster)).trans count
  · exact (tag.trans (congrArg Roster.tagCounter roster)).trans counter
  · show ((w.record j).contact = .free ↔ _) ∧ (w.record j).tag = _
    by_cases e : j = i
    · rw [e, faulted.record, State.giveTag_record]
      exact ⟨⟨fun free => absurd free nofun, fun free => absurd free taken⟩, rfl⟩
    · rw [beside j e, tagged j e]
      exact ⟨Iff.rfl, rfl⟩

/-- Settles O39: a re-grant, a re-entry and a revival, each by what it leaves. -/
theorem hailsOfHeldCarsAreDecided : Obligations.HailsOfHeldCarsAreDecided := by
  unfold Obligations.HailsOfHeldCarsAreDecided
  intro s t h level i r known hr hard ht
  subst hr
  have decided := State.decideHail_known (level := level) known hard
  rw [← ht] at decided
  refine ⟨fun contact opened => ?_, fun contact opened => ?_, fun contact opened => ?_⟩
  · rw [contact, opened] at decided
    change t = s.regrant i level at decided
    unfold State.regrant at decided
    rw [State.placeGrant_eq] at decided
    have given := s.touches_modifyRecord i fun r => { r with grantMisses := 0, level := level }
    subst decided
    exact ⟨given.record, given.others, rfl⟩
  · rw [contact, opened] at decided
    change t = s.reenter i h level at decided
    have entered := s.reenter_reentered i h level
    rw [← decided] at entered
    obtain ⟨record, others, tells, ⟨cells, plan, classes⟩, air, pool, ports, sweep, count, moved⟩ := entered
    refine ⟨record, moved (by rw [contact]; decide), ?_, others, fun c => ?_, plan, classes, air, pool, ports, sweep, count⟩
    · exact State.tells.told (earlier := []) (later := []) tells (fun _ mem => absurd mem List.not_mem_nil)
    · rw [cells]
      unfold lentOrPendingOf
      simp only [Bool.or_eq_true, beq_iff_eq]
  · have revived : t = s.revive i h level := by
      have admits : (s.air.entryOpen || h.paged) = true := Bool.or_eq_true _ _ ▸ opened
      obtain paging | dormant := contact
      · rw [paging, admits] at decided
        exact decided
      · rw [dormant, admits] at decided
        exact decided
    refine ⟨fun full => ?_, fun turn found => ?_⟩
    · rw [revived]
      unfold State.revive State.askedPeriod
      rw [full]
      rfl
    · obtain ⟨admitted, moved⟩ := State.revive_admitted (s := s) (i := i) (h := h) (level := level) found
      rw [← revived] at admitted moved
      refine ⟨admitted.claim, moved ?_, admitted.classes, admitted.degraded, admitted.others, admitted.cell, admitted.air,
        admitted.pool, admitted.sweep, admitted.summonCount⟩
      obtain paging | dormant := contact
      · rw [paging]; decide
      · rw [dormant]; decide

end

end Sys2Proof.Machine

/-! Hails of unknown cars, and the end of an entry slot -/

namespace Sys2Proof.Machine

/-! ## Hails of unknown cars, and the end of an entry slot (R42 to R46, R86) -/

section
variable {s : State} {i : Fin 48} {h : Hail} {level : Nat} {turn : Turn}

theorem State.countEntered_frame (s : State) : s.countEntered = { s with sweep := s.countEntered.sweep } := by
  unfold State.countEntered
  split <;> rfl

theorem State.countEntered_sweep (s : State) : s.countEntered.sweep = if s.sweep.state = .running then
    { s.sweep with entered := if s.sweep.entered < 255 then s.sweep.entered + 1 else s.sweep.entered } else s.sweep := by
  unfold State.countEntered satAdd
  by_cases running : s.sweep.state = .running
  · rw [if_pos running, if_pos (beq_iff_eq.2 running)]
  · rw [if_neg running, if_neg (by simpa using running)]

/-- The admission of a car, before it is counted as entered. -/
theorem State.admitCar_admitted (free : s.allocatable = some i) (found : s.findTurn (s.askedPeriod h) = some turn) :
    ∃ t, s.admitCar h level = t.countEntered ∧
      s.admitted t i turn (s.askedPeriod h) h.previousStation level
        { h.newRecord level with tag := some s.roster.tagCounter } ∧ s.tagMoved t := by
  have plan := (State.findTurn_inPlan found).1
  obtain ⟨u, hu⟩ : ∃ u, u = (s.setRecord i (h.newRecord level)).giveTag i := ⟨_, rfl⟩
  have own : u.record i = { h.newRecord level with tag := some s.roster.tagCounter } := by
    rw [hu, State.giveTag_record]
    show { (s.setRecord i (h.newRecord level)).record i with tag := some s.roster.tagCounter } = _
    rw [State.record_setRecord]
  have others (j : Fin 48) (e : j ≠ i) : u.record j = s.record j := by
    have kept : ((s.setRecord i (h.newRecord level)).giveTag i).record j = (s.setRecord i (h.newRecord level)).record j :=
      State.record_modifyRecord_ne _ (fun r => { r with tag := some (s.setRecord i (h.newRecord level)).roster.tagCounter }) e.symm
    rw [hu, kept, State.record_setRecord_ne _ _ e.symm]
  have moved : s.tagMoved u := by
    rw [hu]
    exact (State.giveTag_moved (s.setRecord i (h.newRecord level)) i).congr rfl rfl fun _ => ⟨Iff.rfl, rfl⟩
  have admits : s.admitCar h level = (((((u.allocateTurn i turn).noteDegrade i (s.askedPeriod h) turn.period).placeGrant
      i).openClaim i h.previousStation level).countEntered) := by
    have params : (u.allocateTurn i turn).params = s.params := by
      rw [hu]
      exact State.params_of_calm (State.giveTurnCells_calm ..)
    have asked : (u.allocateTurn i turn).askedPeriod h = s.askedPeriod h := by
      unfold State.askedPeriod
      rw [params]
    rw [← asked, hu]
    unfold State.admitCar
    rw [free]
    dsimp only
    rw [found]
  obtain ⟨admitted, kept⟩ := u.allocate_admitted i plan (s.askedPeriod h) h.previousStation level
  refine ⟨_, admits, ?_, admitted.tagMoved moved kept⟩
  have whole := admitted.of_before others (by rw [hu]; rfl) (by rw [hu]; rfl)
  rw [own] at whole
  exact whole

/-- No page is used up: nothing is exhausted. -/
theorem State.exhaustPages_none (some_ : ∀ i, (s.record i).contact = .paging → (s.record i).pageCount ≠ 0) : s.exhaustPages = s := by
  unfold State.exhaustPages
  refine List.foldl_fixed' (fun i => if_neg fun out => ?_) _
  rw [Bool.and_eq_true, beq_iff_eq, beq_iff_eq] at out
  exact some_ i out.1 out.2

/-- The end of an entry slot with a good hail, after which no page is used up. -/
theorem State.finishSlot_hail {k : Nat} {u : UpFrame} (light : s.air.light = .ready) (up : s.air.up = some u)
    (good : decodeHail u.bytes = some h)
    (slot : k = 1 ∨ (k = 2 ∧ ∀ i, ((s.decideHail h u.level).record i).contact = .paging →
      ((s.decideHail h u.level).record i).pageCount ≠ 0)) :
    s.finishSlot k = (s.decideHail h u.level).applyHalt.clearSlot := by
  have ready : s.countDarkEnd = s := by simp only [State.countDarkEnd, light]
  have early : k ≠ 31 := by omega
  have notice : s.endNotice k = s.decideHail h u.level := by
    unfold State.endNotice State.endEntry
    rw [Air.judge_good light up good, if_neg (by omega), if_pos (by omega)]
    dsimp only
    obtain one | ⟨two, none⟩ := slot
    · exact if_neg (by omega)
    · rw [if_pos two, State.exhaustPages_none none]
  rw [s.finishSlot_early early, ready, notice]

/-- Settles O38: a held hail and a decided one by the end of its slot, a refusal and an admission by what they leave. -/
theorem hailsAreHeldOrAdmitted : Obligations.HailsAreHeldOrAdmitted := by
  unfold Obligations.HailsAreHeldOrAdmitted
  refine ⟨?_, ?_, ?_⟩
  · intro s k w u h hr hp hs one hw light up good holds
    have held : s.decideHail h u.level = s.countHeld := State.decideHail_held holds
    refine ⟨_, exec_slotEnd hr hp hs hw, ?_⟩
    rw [State.finishSlot_hail light up good (.inl one), held, State.applyHalt_frame]
    exact ⟨rfl, rfl, rfl, rfl, rfl, rfl, rfl⟩
  · intro s h level unknown opened
    have decided := State.decideHail_unknown (level := level) unknown
    rw [if_pos opened] at decided
    rw [decided]
    refine ⟨fun full => ?_, fun i free full => ?_, fun i turn free found silent => ?_, fun i turn free found => ?_⟩
    · unfold State.admitCar
      rw [full]
      rfl
    · unfold State.admitCar State.askedPeriod
      rw [free, full]
      rfl
    · obtain ⟨t, admits, admitted, _⟩ := State.admitCar_admitted (level := level) free found
      rw [admits, State.countEntered_frame]
      obtain ⟨own, ports⟩ := admitted.claim.1 (silent.imp id .inl)
      refine ⟨own, admitted.silent silent, admitted.cell, ?_, admitted.pool, admitted.classes, ports⟩
      show i ∈ t.air.grants
      rw [admitted.air]
      dsimp only
      split
      next listed => exact listed
      next => exact List.mem_append_right _ (List.mem_singleton_self i)
    · obtain ⟨t, admits, admitted, moved⟩ := State.admitCar_admitted (level := level) free found
      rw [admits]
      have sweep := t.countEntered_sweep
      rw [admitted.sweep] at sweep
      rw [State.countEntered_frame]
      exact ⟨admitted.claim.after rfl rfl rfl, moved, admitted.classes, admitted.degraded, admitted.others, admitted.cell,
        congrArg Air.grants admitted.air, sweep, admitted.pool⟩
  · intro s k u h hr hp hs hw light up good slot
    obtain ⟨w, working⟩ := Option.ne_none_iff_exists'.1 hw
    refine ⟨_, exec_slotEnd hr hp hs working, ?_⟩
    rw [State.finishSlot_hail light up good slot, State.applyHalt_frame]
    refine ⟨rfl, rfl, ?_, rfl, fun still => ?_⟩
    · exact (State.slot_of_within (s.decideHail_settles h u.level).towithin).trans hs
    · have free : (s.decideHail h u.level).haltFree :=
        (State.haltFree.of_false still).kept (f := fun t => t.decideHail h u.level) (s.decideHail_veiled h u.level)
      have same := congrArg State.sweep free.applyHalt
      exact same

end

end Sys2Proof.Machine

/-! The release exchange at the end of its slot -/

namespace Sys2Proof.Machine

/-! ## The release exchange at the end of its slot (R93) -/

section
variable {s w t : State} {i : Fin 48} {k : Fin 32} {x : Exchange}

/-- A dark slot counted before a return to FREE. -/
theorem State.countDarkEnd_freesToo (s : State) (i : Fin 48) : s.freesToo s.countDarkEnd i := by
  have frame := s.countDarkEnd_frame
  have classes := s.countDarkEnd_counted.2
  generalize s.countDarkEnd = d at *
  have record (j : Fin 48) : d.record j = s.record j := by rw [frame]; rfl
  refine ⟨by rw [record], by rw [record], by rw [record], by rw [record, frame], by rw [record, frame],
    fun j _ => .inl (record j), by rw [frame], fun b => by rw [record, frame], fun t _ low => low.of_same ?_ (by rw [frame])
      (classes .poolLow (by decide)), by rw [frame], by rw [frame], by rw [frame], by rw [frame], by rw [frame], by rw [frame],
    by rw [frame], fun cl _ dark _ => classes cl (by simpa using dark), by rw [frame], by rw [frame], by rw [frame],
    by rw [frame], by rw [frame], by rw [frame], by rw [frame]⟩
  rw [record, frame]

/-- What a slot end counts before it judges an exchange. -/
def State.counted (s : State) : State := s.countDarkEnd.countWindow (s.countDarkEnd.air.judge decodeAnswer)

/-- Those counts leave all but the air's counts, the counters of the host and their classes. -/
structure State.countedOnly (s w : State) : Prop where
  roster : w.roster = s.roster
  cells : w.cells = s.cells
  pool : w.pool = s.pool
  ports : w.ports = s.ports
  inbound : w.inbound = s.inbound
  params : w.params = s.params
  grants : w.air.grants = s.air.grants
  sweep : w.sweep = s.sweep
  attention : w.host.attention = s.host.attention
  classes : s.onlyClasses w [.airCheck, .airDark]

theorem State.counted_only (s : State) : s.countedOnly s.counted := by
  have frame := s.countDarkEnd_frame
  have dark := s.countDarkEnd_counted.2
  unfold State.counted
  generalize s.countDarkEnd = d at *
  obtain ⟨cells, pool, ports, inbound, params, roster, grants, sweep⟩ := d.countWindow_kept (d.air.judge decodeAnswer)
  have check := d.countWindow_classes (d.air.judge decodeAnswer)
  refine ⟨roster.trans (by rw [frame]), cells.trans (by rw [frame]), pool.trans (by rw [frame]), ports.trans (by rw [frame]),
    inbound.trans (by rw [frame]), params.trans (by rw [frame]), grants.trans (by rw [frame]), sweep.trans (by rw [frame]),
    (d.countWindow_attention _).trans (by rw [frame]), fun c hc => ?_⟩
  simp only [List.mem_cons, List.not_mem_nil, or_false, not_or] at hc
  obtain ⟨notCheck, notDark⟩ := hc
  exact (check c (by simpa using notCheck)).trans (dark c (by simpa using notDark))

theorem State.counted_freesToo (s : State) (i : Fin 48) : s.freesToo s.counted i :=
  (s.countDarkEnd_freesToo i).trans (State.countWindow_freesToo _ _ i)

theorem State.counted_served (served : s.transmittersServed) : s.counted.transmittersServed := by
  have only := s.counted_only
  unfold State.transmittersServed at served ⊢
  have due (p : Port) (j : Fin 48) : s.counted.dueThrough p j = s.dueThrough p j := by
    unfold State.dueThrough
    rw [State.record_congr only.roster, only.params]
  intro p
  rw [State.port_congr only.ports, only.params]
  simp only [due]
  exact served p

/-- The state that the exchange of a release leaves. -/
theorem State.judged_release (release : x.poll.release = true) (contact : (s.record x.record).contact = .releasing) :
    s.countDarkEnd.judged x k.val = if s.air.light.sent then s.counted.completeRelease x.record else s.counted := by
  have light : s.countDarkEnd.air.light = s.air.light := by rw [s.countDarkEnd_frame]
  have releasing : (s.counted.record x.record).contact = .releasing := by
    rw [State.record_congr s.counted_only.roster, contact]
  unfold State.judged State.judgeExchange
  rw [release, if_pos rfl, light]
  unfold State.counted at releasing ⊢
  rw [releasing]
  refine if_congr ?_ rfl rfl
  rw [beq_self_eq_true, Bool.and_true]

/-- An unpinned record after its release. -/
theorem State.completeRelease_free (unpinned : (s.record i).pinned = false) :
    s.completeRelease i = s.becomeFree i true (some .retired) := by
  unfold State.completeRelease
  rw [unpinned]
  rfl

/-- A record set aside DORMANT after its release. -/
def Record.setAside (r : Record) (mark : SweepMark) : Record :=
  { r with
    contact := .dormant, turn := none, retune := none, inFlight := none, pageCount := 0, lastHanding := none, mark := mark }

/-- A pinned record after its release. -/
theorem State.completeRelease_dormant (pinned : (s.record i).pinned = true) :
    s.turnGone (s.completeRelease i) i
        ((s.record i).setAside (if s.sweepAwaits i then .left else (s.record i).mark)) [.dormant] ∧
      (s.completeRelease i).air.grants = s.air.grants.filter (fun j => j != i) ∧
      (s.completeRelease i).sweep.left = s.sweep.left + (if s.sweepAwaits i then 1 else 0) := by
  have given := (s.withdrawGrant i).giveUpTurn_gaveUp i
  have emptied := given.touches (State.touches_modifyRecord _ i fun r => { r with inFlight := none })
  rw [given.record] at emptied
  have gone := emptied.withdrawn
  have sweep : (((s.withdrawGrant i).giveUpTurn i).modifyRecord i fun r => { r with inFlight := none }).sweep = s.sweep := emptied.sweep
  have released : s.completeRelease i = ((((s.withdrawGrant i).giveUpTurn i).modifyRecord i fun r =>
      { r with inFlight := none }).markLeft i).becomeDormant i := by
    unfold State.completeRelease
    rw [pinned]
    rfl
  rw [released]
  clear released emptied given
  generalize ((s.withdrawGrant i).giveUpTurn i).modifyRecord i (fun r => { r with inFlight := none }) = v at *
  obtain ⟨own, others, _, left⟩ := v.markLeft_spec i
  have awaits : v.sweepAwaits i = s.sweepAwaits i := State.sweepAwaits_congr sweep (by rw [gone.record]; rfl)
  have attention := v.markLeft_attention i
  have calm := State.params_of_calm (v.markLeft_calm i)
  have quiet := State.inbound_of_quiet (v.markLeft_quiet i)
  have cells := v.markLeft_cells i
  have pool := v.markLeft_pool i
  have ports := v.markLeft_ports i
  have air := v.markLeft_air i
  have conditions := v.markLeft_conditions i
  unfold State.becomeDormant
  generalize v.markLeft i = m at *
  have modified := m.touches_modifyRecord i fun r => { r with contact := .dormant, pageCount := 0, lastHanding := none }
  have told := modified.trans (State.touches_offerReason _ i .dormant)
  rw [modified.record, own, gone.record, awaits] at told
  generalize State.offerReason _ i .dormant = t at *
  refine ⟨⟨told.record, fun j e => ?_, ?_, ?_, ?_, ?_, ?_, ?_⟩, ?_, ?_⟩
  · rw [told.others j e, others j e, gone.others j e]
  · exact (gone.tells.after attention).trans told.tells (calm.trans gone.params)
  · exact gone.freed.congr rfl rfl (told.cells.trans cells) (told.conditions.trans conditions)
  · rw [told.pool, pool, gone.pool]
  · rw [told.ports, ports, gone.ports]
  · rw [told.inbound, quiet, gone.inbound]
  · rw [told.params, calm, gone.params]
  · rw [told.air, air, gone.grants]
  · rw [told.sweep, left, sweep, awaits]

end

end Sys2Proof.Machine

/-! The release exchange -/

namespace Sys2Proof.Machine

/-! ## The release exchange (R93) -/

section
variable {s : State} {k : Fin 32} {x : Exchange}

/-- The reasons of a release. -/
theorem keptBy_released : ∀ reason ∈ [Reason.summonEnded .cancelled, .retired], ∀ other ∈ [Reason.summonEnded .cancelled, .retired],
    reason.keptBy other := by
  unfold Reason.keptBy
  decide

theorem releasedReasons_mem {b : Bool} {r : Reason} (h : r ∈ (if b then [Reason.summonEnded .cancelled] else []) ++ [.retired]) :
    r ∈ [Reason.summonEnded .cancelled, .retired] := by
  cases b with
  | true => exact h
  | false => exact List.mem_cons_of_mem _ h

/-- The second part of O35: a release exchange, whose POLL was sent or was not. -/
theorem releaseExchange_ends (hr : s.resetHeld = false) (hp : s.resetPending = false) (hs : s.air.slot = some k) (low : 3 ≤ k.val)
    (high : k.val ≤ 30) (hw : s.air.work ≠ none) (hx : s.air.exchange = some x) (release : x.poll.release = true)
    (unheld : s.roster.held = []) (contact : (s.record x.record).contact = .releasing) :
    exec .slotEnd s = .next (if s.air.light.sent then s.counted.completeRelease x.record else s.counted).turnLeft := by
  rw [exec_slotEnd_turn hr hp hs low high hw hx unheld, State.judged_release release contact]

theorem State.counted_freed (unheld : s.roster.held = []) {i : Fin 48} (unpinned : (s.record i).pinned = false) :
    let t := (s.counted.completeRelease i).turnLeft
    s.recordFreed t i ∧ s.notesDropped t i ∧ t.air.grants = s.air.grants.filter (fun j => j != i) ∧ s.told t i .retired ∧
      ((s.record i).summoned = true → s.told t i (.summonEnded .cancelled)) := by
  have only := s.counted_only
  have record := State.record_congr only.roster i
  have free := s.counted.becomeFree_retired i
  rw [State.completeRelease_free (by rw [record]; exact unpinned)]
  have told := (free.tells.before only.params only.attention).after (congrArg HostPort.attention (State.turnLeft_host _))
  rw [record] at told
  have kept (reason : Reason) (mem : reason ∈ (if (s.record i).summoned then [Reason.summonEnded .cancelled] else []) ++ [.retired]) :=
    told.told_mem mem fun other among => keptBy_released _ (releasedReasons_mem mem) _ (releasedReasons_mem among)
  refine ⟨(free.freed.too (s.counted_freesToo i)).turnLeft unheld, fun pool served => ?_, ?_, kept _ (by simp),
    fun summoned => kept _ (List.mem_append_left _ (mem_summonReasons summoned))⟩
  · have sent := free.ports s served (State.counted_served served) only.ports only.params (by rw [record]; exact (pool.2.1 _).1)
    rw [State.turnLeft_ports, sent, record]
    unfold State.listed
    rw [only.pool]
  · rw [State.turnLeft_grants, free.grants, only.grants]

theorem State.counted_setAside {i : Fin 48} (pinned : (s.record i).pinned = true) :
    let t := (s.counted.completeRelease i).turnLeft
    t.record i = (s.record i).setAside (if s.sweepAwaits i then .left else (s.record i).mark) ∧
      s.told t i .dormant ∧ (∀ j, j ≠ i → t.record j = s.record j) ∧
      (∀ c : Fin 232, t.cells[c] = if heldBy i s.cells[c] then none else s.cells[c]) ∧
      s.planFreed t (heldBy i) ∧ s.onlyClasses t [.planFull, .airCheck, .airDark] ∧
      t.air.grants = s.air.grants.filter (fun j => j != i) ∧
      t.sweep.left = s.sweep.left + (if s.sweepAwaits i then 1 else 0) ∧
      t.pool = s.pool ∧ t.ports = s.ports ∧ t.inbound = s.inbound := by
  have only := s.counted_only
  have record (j : Fin 48) := State.record_congr only.roster j
  have awaits : s.counted.sweepAwaits i = s.sweepAwaits i := State.sweepAwaits_congr only.sweep (by rw [record])
  obtain ⟨gone, grants, left⟩ := State.completeRelease_dormant (s := s.counted) (i := i) (by rw [record]; exact pinned)
  rw [record, awaits] at gone
  rw [awaits] at left
  have told := (gone.tells.before only.params only.attention).after (congrArg HostPort.attention (State.turnLeft_host _))
  obtain ⟨freed, ⟨ending, keeping⟩, classes⟩ := gone.freed
  have plan : s.counted.classFlags .planFull = s.classFlags .planFull := only.classes .planFull (by decide)
  rw [plan] at ending keeping
  simp only [only.cells] at freed ending keeping
  refine ⟨(State.turnLeft_record ..).trans gone.record, ?_, fun j e => ?_, fun c => ?_, ?_, fun c hc => ?_, ?_, ?_, ?_, ?_, ?_⟩
  · exact State.tells.told (earlier := []) (later := []) told (fun _ mem => absurd mem List.not_mem_nil)
  · rw [State.turnLeft_record, gone.others j e, record]
  · rw [State.turnLeft_cells]
    exact freed c
  · unfold State.planFreed State.causeEnded
    rw [State.turnLeft_classFlags]
    exact ⟨ending, keeping⟩
  · simp only [List.mem_cons, List.not_mem_nil, or_false, not_or] at hc
    obtain ⟨notPlan, notCheck, notDark⟩ := hc
    rw [State.turnLeft_classFlags, classes c (by simpa using notPlan), only.classes c (by simp [notCheck, notDark])]
  · rw [State.turnLeft_grants, grants, only.grants]
  · rw [State.turnLeft_left, left, only.sweep]
  · rw [State.turnLeft_pool, gone.pool, only.pool]
  · rw [State.turnLeft_ports, gone.ports, only.ports]
  · rw [State.turnLeft_inbound, gone.inbound, only.inbound]

/-- A release exchange whose POLL was not sent: nothing but the dark count moves. -/
theorem State.counted_unsent (unheld : s.roster.held = []) (dark : s.air.light ≠ .ready) :
    let t := s.counted.turnLeft
    t.roster = s.roster ∧ t.cells = s.cells ∧ s.onlyClasses t [.airDark] ∧ t.pool = s.pool ∧ t.ports = s.ports ∧
      t.inbound = s.inbound ∧ t.air.grants = s.air.grants := by
  have only := s.counted_only
  have same : s.counted = s.countDarkEnd := by
    unfold State.counted
    rw [Air.judge_dark (by rw [s.countDarkEnd_frame]; exact dark)]
    rfl
  have classes := s.countDarkEnd_counted.2
  rw [← same] at classes
  refine ⟨?_, ?_, fun c hc => ?_, ?_, ?_, ?_, ?_⟩
  · rw [State.turnLeft_roster, only.roster]
    exact congrArg (fun l => { s.roster with held := l }) unheld.symm
  · rw [State.turnLeft_cells, only.cells]
  · rw [State.turnLeft_classFlags, classes c hc]
  · rw [State.turnLeft_pool, only.pool]
  · rw [State.turnLeft_ports, only.ports]
  · rw [State.turnLeft_inbound, only.inbound]
  · rw [State.turnLeft_grants, only.grants]

end

end Sys2Proof.Machine

/-! One record with its pages used up -/

namespace Sys2Proof.Machine

/-! ## One record with its pages used up (R86) -/

/-- The reasons of an exhaustion. -/
def exhaustReasons (r : Record) : List Reason :=
  (if r.summoned then [.summonEnded .failed] else []) ++ [if r.pinned then .dormant else .retired]

/-- A record with its pages used up, as its exhaustion leaves it. -/
def State.exhausted (s : State) (i : Fin 48) : Record :=
  if (s.record i).pinned then
    { s.record i with contact := .dormant, pageCount := 0, lastHanding := none, summoned := false }
  else
    { Record.free with carId := (s.record i).carId, mark := if s.sweepAwaits i then .left else (s.record i).mark }

/-- `t` is `s` after the exhaustion of record `i`. -/
structure State.exhausts (s t : State) (i : Fin 48) : Prop where
  own : t.record i = s.exhausted i
  others : ∀ j, j ≠ i → (s.record j).sameButSent (t.record j)
  tells : s.tells t i (exhaustReasons (s.record i))
  cells : ∀ c : Fin 232, t.cells[c] =
    if (s.record i).pinned = false ∧ heldBy i s.cells[c] = true then none else s.cells[c]
  pool : ∀ b : Fin 64, t.pool[b] = if (s.record i).pinned = false ∧ b ∈ (s.record i).messages then none else s.pool[b]
  plan : s.causeEnded t .planFull (∃ c : Fin 232, (s.record i).pinned = false ∧ heldBy i s.cells[c] = true)
  low : s.poolReported t ((s.record i).pinned = false ∧ ∃ b ∈ (s.record i).messages, s.pool[b] ≠ none)
  identity : (s.record i).pinned = false → s.classReported t .identity (decide (∃ j, (t.record j).hard ≠ none))
  unreported : (s.record i).pinned = true → t.classFlags .identity = s.classFlags .identity
  full : s.causeEnded t .rosterFull ((s.record i).pinned = false ∧ t.onAttention i = false)
  linkDown : t.classFlags .linkDown = s.classFlags .linkDown
  portCheck : t.classFlags .portCheck = s.classFlags .portCheck
  summonCount : t.roster.summonCount = s.roster.summonCount - (if (s.record i).summoned then 1 else 0)
  pinnedCount : t.roster.pinnedCount = s.roster.pinnedCount
  pagePointer : t.roster.pagePointer = s.roster.pagePointer
  params : t.params = s.params
  inbound : t.inbound = s.inbound
  marks : t.sweepInProgress = s.sweepInProgress ∨ ∀ j, (t.record j).mark ≠ .marked
  ports : ∀ w : State, w.transmittersServed → s.transmittersServed → s.ports = w.ports → s.params = w.params →
    (s.record i).messages.Nodup → t.ports = (if (s.record i).pinned then w
      else w.noteEachDropped (s.record i).carId (s.listed (s.record i))).ports

section
variable {s : State} {i : Fin 48}

theorem State.emptyRecord_mark (s : State) (i j : Fin 48) : ((s.emptyRecord i).record j).mark = (s.record j).mark := by
  show (((s.passOver i).modifyRecord i fun r => { Record.free with carId := r.carId, mark := r.mark }).record j).mark = _
  rw [State.record_modifyRecord_eq]
  split
  next same =>
    subst same
    rfl
  next => rfl

/-- A record that leaves a sweep ends it, or else it goes on as it was. -/
theorem State.markLeft_marks (s : State) (i : Fin 48) : (s.markLeft i).sweepInProgress = s.sweepInProgress ∨
    ∀ j, ((s.markLeft i).record j).mark ≠ .marked := by
  unfold State.markLeft State.endIfAccounted
  split
  next =>
    split
    next accounted =>
      refine .inr fun j marked => ?_
      rw [Bool.and_eq_true, List.isEmpty_iff] at accounted
      obtain ⟨_, none⟩ := accounted
      unfold State.markedList at none
      rw [List.map_eq_nil_iff, List.filter_eq_nil_iff] at none
      exact none j (List.mem_finRange j) (beq_iff_eq.2 marked)
    next => exact .inl rfl
  next => exact .inl rfl

theorem State.becomeFree_marks (s : State) (i : Fin 48) (notes : Bool) (reason : Option Reason) :
    (s.becomeFree i notes reason).sweepInProgress = s.sweepInProgress ∨
      ∀ j, ((s.becomeFree i notes reason).record j).mark ≠ .marked := by
  obtain ⟨u, hu⟩ : ∃ u, u = (((((s.withdrawGrant i).freeCellsOf i).freeMessages i notes).dropContext i).endSummon i
    .cancelled).dropPin i := ⟨_, rfl⟩
  have freed : s.becomeFree i notes reason = (((u.markLeft i).emptyRecord i).offerReason? i reason).reportAllocatable i := by
    rw [hu]
    rfl
  have sweep : u.sweep = s.sweep := by rw [hu]; simp
  have roster : (((u.markLeft i).emptyRecord i).offerReason? i reason).roster = ((u.markLeft i).emptyRecord i).roster := by
    cases reason with
    | none => rfl
    | some r => exact State.offerReason_roster ..
  have kept : (((u.markLeft i).emptyRecord i).offerReason? i reason).sweep = (u.markLeft i).sweep := by
    cases reason with
    | none => exact State.emptyRecord_sweep ..
    | some r => exact (State.offerReason_sweep ..).trans (State.emptyRecord_sweep ..)
  have marks (j : Fin 48) : ((s.becomeFree i notes reason).record j).mark = ((u.markLeft i).record j).mark := by
    rw [freed, State.record_congr ((State.reportAllocatable_roster ..).trans roster), State.emptyRecord_mark]
  have state : (s.becomeFree i notes reason).sweep = (u.markLeft i).sweep := by
    rw [freed, State.reportAllocatable_sweep, kept]
  have before : u.sweepInProgress = s.sweepInProgress := by
    unfold State.sweepInProgress
    rw [sweep]
  simp only [marks, ← before]
  have progress : (s.becomeFree i notes reason).sweepInProgress = (u.markLeft i).sweepInProgress := by
    unfold State.sweepInProgress
    rw [state]
  rw [progress]
  exact u.markLeft_marks i

/-- The exhaustion of a pinned record. -/
theorem State.exhaust_pinned (pinned : (s.record i).pinned = true) : s.exhausts (s.exhaust i) i := by
  have ended := s.endSummon_meets i .failed
  obtain ⟨_, _, tail⟩ := s.endSummon_spec i .failed
  simp only [State.tail, Prod.mk.injEq] at tail
  obtain ⟨_, page, count, pins, _⟩ := tail
  have sweep := s.endSummon_sweep i .failed
  have slept : s.exhaust i = (s.endSummon i .failed).becomeDormant i := by
    unfold State.exhaust
    dsimp only
    rw [ended.record]
    exact if_pos pinned
  rw [slept]
  clear slept
  unfold State.becomeDormant
  generalize s.endSummon i .failed = u at *
  have modified := u.touches_modifyRecord i fun r => { r with contact := .dormant, pageCount := 0, lastHanding := none }
  have told := modified.trans (State.touches_offerReason _ i .dormant)
  rw [modified.record, ended.record] at told
  generalize State.offerReason _ i .dormant = t at *
  have whole := ended.trans told.meets
  have own : s.exhausted i = _ := if_pos pinned
  have reasons : exhaustReasons (s.record i) = _ := congrArg (fun r => _ ++ [r]) (if_pos pinned)
  have flags (c : ConditionClass) : t.classFlags c = s.classFlags c := whole.classes c
  have none {p : Prop} : ¬ ((s.record i).pinned = false ∧ p) := fun e => absurd (pinned.symm.trans e.1) nofun
  have frame := told.frame
  refine ⟨whole.record.trans own.symm, fun j e => .inl (whole.others j e), ?_, fun c => ?_, fun b => ?_, ?_, ?_,
    fun unpinned => absurd (pinned.symm.trans unpinned) nofun, fun _ => flags _, ?_, flags _, flags _, told.summonCount.trans count,
    told.pinnedCount.trans pins, ?_, whole.params, whole.inbound, .inl ?_, fun w _ _ ports _ _ => ?_⟩
  · rw [reasons]
    exact whole.tells
  · rw [if_neg none, whole.cells]
  · rw [if_neg none, whole.pool]
  · exact ⟨fun ⟨_, e⟩ => absurd e none, fun _ => flags _⟩
  · exact ⟨fun e => absurd e none, fun _ => flags _⟩
  · exact ⟨fun e => absurd e none, fun _ => flags _⟩
  · refine Eq.trans ?_ page
    have same := congrArg (fun t : State => t.roster.pagePointer) frame
    exact same
  · unfold State.sweepInProgress
    rw [told.sweep, sweep]
  · rw [if_pos pinned, whole.ports, ports]

/-- The exhaustion of an unpinned record. -/
theorem State.exhaust_unpinned (unpinned : (s.record i).pinned = false) : s.exhausts (s.exhaust i) i := by
  obtain ⟨own, _⟩ := s.endSummon_spec i .failed
  have freed : s.exhaust i = (s.endSummon i .failed).becomeFree i true (some .retired) := by
    unfold State.exhaust
    dsimp only
    rw [own]
    exact if_neg (by rw [show ({ s.record i with summoned := false } : Record).pinned = false from unpinned]; decide)
  have free : s.retiredFree (s.exhaust i) i .failed := by
    rw [freed]
    exact State.becomeFree_failed (State.touches.refl _ i) (s.endSummon_stays i .failed).served
  have marks := (s.endSummon i .failed).becomeFree_marks i true (some .retired)
  rw [← freed] at marks
  clear freed own
  generalize s.exhaust i = t at *
  obtain ⟨own, others, cells, pool, summons, pins, _, _, page, _, ⟨plan, low, identity, full, linkDown, portCheck⟩, _, params,
    inbound, _⟩ := free.freed
  have exhausted : s.exhausted i = _ := if_neg (by rw [unpinned]; decide)
  have reasons : exhaustReasons (s.record i) = _ := congrArg (fun r => _ ++ [r]) (if_neg (by rw [unpinned]; decide))
  have ownHard : (t.record i).hard = none := by rw [own]; rfl
  have hard : (∃ j, (t.record j).hard ≠ none) ↔ ∃ j, j ≠ i ∧ (s.record j).hard ≠ none := by
    refine exists_congr fun j => ?_
    by_cases e : j = i
    · rw [e, ownHard]
      exact ⟨fun k => absurd rfl k, fun k => absurd rfl k.1⟩
    · rw [(others j e).hard]
      exact ⟨fun k => ⟨e, k⟩, And.right⟩
  refine ⟨own.trans exhausted.symm, others, ?_, fun c => ?_, fun b => ?_, ?_, ?_, fun _ => ?_,
    fun pinned => absurd (unpinned.symm.trans pinned) nofun, ?_, linkDown, portCheck, summons, ?_, page, params, inbound, ?_,
    fun w served served' ports sameParams nodup => ?_⟩
  · rw [reasons]
    exact free.tells
  · rw [cells]
    exact if_congr (by simp [unpinned]) rfl rfl
  · rw [pool]
    exact if_congr (by simp [unpinned]) rfl rfl
  · unfold State.planFreed at plan
    simpa only [unpinned, true_and] using plan
  · simpa only [unpinned, true_and] using low
  · simpa only [hard] using identity
  · simpa only [unpinned, true_and] using full
  · rw [pins, unpinned]
    rfl
  · have progress : (s.endSummon i .failed).sweepInProgress = s.sweepInProgress := by
      unfold State.sweepInProgress
      rw [State.endSummon_sweep]
    rw [← progress]
    exact marks
  · rw [free.ports w served served' ports sameParams nodup, unpinned]
    rfl

theorem State.exhaust_exhausts (s : State) (i : Fin 48) : s.exhausts (s.exhaust i) i := by
  cases pinned : (s.record i).pinned with
  | true => exact State.exhaust_pinned pinned
  | false => exact State.exhaust_unpinned pinned

end

end Sys2Proof.Machine

/-! Records with their pages used up, one after another -/

namespace Sys2Proof.Machine

/-! ## Records with their pages used up, one after another (R86) -/

/-- An event that ends a class and then another that ends it. -/
theorem State.causeEnded.trans {s t u : State} {c : ConditionClass} {p q : Prop} (h : s.causeEnded t c p) (k : t.causeEnded u c q) :
    s.causeEnded u c (p ∨ q) := by
  obtain ⟨ends, keeps⟩ := h
  obtain ⟨ends', keeps'⟩ := k
  refine ⟨fun either => ?_, fun neither => ?_⟩
  · by_cases second : q
    · by_cases first : p
      · rw [ends' second, ends first]
      · rw [ends' second, keeps first]
    · rw [keeps' second, ends (either.resolve_right second)]
  · rw [keeps' fun e => neither (.inr e), keeps fun e => neither (.inl e)]

/-- Changes of the free buffers, one after another. -/
theorem State.poolReported.trans {s t u : State} {p q : Prop} (h : s.poolReported t p) (k : t.poolReported u q)
    (params : t.params = s.params) (same : ¬ q → u.freeBuffers = t.freeBuffers) : s.poolReported u (p ∨ q) := by
  obtain ⟨reported, kept⟩ := h
  obtain ⟨reported', kept'⟩ := k
  rw [params] at reported'
  refine ⟨fun either => ?_, fun neither => ?_⟩
  · by_cases second : q
    · by_cases first : p
      · exact (reported first).trans (reported' second)
      · have said := reported' second
        unfold State.classReported at said ⊢
        rw [kept first] at said
        exact said
    · have said := reported (either.resolve_right second)
      unfold State.classReported at said ⊢
      rw [kept' second, same second]
      exact said
  · rw [kept' fun e => neither (.inr e), kept fun e => neither (.inl e)]

theorem State.offerReason_onAttention (s : State) {i j : Fin 48} (e : j ≠ i) (reason : Reason) :
    (s.offerReason i reason).onAttention j = s.onAttention j := by
  unfold State.onAttention State.offerReason
  split
  next =>
    show (addReason s.host.attention i reason).any _ = _
    unfold addReason
    split
    next =>
      rw [List.any_map]
      congr 1
      funext entry
      rw [Function.comp_apply]
      split <;> rfl
    next => simp [e.symm]
  next => rfl

/-- Reasons offered for a record put no other record on the attention list. -/
theorem State.tells.onAttention {s t : State} {i j : Fin 48} {l : List Reason} (h : s.tells t i l) (e : j ≠ i) :
    t.onAttention j = s.onAttention j := by
  induction l generalizing s with
  | nil =>
      unfold State.onAttention
      rw [show t.host.attention = s.host.attention from h]
  | cons reason l ih =>
      rw [ih (s := s.offerReason i reason) ?_, State.offerReason_onAttention s e]
      rw [State.tells, State.offerReason_attention, State.params_of_calm (s.offerReason_calm i reason)]
      exact h

/-- One more in a count over a list that holds it once. -/
theorem countP_or_eq {α : Type} [DecidableEq α] {l : List α} (nodup : l.Nodup) {i : α} (mem : i ∈ l) {p : α → Bool}
    (fresh : p i = false) (q : Bool) : l.countP (fun j => p j || (j == i && q)) = l.countP p + if q then 1 else 0 := by
  obtain ⟨a, b, rfl⟩ := List.append_of_mem mem
  have notBefore : i ∉ a := fun e => List.disjoint_of_nodup_append nodup e (List.mem_cons_self ..)
  have notAfter : i ∉ b := (List.nodup_cons.1 nodup.of_append_right).1
  have beside (c : List α) (absent : i ∉ c) : c.countP (fun j => p j || (j == i && q)) = c.countP p := by
    refine List.countP_congr fun j hj => ?_
    have ne : j ≠ i := fun e => absent (e ▸ hj)
    rw [beq_false_of_ne ne]
    simp
  rw [List.countP_append, List.countP_append, List.countP_cons, List.countP_cons, beside a notBefore, beside b notAfter, fresh,
    beq_self_eq_true, Bool.false_or, Bool.true_and, if_neg Bool.false_ne_true, Nat.add_zero, Nat.add_assoc]

/-- `t` is `s` after the exhaustion of the records that a test picks. -/
structure State.exhaustedAll (s t : State) (out : Fin 48 → Bool) : Prop where
  own : ∀ i, out i = true → (s.exhausted i).sameButSent (t.record i)
  others : ∀ i, out i = false → (s.record i).sameButSent (t.record i)
  told : ∀ i, out i = true → ∀ reason ∈ exhaustReasons (s.record i), s.told t i reason
  cells : ∀ c : Fin 232, t.cells[c] =
    if ∃ i, out i = true ∧ (s.record i).pinned = false ∧ heldBy i s.cells[c] = true then none else s.cells[c]
  pool : ∀ b : Fin 64, t.pool[b] =
    if ∃ i, out i = true ∧ (s.record i).pinned = false ∧ b ∈ (s.record i).messages then none else s.pool[b]
  plan : s.causeEnded t .planFull
    (∃ c : Fin 232, ∃ i, out i = true ∧ (s.record i).pinned = false ∧ heldBy i s.cells[c] = true)
  low : s.poolReported t (∃ i, out i = true ∧ (s.record i).pinned = false ∧ ∃ b ∈ (s.record i).messages, s.pool[b] ≠ none)
  identity : (∃ i, out i = true ∧ (s.record i).pinned = false) →
    s.classReported t .identity (decide (∃ j, (t.record j).hard ≠ none))
  unreported : (∀ i, out i = true → (s.record i).pinned = true) → t.classFlags .identity = s.classFlags .identity
  full : s.causeEnded t .rosterFull (∃ i, out i = true ∧ (s.record i).pinned = false ∧ t.onAttention i = false)
  linkDown : t.classFlags .linkDown = s.classFlags .linkDown
  portCheck : t.classFlags .portCheck = s.classFlags .portCheck
  summonCount : t.roster.summonCount = s.roster.summonCount - allRecords.countP fun i => out i && (s.record i).summoned
  pinnedCount : t.roster.pinnedCount = s.roster.pinnedCount
  pagePointer : t.roster.pagePointer = s.roster.pagePointer
  params : t.params = s.params
  inbound : t.inbound = s.inbound
  marks : t.sweepInProgress = s.sweepInProgress ∨ ∀ j, (t.record j).mark ≠ .marked

/-- One record more. -/
def withRecord (out : Fin 48 → Bool) (i j : Fin 48) : Bool := out j || j == i

section
variable {s t u : State} {i : Fin 48} {out : Fin 48 → Bool}

theorem withRecord_iff {j : Fin 48} : withRecord out i j = true ↔ out j = true ∨ j = i := by
  unfold withRecord
  rw [Bool.or_eq_true, beq_iff_eq]

theorem exists_withRecord {p : Fin 48 → Prop} : (∃ j, withRecord out i j = true ∧ p j) ↔ (∃ j, out j = true ∧ p j) ∨ p i := by
  constructor
  · rintro ⟨j, mem, hp⟩
    obtain before | rfl := withRecord_iff.1 mem
    · exact .inl ⟨j, before, hp⟩
    · exact .inr hp
  · rintro (⟨j, before, hp⟩ | hp)
    · exact ⟨j, withRecord_iff.2 (.inl before), hp⟩
    · exact ⟨i, withRecord_iff.2 (.inr rfl), hp⟩

/-- What an exhaustion reads of a record is not changed by a frame of its context. -/
structure Record.alike (r q : Record) : Prop where
  pinned : q.pinned = r.pinned
  messages : q.messages = r.messages
  summoned : q.summoned = r.summoned
  mark : q.mark = r.mark
  carId : q.carId = r.carId
  hard : q.hard = r.hard
  contact : q.contact = r.contact
  pageCount : q.pageCount = r.pageCount

theorem Record.sameButSent.alike {r q : Record} (h : r.sameButSent q) : r.alike q := by
  obtain rfl | ⟨c, _, rfl⟩ := h <;> exact ⟨rfl, rfl, rfl, rfl, rfl, rfl, rfl, rfl⟩

theorem exhaustReasons_alike {r q : Record} (h : r.alike q) : exhaustReasons q = exhaustReasons r := by
  unfold exhaustReasons
  rw [h.summoned, h.pinned]

theorem exhaustReasons_ends {r : Record} {reason : Reason} (h : reason ∈ exhaustReasons r) : reason ∈ endReasons := by
  refine summonReasons_ends r.summoned (if r.pinned then .dormant else .retired) ?_ reason h
  split <;> decide

/-- An exhausted record is the same whether others were exhausted before it. -/
theorem State.exhausted_alike (same : (s.record i).sameButSent (u.record i))
    (marks : u.sweepInProgress = s.sweepInProgress ∨ ∀ j, (u.record j).mark ≠ .marked) :
    (s.exhausted i).sameButSent (u.exhausted i) := by
  have alike := same.alike
  have awaits : u.sweepAwaits i = s.sweepAwaits i := by
    unfold State.sweepAwaits
    rw [alike.mark]
    obtain progress | none := marks
    · rw [progress]
    · rw [beq_false_of_ne fun e => none i (alike.mark.trans e), Bool.and_false, Bool.and_false]
  unfold State.exhausted
  rw [alike.pinned, alike.carId, alike.mark, awaits]
  split
  · obtain e | ⟨c, hc, e⟩ := same
    · rw [e]
      exact .inl rfl
    · rw [e]
      exact .inr ⟨c, hc, rfl⟩
  · exact .inl rfl

/-- What an exhaustion says of a hard fault. -/
theorem State.exhausts.hard (k : u.exhausts t i) (pinned : (u.record i).pinned = true) :
    (∃ j, (t.record j).hard ≠ none) ↔ ∃ j, (u.record j).hard ≠ none := by
  refine exists_congr fun j => ?_
  by_cases e : j = i
  · subst e
    rw [k.own]
    unfold State.exhausted
    rw [if_pos pinned]
  · rw [(k.others j e).hard]

theorem State.exhaustedAll.withOne (h : s.exhaustedAll u out) (fresh : out i = false) (k : u.exhausts t i) :
    s.exhaustedAll t (withRecord out i) := by
  have same := h.others i fresh
  have alike := same.alike
  have other {j : Fin 48} (e : out j = true) : j ≠ i := by
    rintro rfl
    exact absurd (e.symm.trans fresh) (by decide)
  have uParams := h.params
  have pinned := alike.pinned
  have cellKept (c : Fin 232) (e : heldBy i u.cells[c] = true) : u.cells[c] = s.cells[c] := by
    have read := h.cells c
    split at read
    · rw [read] at e
      exact absurd e nofun
    · exact read
  refine ⟨fun j mem => ?_, fun j mem => ?_, fun j mem reason among => ?_, fun c => ?_, fun b => ?_, ?_, ?_, fun leaver => ?_,
    fun all => ?_, ?_, k.linkDown.trans h.linkDown, k.portCheck.trans h.portCheck, ?_, k.pinnedCount.trans h.pinnedCount,
    k.pagePointer.trans h.pagePointer, k.params.trans h.params, k.inbound.trans h.inbound, ?_⟩
  · obtain before | rfl := withRecord_iff.1 mem
    · exact (h.own j before).trans (k.others j (other before))
    · rw [k.own]
      exact State.exhausted_alike same h.marks
  · have neither := not_or.1 (mt withRecord_iff.2 (by rw [mem]; decide))
    obtain ⟨notOut, ne⟩ := neither
    exact (h.others j (Bool.not_eq_true _ ▸ notOut)).trans (k.others j ne)
  · obtain before | rfl := withRecord_iff.1 mem
    · intro enabled
      exact State.says.tells (h.told j before reason among enabled) k.tells (.inl (other before))
    · have tells := k.tells
      rw [exhaustReasons_alike alike] at tells
      have told := tells.told_mem among fun o mem => keptBy_ends _ (exhaustReasons_ends among) _ (exhaustReasons_ends mem)
      unfold State.told at told ⊢
      rw [uParams] at told
      exact told
  · rw [k.cells, pinned, h.cells]
    simp only [exists_withRecord]
    by_cases before : ∃ j, out j = true ∧ (s.record j).pinned = false ∧ heldBy j s.cells[c] = true
    · rw [if_pos before, ite_self]
      exact (if_pos (Or.inl before)).symm
    · rw [if_neg before]
      exact if_congr (or_iff_right before).symm rfl rfl
  · rw [k.pool, pinned, alike.messages, h.pool]
    simp only [exists_withRecord]
    by_cases before : ∃ j, out j = true ∧ (s.record j).pinned = false ∧ b ∈ (s.record j).messages
    · rw [if_pos before, ite_self]
      exact (if_pos (Or.inl before)).symm
    · rw [if_neg before]
      exact if_congr (or_iff_right before).symm rfl rfl
  · have both := h.plan.trans k.plan
    refine (iff_of_eq (congrArg (s.causeEnded t .planFull) (propext ?_))).1 both
    simp only [exists_withRecord, exists_or, pinned]
    constructor
    · rintro (before | ⟨c, unpinned, held⟩)
      · exact .inl before
      · exact .inr ⟨c, unpinned, cellKept c held ▸ held⟩
    · rintro (before | ⟨c, unpinned, held⟩)
      · exact .inl before
      · by_cases first : ∃ j, out j = true ∧ (s.record j).pinned = false ∧ heldBy j s.cells[c] = true
        · exact .inl ⟨c, first⟩
        · exact .inr ⟨c, unpinned, by rw [h.cells, if_neg first]; exact held⟩
  · have both := h.low.trans k.low uParams fun still => State.freeBuffers_congr fun b => by
      rw [k.pool]
      split
      next gone =>
        by_contra held
        exact still ⟨gone.1, b, gone.2, fun e => held e.symm⟩
      next => rfl
    refine (iff_of_eq (congrArg (s.poolReported t) (propext ?_))).1 both
    rw [exists_withRecord, pinned, alike.messages]
    constructor
    · rintro (before | ⟨unpinned, b, mem, held⟩)
      · exact .inl before
      · refine .inr ⟨unpinned, b, mem, fun none => held ?_⟩
        rw [h.pool, none, ite_self]
    · rintro (before | ⟨unpinned, b, mem, held⟩)
      · exact .inl before
      · by_cases first : ∃ j, out j = true ∧ (s.record j).pinned = false ∧ b ∈ (s.record j).messages
        · obtain ⟨j, before, loose, listed⟩ := first
          exact .inl ⟨j, before, loose, b, listed, held⟩
        · exact .inr ⟨unpinned, b, mem, by rw [h.pool, if_neg first]; exact held⟩
  · rw [exists_withRecord] at leaver
    by_cases before : ∃ j, out j = true ∧ (s.record j).pinned = false
    · have first := h.identity before
      cases pins : (u.record i).pinned with
      | true =>
          unfold State.classReported at first ⊢
          simp only [k.hard pins, k.unreported pins]
          exact first
      | false => exact first.trans (k.identity pins)
    · have kept := h.unreported fun j e => Bool.not_eq_false _ ▸ fun loose => before ⟨j, e, loose⟩
      have said := k.identity (pinned.trans (leaver.resolve_left before))
      unfold State.classReported at said ⊢
      rw [kept] at said
      exact said
  · have pins : (u.record i).pinned = true := pinned.trans (all i (withRecord_iff.2 (.inr rfl)))
    exact (k.unreported pins).trans (h.unreported fun j e => all j (withRecord_iff.2 (.inl e)))
  · have both := h.full.trans k.full
    refine (iff_of_eq (congrArg (s.causeEnded t .rosterFull) (propext ?_))).1 both
    rw [exists_withRecord, pinned]
    refine or_congr_left (exists_congr fun j => and_congr_right fun e => ?_)
    rw [k.tells.onAttention (other e)]
  · rw [k.summonCount, h.summonCount, alike.summoned, Nat.sub_sub]
    have counted := countP_or_eq (List.nodup_finRange 48) (List.mem_finRange i)
      (p := fun j => out j && (s.record j).summoned) (by rw [fresh]; rfl) (s.record i).summoned
    refine congrArg _ (Eq.trans counted.symm ?_)
    refine List.countP_congr fun j _ => ?_
    unfold withRecord
    by_cases e : j = i
    · subst e
      rw [fresh, beq_self_eq_true]
      simp
    · rw [beq_false_of_ne e]
      simp
  · obtain none | same := k.marks.symm
    · exact .inr none
    · obtain progress | none := h.marks
      · exact .inl (same.trans progress)
      · refine .inr fun j marked => ?_
        by_cases e : j = i
        · subst e
          rw [k.own] at marked
          unfold State.exhausted State.sweepAwaits at marked
          rw [beq_false_of_ne (none j), Bool.and_false] at marked
          split at marked
          · exact none j marked
          · exact none j marked
        · exact none j ((k.others j e).alike.mark.symm.trans marked)

end

end Sys2Proof.Machine

/-! Exhaustion in index order -/

namespace Sys2Proof.Machine

/-! ## Exhaustion in index order (R86) -/

/-- A record with its pages used up. -/
def State.pagesOut (s : State) (i : Fin 48) : Bool := (s.record i).contact == .paging && (s.record i).pageCount == 0

/-- The records of a list with their pages used up. -/
def State.outAmong (s : State) (done : List (Fin 48)) (i : Fin 48) : Bool := s.pagesOut i && decide (i ∈ done)

/-- The step of page exhaustion. -/
def State.exhaustIf (s : State) (i : Fin 48) : State :=
  if (s.record i).contact == .paging && (s.record i).pageCount == 0 then s.exhaust i else s

/-- The NOTEs that record `i` of `s` sends if it is retired for want of pages. -/
def State.noteIfOut (s w : State) (i : Fin 48) : State :=
  if s.pagesOut i && !(s.record i).pinned then w.noteEachDropped (s.record i).carId (s.listed (s.record i)) else w

/-- The ports of `t` are those of `s` after the NOTEs of a list of records. -/
structure State.notesSent (s t : State) (done : List (Fin 48)) : Prop where
  ports : t.ports = (done.foldl s.noteIfOut s).ports
  served : t.transmittersServed
  noted : (done.foldl s.noteIfOut s).transmittersServed
  params : (done.foldl s.noteIfOut s).params = s.params

section
variable {s u : State} {i : Fin 48} {done : List (Fin 48)}

theorem State.noteEachDropped_keeps (served : u.transmittersServed) (car : Nat) (l : List Message) :
    (u.noteEachDropped car l).transmittersServed ∧ (u.noteEachDropped car l).params = u.params := by
  induction l generalizing u with
  | nil => exact ⟨served, rfl⟩
  | cons m l ih =>
      obtain ⟨kept, params⟩ := ih ((State.noteFor_stays u car m.source m.receipt .dropped).served served)
      exact ⟨kept, params.trans (State.noteFor_params ..)⟩

theorem State.exhaustIf_settles (s : State) (i : Fin 48) : s.settles (s.exhaustIf i) := by
  unfold State.exhaustIf
  split
  next out =>
    rw [Bool.and_eq_true, beq_iff_eq] at out
    exact State.exhaust_settles out.1
  next => exact .refl s

theorem State.outAmong_append (s : State) (done : List (Fin 48)) (i : Fin 48) :
    s.outAmong (done ++ [i]) = if s.pagesOut i then withRecord (s.outAmong done) i else s.outAmong done := by
  funext j
  unfold State.outAmong withRecord
  by_cases e : j = i
  · subst e
    cases out : s.pagesOut j with
    | true => simp
    | false => simp [out]
  · have rest : decide (j ∈ done ++ [i]) = decide (j ∈ done) := by simp [e]
    rw [rest]
    split
    · dsimp only
      rw [beq_false_of_ne e, Bool.or_false]
    · rfl

/-- A record that was not reached yet is judged as it stood. -/
theorem State.exhaustedAll.pagesOut (h : s.exhaustedAll u (s.outAmong done)) (fresh : i ∉ done) : u.pagesOut i = s.pagesOut i := by
  have alike := (h.others i (by unfold State.outAmong; rw [decide_eq_false fresh, Bool.and_false])).alike
  unfold State.pagesOut
  rw [alike.contact, alike.pageCount]

/-- The list of a record that was not reached yet, where pool and lists agree. -/
theorem State.exhaustedAll.listed (h : s.exhaustedAll u (s.outAmong done)) (fresh : i ∉ done) (pool : s.poolConsistent) :
    u.listed (u.record i) = s.listed (s.record i) := by
  have alike := (h.others i (by unfold State.outAmong; rw [decide_eq_false fresh, Bool.and_false])).alike
  unfold State.listed
  rw [alike.messages]
  refine List.filterMap_congr fun b mem => ?_
  rw [h.pool]
  refine if_neg ?_
  rintro ⟨j, out, _, listed⟩
  obtain ⟨m, held, target⟩ := (pool.1 i b).1 mem
  obtain ⟨m', held', target'⟩ := (pool.1 j b).1 listed
  have same : m = m' := Option.some.inj (held.symm.trans held')
  have self : j = i := by rw [← target', ← target, same]
  unfold State.outAmong at out
  rw [Bool.and_eq_true, decide_eq_true_iff] at out
  exact fresh (self ▸ out.2)

/-- One record more, whether its pages are used up or not. -/
theorem State.exhaustedAll.step (h : s.exhaustedAll u (s.outAmong done)) (fresh : i ∉ done) :
    s.exhaustedAll (u.exhaustIf i) (s.outAmong (done ++ [i])) ∧
      (s.poolConsistent → s.notesSent u done → s.notesSent (u.exhaustIf i) (done ++ [i])) := by
  have judged := h.pagesOut fresh
  have alike := (h.others i (by unfold State.outAmong; rw [decide_eq_false fresh, Bool.and_false])).alike
  have notes : (done ++ [i]).foldl s.noteIfOut s = s.noteIfOut (done.foldl s.noteIfOut s) i := by
    rw [List.foldl_append]
    rfl
  have settles := u.exhaustIf_settles i
  rw [State.outAmong_append]
  cases out : s.pagesOut i with
  | false =>
      have still : u.exhaustIf i = u := if_neg (Bool.eq_false_iff.1 (judged.trans out))
      have quiet : (done ++ [i]).foldl s.noteIfOut s = done.foldl s.noteIfOut s := by
        rw [notes]
        unfold State.noteIfOut
        rw [out]
        rfl
      rw [still, if_neg Bool.false_ne_true]
      exact ⟨h, fun _ sent => ⟨by rw [quiet]; exact sent.ports, sent.served, by rw [quiet]; exact sent.noted,
        by rw [quiet]; exact sent.params⟩⟩
  | true =>
      have exhausted : u.exhaustIf i = u.exhaust i := if_pos (judged.trans out)
      rw [if_pos rfl]
      rw [exhausted] at settles ⊢
      have one := u.exhaust_exhausts i
      have unmarked : s.outAmong done i = false := by
        unfold State.outAmong
        rw [decide_eq_false fresh, Bool.and_false]
      refine ⟨h.withOne unmarked one, fun pool sent => ?_⟩
      have noted : (done ++ [i]).foldl s.noteIfOut s = if (u.record i).pinned then done.foldl s.noteIfOut s else
          (done.foldl s.noteIfOut s).noteEachDropped (u.record i).carId (u.listed (u.record i)) := by
        rw [notes, h.listed fresh pool, alike.carId, alike.pinned]
        unfold State.noteIfOut
        rw [out]
        cases (s.record i).pinned <;> rfl
      have nodup : (u.record i).messages.Nodup := by
        rw [alike.messages]
        exact (pool.2.1 i).1
      have ports := one.ports _ sent.noted sent.served sent.ports (h.params.trans sent.params.symm) nodup
      obtain ⟨keeps, same⟩ := State.noteEachDropped_keeps sent.noted (u.record i).carId (u.listed (u.record i))
      rw [← noted] at ports
      refine ⟨ports, settles.served sent.served, ?_, ?_⟩
      · rw [noted]
        split
        · exact sent.noted
        · exact keeps
      · rw [noted]
        split
        · exact sent.params
        · exact same.trans sent.params

/-- The rest of the records, in their order. -/
theorem State.exhaustedAll.fold {rest : List (Fin 48)} (h : s.exhaustedAll u (s.outAmong done)) (nodup : (done ++ rest).Nodup) :
    s.exhaustedAll (rest.foldl State.exhaustIf u) (s.outAmong (done ++ rest)) ∧
      (s.poolConsistent → s.notesSent u done → s.notesSent (rest.foldl State.exhaustIf u) (done ++ rest)) := by
  induction rest generalizing u done with
  | nil =>
      rw [List.append_nil]
      exact ⟨h, fun _ sent => sent⟩
  | cons i rest ih =>
      have fresh : i ∉ done := fun mem => List.disjoint_of_nodup_append nodup mem (List.mem_cons_self ..)
      have split : done ++ i :: rest = (done ++ [i]) ++ rest := by simp
      obtain ⟨stepped, sent⟩ := h.step fresh
      rw [split] at nodup ⊢
      obtain ⟨whole, notes⟩ := ih stepped nodup
      exact ⟨whole, fun pool first => notes pool (sent pool first)⟩

/-- Page exhaustion, from a state with the same records and plan. -/
theorem State.exhaustPages_all (start : s.exhaustedAll u fun _ => false) (ports : u.ports = s.ports)
    (keeps : s.transmittersServed → u.transmittersServed) :
    s.exhaustedAll u.exhaustPages s.pagesOut ∧
      (s.poolConsistent → s.transmittersServed → u.exhaustPages.ports = (allRecords.foldl s.noteIfOut s).ports) := by
  have none : s.outAmong [] = fun _ => false := by
    funext i
    unfold State.outAmong
    simp
  have every : s.outAmong ([] ++ allRecords) = s.pagesOut := by
    funext i
    unfold State.outAmong
    rw [List.nil_append, decide_eq_true (show i ∈ allRecords from List.mem_finRange i), Bool.and_true]
  rw [← none] at start
  obtain ⟨whole, sent⟩ := start.fold (rest := allRecords) (List.nodup_finRange 48)
  rw [every] at whole
  exact ⟨whole, fun pool served => (sent pool ⟨ports, keeps served, served, rfl⟩).ports⟩

end

end Sys2Proof.Machine

/-! The end of slot 2 -/

namespace Sys2Proof.Machine

/-! ## The end of slot 2 (R12, R15, R86) -/

section
variable {s d : State} {garbled : Bool}

/-- The notice of slot 2 before page exhaustion, where no good hail was heard. -/
structure State.noHail (s d : State) (garbled : Bool) : Prop where
  roster : d.roster = s.roster
  cells : d.cells = s.cells
  pool : d.pool = s.pool
  ports : d.ports = s.ports
  inbound : d.inbound = s.inbound
  params : d.params = s.params
  sweep : d.sweep = s.sweep
  attention : d.host.attention = s.host.attention
  frames : d.host.garbledFrames = if garbled then
      (if s.host.garbledFrames < 65535 then s.host.garbledFrames + 1 else s.host.garbledFrames) else s.host.garbledFrames
  run : d.air.garbledRun = s.air.garbledRun
  dark : s.darkCounted d
  classes : s.onlyClasses d [.airDark]

theorem State.endEntry_noHail (silent : garbled = false → s.air.light ≠ .ready ∨ s.air.up = none)
    (bad : garbled = true → s.air.light = .ready ∧ ∃ u, s.air.up = some u ∧ decodeHail u.bytes = none) :
    ∃ d, s.countDarkEnd.endNotice 2 = d.exhaustPages ∧ s.noHail d garbled := by
  have frame := s.countDarkEnd_frame
  obtain ⟨dark, classes⟩ := s.countDarkEnd_counted
  have light : s.countDarkEnd.air.light = s.air.light := by rw [frame]
  have up : s.countDarkEnd.air.up = s.air.up := by rw [frame]
  generalize s.countDarkEnd = c at *
  have counted : s.noHail (if garbled then c.countGarbled else c) garbled := by
    cases garbled with
    | true => exact ⟨by rw [if_pos rfl, State.countGarbled_roster, frame], by rw [if_pos rfl, State.countGarbled_cells, frame],
        by rw [if_pos rfl, State.countGarbled_pool, frame], by rw [if_pos rfl, State.countGarbled_ports, frame],
        by rw [if_pos rfl, State.countGarbled_inbound, frame], by rw [if_pos rfl, State.countGarbled_params, frame],
        by rw [if_pos rfl, State.countGarbled_sweep, frame], by rw [if_pos rfl, frame]; rfl, by rw [frame]; rfl,
        by rw [if_pos rfl, frame]; rfl, dark, classes⟩
    | false => exact ⟨by rw [if_neg Bool.false_ne_true, frame], by rw [if_neg Bool.false_ne_true, frame],
        by rw [if_neg Bool.false_ne_true, frame], by rw [if_neg Bool.false_ne_true, frame],
        by rw [if_neg Bool.false_ne_true, frame], by rw [if_neg Bool.false_ne_true, frame],
        by rw [if_neg Bool.false_ne_true, frame], by rw [if_neg Bool.false_ne_true, frame],
        by rw [if_neg Bool.false_ne_true, frame]; rfl, by rw [if_neg Bool.false_ne_true, frame], dark, classes⟩
  refine ⟨_, ?_, counted⟩
  show c.endEntry 2 = _
  unfold State.endEntry
  rw [if_pos rfl]
  cases garbled with
  | true =>
      obtain ⟨ready, u, heard, none⟩ := bad rfl
      rw [Air.judge_garbled (light.trans ready) (up.trans heard) none]
      rfl
  | false =>
      by_cases ready : c.air.light = .ready
      · have absent := (silent rfl).resolve_left fun dim => dim (light.symm.trans ready)
        rw [Air.judge_absent ready (up.trans absent)]
        rfl
      · rw [Air.judge_dark ready]
        rfl

/-- Nothing is exhausted before the first record is judged. -/
theorem State.noHail.start (h : s.noHail d garbled) : s.exhaustedAll d fun _ => false := by
  have record (j : Fin 48) : d.record j = s.record j := State.record_congr h.roster j
  have flags (c : ConditionClass) (e : c ≠ .airDark) : d.classFlags c = s.classFlags c := h.classes c (by simpa using e)
  have none {p : Fin 48 → Prop} : ¬ ∃ i, false = true ∧ p i := fun ⟨_, e, _⟩ => absurd e (by decide)
  refine ⟨fun i e => absurd e (by decide), fun i _ => .inl (record i), fun i e => absurd e (by decide), fun c => ?_, fun b => ?_,
    ⟨fun ⟨_, e⟩ => absurd e none, fun _ => flags _ (by decide)⟩, ⟨fun e => absurd e none, fun _ => flags _ (by decide)⟩,
    fun e => absurd e none, fun _ => flags _ (by decide), ⟨fun e => absurd e none, fun _ => flags _ (by decide)⟩,
    flags _ (by decide), flags _ (by decide), ?_, by rw [h.roster], by rw [h.roster], h.params, h.inbound, .inl ?_⟩
  · rw [if_neg none, h.cells]
  · rw [if_neg none, h.pool]
  · rw [h.roster]
    simp
  · unfold State.sweepInProgress
    rw [h.sweep]

theorem State.noHail.served (h : s.noHail d garbled) (served : s.transmittersServed) : d.transmittersServed := by
  unfold State.transmittersServed at served ⊢
  have due (p : Port) (j : Fin 48) : d.dueThrough p j = s.dueThrough p j := by
    unfold State.dueThrough
    rw [State.record_congr h.roster, h.params]
  intro p
  rw [State.port_congr h.ports, h.params]
  simp only [due]
  exact served p

/-- An unpinned record, exhausted: it has no context of which a frame may begin. -/
theorem State.exhaustedAll.freed {out : Fin 48 → Bool} {i : Fin 48} (all : s.exhaustedAll d out) (e : out i = true)
    (unpinned : (s.record i).pinned = false) :
    d.record i =
      { Record.free with carId := (s.record i).carId, mark := if s.sweepAwaits i then .left else (s.record i).mark } := by
  have own := all.own i e
  unfold State.exhausted at own
  rw [if_neg (by rw [unpinned]; decide)] at own
  obtain same | ⟨c, none, _⟩ := own
  · exact same
  · exact absurd none nofun

/-- Settles O35: page exhaustion record by record, and the release exchange. -/
theorem exhaustionAndReleaseEndTheStay : Obligations.ExhaustionAndReleaseEndTheStay := by
  unfold Obligations.ExhaustionAndReleaseEndTheStay
  refine ⟨?_, ?_⟩
  · intro s out garbled hr hp hs hw silent bad hout
    obtain ⟨w, working⟩ := Option.ne_none_iff_exists'.1 hw
    have picked : out = s.pagesOut := funext hout
    obtain ⟨d, notice, heard⟩ := State.endEntry_noHail silent bad
    obtain ⟨all, sent⟩ := State.exhaustPages_all heard.start heard.ports heard.served
    have tallies := d.exhaustPages_tallies
    have execd := exec_slotEnd hr hp hs working
    have second : (2 : Fin 32).val = 2 := rfl
    rw [second, s.finishSlot_early (by decide), notice, State.applyHalt_frame] at execd
    clear notice
    generalize d.exhaustPages = v at *
    subst picked
    obtain ⟨-, run, frames, check, -⟩ := State.tallies_congr tallies
    refine ⟨_, execd, fun i e unpinned => ⟨?_, ?_⟩, fun i e pinned => ⟨?_, ?_⟩, fun i e summoned => ?_, all.others, all.cells,
      all.pool, all.summonCount, all.pinnedCount, all.pagePointer, sent, ?_, ?_, ?_, all.low, all.identity, all.unreported,
      all.full, fun c hc => ?_, ?_, all.inbound, all.params⟩
    · exact all.freed e unpinned
    · refine all.told i e .retired (List.mem_append_right _ ?_)
      rw [if_neg (by rw [unpinned]; decide)]
      exact List.mem_singleton_self _
    · have own := all.own i e
      unfold State.exhausted at own
      rw [if_pos pinned] at own
      exact own
    · refine all.told i e .dormant (List.mem_append_right _ ?_)
      rw [if_pos pinned]
      exact List.mem_singleton_self _
    · exact all.told i e _ (List.mem_append_left _ (mem_summonReasons summoned))
    · exact frames.trans heard.frames
    · exact (heard.dark.of_tallies tallies).congr rfl rfl
    · have picks (c : Option CellHolding) :
          (allRecords.any fun i => s.pagesOut i && !(s.record i).pinned && heldBy i c) = true ↔
            ∃ i, s.pagesOut i = true ∧ (s.record i).pinned = false ∧ heldBy i c = true := by
        rw [List.any_eq_true]
        refine exists_congr fun i => ?_
        rw [Bool.and_eq_true, Bool.and_eq_true, Bool.not_eq_true', and_assoc]
        exact and_iff_right (List.mem_finRange i)
      unfold State.planFreed
      simp only [picks]
      exact all.plan
    · simp only [List.mem_cons, List.not_mem_nil, or_false, not_or] at hc
      obtain ⟨notDark, notPlan, notLow, notIdentity, notFull⟩ := hc
      show v.classFlags c = s.classFlags c
      cases c with
      | airCheck => exact check.trans (heard.classes .airCheck (by decide))
      | linkDown => exact all.linkDown
      | portCheck => exact all.portCheck
      | airDark => exact absurd rfl notDark
      | planFull => exact absurd rfl notPlan
      | poolLow => exact absurd rfl notLow
      | identity => exact absurd rfl notIdentity
      | rosterFull => exact absurd rfl notFull
    · exact run.trans heard.run
  · intro s k x r hr hp hs low high hw hx release unheld whole contact
    subst whole
    have execd := releaseExchange_ends hr hp hs low high hw hx release unheld contact
    refine ⟨fun lit => ?_, fun dim => ?_⟩
    · have sent : s.air.light.sent = true := by
        obtain ready | begun := lit
        · rw [ready]
          rfl
        · rw [begun]
          rfl
      rw [if_pos sent] at execd
      exact ⟨fun unpinned => ⟨_, execd, State.counted_freed unheld unpinned⟩,
        fun pinned => ⟨_, execd, State.counted_setAside pinned⟩⟩
    · rw [if_neg (by rw [dim]; decide)] at execd
      exact ⟨_, execd, State.counted_unsent unheld (by rw [dim]; nofun)⟩

end

end Sys2Proof.Machine
